-- ==== Sys2Proof/Word.lean ====
section
/-! DEFINITION. The word types of the XN4 and their plainest arithmetic (spec/02 R37, spec/06 R107). -/

namespace Sys2Proof

/-- One byte of memory, the smallest addressable unit (R38). -/
abbrev Byte := BitVec 8
/-- An instruction word, and one lane of a vector register (R107, R162). -/
abbrev W32 := BitVec 32
/-- A general register, a control register, a pointer with its tag (R29, R88). -/
abbrev W64 := BitVec 64
/-- A virtual byte address without its tag (R29). -/
abbrev VA := BitVec 56
/-- An address-space identifier, 0–8,191 (R9). -/
abbrev Asid := BitVec 13
/-- Sixteen 32-bit lanes (R162). -/
abbrev Lanes := Vector W32 16

/-- Every lane the same value. -/
def Lanes.fill (x : W32) : Lanes := Vector.replicate 16 x

end Sys2Proof
end

