-- ==== Sys2Proof/Syntax.lean ====
section
/-! DEFINITION. The syntax of the XN4: the 220 instruction words of spec/opcode_table.json (spec/07 R126)
and its 84 steps of the device that have no word (spec/95). One constructor per row, in the table's order.
Every word carries its stall count `st` (S, bits 31:30, R109). -/

namespace Sys2Proof

/-- Stall count S (R107). -/
abbrev Stall := BitVec 2
/-- A general register field, `g0`–`g31` (R110). -/
abbrev Reg := BitVec 5
/-- A vector register field, `v0`–`v31` (R110). -/
abbrev VReg := BitVec 5
/-- A predicate field, `p0`–`p7` (R110). -/
abbrev PReg := BitVec 3

/-- `.s64` or `.z64` (R126, major 0x00 bit 8). -/
inductive Sgn | s64 | z64
  deriving DecidableEq, Repr
/-- The width of `SEXT` and `ZEXT` (R145). -/
inductive ExtW | w8 | w16 | w32
  deriving DecidableEq, Repr
/-- Operand type of scalar floating point (R158). -/
inductive FTy | f32 | bf16 | f16
  deriving DecidableEq, Repr
/-- Rounding field (R126, R158): MODE or a fixed direction. -/
inductive Rnd | mode | rne | rtz | rdn | rup
  deriving DecidableEq, Repr
/-- The eleven format codes 0x0–0xA (R30). -/
inductive Fmt | raw | fp32 | bf16 | fp16 | e4m3 | e5m2 | e2m1 | dp8 | int8 | int32 | int4
  deriving DecidableEq, Repr
/-- Source of `FCVT` (R161). -/
inductive CvtSrc | f32 | bf16 | f16 | s64
  deriving DecidableEq, Repr
/-- Source of `VCVT` (R172). -/
inductive VSrc | f32 | s32
  deriving DecidableEq, Repr
/-- Type of `LD`, `LD.fresh` and `LDW` (R234, R239). -/
inductive LdTy | z8 | z16 | z32 | z64 | s8 | s16 | s32
  deriving DecidableEq, Repr
/-- Type of `ST` (R234). -/
inductive StTy | z8 | z16 | z32 | z64 | lo4 | hi4
  deriving DecidableEq, Repr
/-- The five scopes (R265). -/
inductive Scope | core | rope | die | device | system
  deriving DecidableEq, Repr
/-- Operations of `ATOM` and `ATOMNR` (R283). -/
inductive AOp | add | and | or | xor | min | max | swap | cas | fadd | fmax | fmin
  deriving DecidableEq, Repr
/-- Types of `ATOM` and `ATOMNR` (R283). -/
inductive ATy | z32 | z64 | s32 | s64 | f32
  deriving DecidableEq, Repr
/-- Accumulator tile (R194). -/
inductive Tile | t0 | t1
  deriving DecidableEq, Repr
/-- Source of `LSTEP` (R207). -/
inductive LSrc | t0 | t1 | scr
  deriving DecidableEq, Repr
/-- Operators of `FRED` (R303). -/
inductive ROp | addS32 | addF32 | minS32 | maxS32 | minF32 | maxF32 | rsc
  deriving DecidableEq, Repr
/-- The control registers, numbers 0x00–0x16 (R128, R327). -/
inductive CReg
  | cause | epc | faddr | finfo | tbase | cairnpc | check | rmode | coord | pitch | tick | fseq
  | dring | spcfg | guardrec | wstat | xstat | utvec | utmask | spkeep | resinfo | cycle | drpc
  deriving DecidableEq, Repr

/-- A byte to be written: where, the value, and the bits of the byte that are written (R38). -/
structure WByte where
  addr : Nat
  val  : Byte
  mask : Byte
  deriving DecidableEq, Repr

/-- The ends of a rope-net store (R238): the bind of the task whose scratch it is for, and the context that made it (16 · core + context). -/
structure NetEnds where
  task : Nat
  src  : Nat
  deriving DecidableEq, Repr
/-- A flit of an `FMCAST` that comes in (R302, R341): the port, and its group. -/
structure FlitHead where
  port  : Nat
  group : Nat
  deriving DecidableEq, Repr
/-- A delta range (R56): its base and its bytes. -/
structure DRange where
  base : W64
  size : W64
  deriving DecidableEq, Repr

/-- What a host write names (R67, R69, R70, R213): a BAR0 offset of the physical function (none) or a
virtual function, a physical byte of a table, or the masks of a virtual function's MSI-X table, which its driver clears (R82). -/
inductive HostTarget
  | bar (func : Option (BitVec 6)) (off : Nat)
  | mem (pa : Nat)
  | unmask (func : BitVec 6)
  deriving DecidableEq, Repr

/-- Who met a page fault (R314, R251): a context, or an engine command held for the answer. -/
inductive FaultWho
  | ctx (core ctx : Nat)
  | cmd (core id : Nat)
  deriving DecidableEq, Repr

/-- A node of the belay tree (R288): its level (0 rope, 1 die, 2 package), its index, the belay's scope and ID. -/
structure BKey where
  level : Nat
  node  : Nat
  scope : Scope
  id    : Nat
  deriving DecidableEq, Repr

/-- Which reduction a partial or an outcome belongs to (R303): a fabric group, or a rope with its root core. -/
inductive RedKey
  | group (g : Nat)
  | rope (rope : Nat) (mask : BitVec 8) (root : Nat)
  deriving DecidableEq, Repr

/-- The arrays R326 names. -/
inductive EccSite
  | dirtyLine (core : Nat) (asid : Asid) (line : Nat)
  | granule (core g : Nat)
  | bivouacGranule (core g : Nat)
  | register (core ctx : Nat)
  | saveBank (core word : Nat)
  | icacheLine (core : Nat) (asid : Asid) (line : Nat)
  | handlerWord (core word : Nat)
  deriving DecidableEq, Repr

/-- The rows of spec/opcode_table.json. -/
inductive Instr
  -- 0x00 (R143)
  | add (st : Stall) (d a b : Reg) | sub (st : Stall) (d a b : Reg) | mul (st : Stall) (d a b : Reg)
  | mulh (st : Stall) (t : Sgn) (d a b : Reg) | div (st : Stall) (t : Sgn) (d a b : Reg)
  | rem (st : Stall) (t : Sgn) (d a b : Reg) | min (st : Stall) (t : Sgn) (d a b : Reg)
  | max (st : Stall) (t : Sgn) (d a b : Reg)
  -- 0x01 (R144)
  | and (st : Stall) (d a b : Reg) | or (st : Stall) (d a b : Reg) | xor (st : Stall) (d a b : Reg)
  | andn (st : Stall) (d a b : Reg) | shl (st : Stall) (d a b : Reg) | shr (st : Stall) (d a b : Reg)
  | sra (st : Stall) (d a b : Reg) | rotr (st : Stall) (d a b : Reg)
  | clz (st : Stall) (d a : Reg) | ctz (st : Stall) (d a : Reg) | popc (st : Stall) (d a : Reg)
  -- 0x02 (R145)
  | slt (st : Stall) (t : Sgn) (d a b : Reg) | seq (st : Stall) (d a b : Reg) | sne (st : Stall) (d a b : Reg)
  | sext (st : Stall) (w : ExtW) (d a : Reg) | zext (st : Stall) (w : ExtW) (d a : Reg)
  -- 0x03–0x0A (R146)
  | addi (st : Stall) (d a : Reg) (imm : BitVec 14) | andi (st : Stall) (d a : Reg) (imm : BitVec 14)
  | ori (st : Stall) (d a : Reg) (imm : BitVec 14) | xori (st : Stall) (d a : Reg) (imm : BitVec 14)
  | slti (st : Stall) (d a : Reg) (imm : BitVec 14)
  | shli (st : Stall) (d a : Reg) (sh : BitVec 6) | shri (st : Stall) (d a : Reg) (sh : BitVec 6)
  | srai (st : Stall) (d a : Reg) (sh : BitVec 6)
  -- 0x0B–0x0D (R147)
  | lui (st : Stall) (d : Reg) (imm : BitVec 19) | lcat (st : Stall) (d : Reg) (imm : BitVec 19)
  | lpc (st : Stall) (d : Reg) (imm : BitVec 19)
  -- 0x0E, 0x0F (R148)
  | adda (st : Stall) (d a b : Reg) | tagset (st : Stall) (d a b : Reg) | tagget (st : Stall) (d a : Reg)
  | suba (st : Stall) (d a b : Reg) | addai (st : Stall) (d a : Reg) (imm : BitVec 14)
  -- 0x10–0x15 (R149, R150)
  | beq (st : Stall) (a b : Reg) (disp : BitVec 14) | bne (st : Stall) (a b : Reg) (disp : BitVec 14)
  | blt (st : Stall) (a b : Reg) (disp : BitVec 14) | bge (st : Stall) (a b : Reg) (disp : BitVec 14)
  | jmp (st : Stall) (disp : BitVec 24) | call (st : Stall) (disp : BitVec 24)
  -- 0x16 (R150–R152, R137)
  | jr (st : Stall) (a : Reg) | callr (st : Stall) (d a : Reg) | nop (st : Stall) | cairn (st : Stall)
  | dly (st : Stall) (a : Reg) | tsync (st : Stall)
  -- 0x17 (R153–R157)
  | hstart (st : Stall) (d a : Reg) | hexit (st : Stall) | hwait (st : Stall) (a : Reg) | tdone (st : Stall)
  | tdec (st : Stall) (a : Reg) | tcancel (st : Stall) (d a : Reg) | tid (st : Stall) (d : Reg)
  -- 0x18 (R158–R160)
  | fadd (st : Stall) (t : FTy) (r : Rnd) (d a b : Reg) | fsub (st : Stall) (t : FTy) (r : Rnd) (d a b : Reg)
  | fmul (st : Stall) (t : FTy) (r : Rnd) (d a b : Reg) | fdiv (st : Stall) (t : FTy) (r : Rnd) (d a b : Reg)
  | fsqrt (st : Stall) (t : FTy) (r : Rnd) (d a : Reg) | fma (st : Stall) (t : FTy) (r : Rnd) (d a b : Reg)
  | fmin (st : Stall) (t : FTy) (d a b : Reg) | fmax (st : Stall) (t : FTy) (d a b : Reg)
  | feq (st : Stall) (t : FTy) (d a b : Reg) | flt (st : Stall) (t : FTy) (d a b : Reg)
  | fle (st : Stall) (t : FTy) (d a b : Reg) | fclass (st : Stall) (t : FTy) (d a : Reg)
  | fexp2 (st : Stall) (t : FTy) (d a : Reg) | fneg (st : Stall) (t : FTy) (d a : Reg)
  | fabs (st : Stall) (t : FTy) (d a : Reg)
  -- 0x19 (R161)
  | fcvt (st : Stall) (tgt : Fmt) (src : CvtSrc) (r : Rnd) (nsat : Bool) (d a : Reg)
  -- 0x20–0x24 (R234–R237)
  | ld (st : Stall) (t : LdTy) (d b : Reg) (off : BitVec 11) | ldFresh (st : Stall) (t : LdTy) (d b : Reg) (off : BitVec 11)
  | st (st : Stall) (t : StTy) (d b : Reg) (off : BitVec 11)
  | ldAcq (st : Stall) (sc : Scope) (d b : Reg) (off : BitVec 11) | stRel (st : Stall) (sc : Scope) (d b : Reg) (off : BitVec 11)
  -- 0x25 (R239–R242)
  | ldw (st : Stall) (t : LdTy) (d : Reg) (w : BitVec 3) (b : Reg)
  | ldxF32 (st : Stall) (d a b : Reg) | ldxS32 (st : Stall) (d a b : Reg)
  | stx (st : Stall) (d a b : Reg) | stxNsat (st : Stall) (d a b : Reg) | pref (st : Stall) (a b : Reg)
  -- 0x26 (R243–R246, R116)
  | spresize (st : Stall) (a : Reg) | renew (st : Stall) (a b : Reg) | flush (st : Stall) (a b : Reg)
  | flushinv (st : Stall) (a b : Reg) | seqset (st : Stall) (a b : Reg) | seqget (st : Stall) (d a : Reg)
  | icinv (st : Stall) (sc : Scope) (a b : Reg)
  -- 0x28–0x2E (R283–R300)
  | atom (st : Stall) (op : AOp) (t : ATy) (d a b : Reg) | atomnr (st : Stall) (op : AOp) (t : ATy) (a b : Reg)
  | fenceAcq (st : Stall) (sc : Scope) | fenceRel (st : Stall) (sc : Scope) | fenceAr (st : Stall) (sc : Scope)
  | belay (st : Stall) (sc : Scope) (a : Reg) | barr (st : Stall) (sc : Scope) (d a : Reg)
  | bwait (st : Stall) (sc : Scope) (a b : Reg)
  | wfe (st : Stall) (d a : Reg) | evsig (st : Stall) (a : Reg) | cwait (st : Stall) (a b : Reg)
  | cwaitb (st : Stall) (d a b : Reg) | qpush (st : Stall) (a b : Reg) | qpop (st : Stall) (d a : Reg)
  | qpopb (st : Stall) (d a b : Reg)
  | futwait (st : Stall) (d a : Reg) | futset (st : Stall) (d a b : Reg) | futwaitb (st : Stall) (d a b : Reg)
  | send (st : Stall) (d a b : Reg) | sendb (st : Stall) (d a b : Reg) | recv (st : Stall) (d : Reg)
  | recvb (st : Stall) (d a : Reg)
  -- 0x30 (R168)
  | vadd (st : Stall) (d a b : VReg) (p : PReg) | vsub (st : Stall) (d a b : VReg) (p : PReg)
  | vmul (st : Stall) (d a b : VReg) (p : PReg) | vfma (st : Stall) (d a b : VReg) (p : PReg)
  | vdiv (st : Stall) (d a b : VReg) (p : PReg) | vsqrt (st : Stall) (d a : VReg) (p : PReg)
  | vmin (st : Stall) (d a b : VReg) (p : PReg) | vmax (st : Stall) (d a b : VReg) (p : PReg)
  | vexp2 (st : Stall) (d a : VReg) (p : PReg) | vabs (st : Stall) (d a : VReg) (p : PReg)
  | vneg (st : Stall) (d a : VReg) (p : PReg)
  -- 0x31 (R169)
  | viadd (st : Stall) (d a b : VReg) (p : PReg) | visub (st : Stall) (d a b : VReg) (p : PReg)
  | vimul (st : Stall) (d a b : VReg) (p : PReg) | viminS32 (st : Stall) (d a b : VReg) (p : PReg)
  | viminZ32 (st : Stall) (d a b : VReg) (p : PReg) | vimaxS32 (st : Stall) (d a b : VReg) (p : PReg)
  | vimaxZ32 (st : Stall) (d a b : VReg) (p : PReg) | vand (st : Stall) (d a b : VReg) (p : PReg)
  | vor (st : Stall) (d a b : VReg) (p : PReg) | vxor (st : Stall) (d a b : VReg) (p : PReg)
  | vshl (st : Stall) (d a b : VReg) (p : PReg) | vshr (st : Stall) (d a b : VReg) (p : PReg)
  | vsra (st : Stall) (d a b : VReg) (p : PReg)
  -- 0x32 (R170, R171)
  | vfcmpEq (st : Stall) (d : PReg) (a b : VReg) (p : PReg) | vfcmpLt (st : Stall) (d : PReg) (a b : VReg) (p : PReg)
  | vfcmpLe (st : Stall) (d : PReg) (a b : VReg) (p : PReg) | vicmpEq (st : Stall) (d : PReg) (a b : VReg) (p : PReg)
  | vicmpLtS32 (st : Stall) (d : PReg) (a b : VReg) (p : PReg) | vicmpLtZ32 (st : Stall) (d : PReg) (a b : VReg) (p : PReg)
  | vsel (st : Stall) (d a b : VReg) (p : PReg) | vpset (st : Stall) (d : PReg) (a : VReg) (p : PReg)
  | vpget (st : Stall) (d : VReg) (a : PReg) (p : PReg) | vperm (st : Stall) (d a b : VReg) (p : PReg)
  -- 0x33 (R172)
  | vcvt (st : Stall) (tgt : Fmt) (src : VSrc) (nsat : Bool) (d a : VReg) (p : PReg)
  -- 0x34 (R173)
  | vradd (st : Stall) (d a : VReg) (p : PReg) | vrmax (st : Stall) (d a : VReg) (p : PReg)
  | vrmin (st : Stall) (d a : VReg) (p : PReg) | vriadd (st : Stall) (d a : VReg) (p : PReg)
  | vrimaxS32 (st : Stall) (d a : VReg) (p : PReg) | vrimaxZ32 (st : Stall) (d a : VReg) (p : PReg)
  | vriminS32 (st : Stall) (d a : VReg) (p : PReg) | vriminZ32 (st : Stall) (d a : VReg) (p : PReg)
  -- 0x35 (R175)
  | vld (st : Stall) (v : VReg) (d a : Reg) | vst (st : Stall) (v : VReg) (d a : Reg)
  | vldx (st : Stall) (v : VReg) (d a : Reg) | vstx (st : Stall) (v : VReg) (d a : Reg)
  | vgather (st : Stall) (v : VReg) (d a : Reg) | vscatter (st : Stall) (v : VReg) (d a : Reg)
  | vbcast (st : Stall) (v : VReg) (a : Reg) | vins (st : Stall) (v : VReg) (d a : Reg)
  | vext (st : Stall) (v : VReg) (d a : Reg)
  -- 0x38 (R194)
  | mmul (st : Stall) (t : Tile) (a b c : Reg) | mmac (st : Stall) (t : Tile) (a b c : Reg)
  | mrun (st : Stall) (t : Tile) (a b c : Reg) | mread (st : Stall) (t : Tile) (a b c : Reg)
  | mzero (st : Stall) (t : Tile) (c : Reg) | mcomb (st : Stall) (t : Tile) (a c : Reg)
  | mprog (st : Stall) (a c : Reg) | mload (st : Stall) (t : Tile) (a b c : Reg)
  -- 0x39 (R189)
  | lease (st : Stall) | leaseb (st : Stall) (a : Reg) | leasend (st : Stall) | leaseq (st : Stall) (d : Reg)
  | mdim (st : Stall) (a : Reg) | mseq (st : Stall) (a : Reg)
  -- 0x3A (R207)
  | lcfg (st : Stall) (a c : Reg) | lwgt (st : Stall) (a c : Reg) | lstep (st : Stall) (src : LSrc) (a c : Reg)
  | lread (st : Stall) (a c : Reg) | lrung (st : Stall) (a b c : Reg) | lclr (st : Stall) (c : Reg)
  -- 0x3B (R248)
  | copy (st : Stall) (a b c : Reg) | copyApnd (st : Stall) (a b c : Reg) | copyl (st : Stall) (a b c : Reg)
  | copyz (st : Stall) (a b c : Reg) | cbump (st : Stall) (a b c : Reg)
  -- 0x3C (R255, R261)
  | lroot (st : Stall) (d a : Reg) | fork (st : Stall) (d a b : Reg) | flatten (st : Stall) (d a : Reg)
  | rebase (st : Stall) (d a b : Reg) | ldrop (st : Stall) (a : Reg) | linfo (st : Stall) (d a b : Reg)
  | ldl (st : Stall) (d a b : Reg)
  | vclaim (st : Stall) (a : Reg) | apnd (st : Stall) (d a b : Reg) | tailset (st : Stall) (a b : Reg)
  | seal (st : Stall) (a : Reg) | vfree (st : Stall) (a : Reg) | vtail (st : Stall) (d a : Reg)
  -- 0x3D (R302, R303)
  | fput (st : Stall) (a : Reg) | fget (st : Stall) (a : Reg) | fmcast (st : Stall) (a : Reg) | fsync (st : Stall)
  | fred (st : Stall) (op : ROp) (a b : Reg)
  -- 0x3E (R328–R331, R312)
  | crd (st : Stall) (cr : CReg) (d : Reg) | cwr (st : Stall) (cr : CReg) (a : Reg)
  | cset (st : Stall) (cr : CReg) (a : Reg) | cclr (st : Stall) (cr : CReg) (a : Reg)
  | trap (st : Stall) (n : BitVec 6) | eret (st : Stall) | ctxsv (st : Stall) (a : Reg)
  | ctxld (st : Stall) (a : Reg) | bxch (st : Stall) | cresume (st : Stall)
  -- Steps of the device without a word (spec/95)
  | hostRegisterWrite (t : HostTarget) (size : Nat) (val : W64)
  | qtailWrite (q : Nat) (v : W32) | queueEnable (q : Nat) (en : Bool) | queueClear (q : Nat)
  | submitRecord (q : Nat) | cancelRecord (q : Nat) | markerRecord (q : Nat) | recordSettle (id : Nat)
  | curatorBind (core slot : Nat) (start delay spill : W64)
  | dispatchBind (core slot : Nat) | dispatchStart (core slot : Nat) | dispatchSelect (core : Nat)
  | preemptTake (core : Nat) | handlerEntry (core ctx : Nat) (ent : BitVec 3) | taskFailure (core : Nat)
  | impreciseFaultTaken (core ctx : Nat) | ageInterval | tick | watchdogExpiry (core slot : Nat)
  | granuleCheckerVisit (core g : Nat) | cacheLineSweep (core : Nat) (asid : Asid) (line : Nat)
  | cacheLineExpire (core : Nat) (asid : Asid) (line : Nat) | fifoEntrySpill (core bank : Nat)
  | leaseGrant (rope : Nat) | leaseRunEnd (rope granted : Nat)
  | engineCommandStart (core id : Nat) | retryResume (core ctx : Nat) | engineCommandComplete (core id : Nat)
  | copyComplete (core id : Nat) | boundedWaitExpiry (core ctx token : Nat) | wfeTimeout (core ctx token : Nat)
  | loadAnswered (id : Nat) | storePerformed (id : Nat) | atomicPerformed (id : Nat)
  | predsDecrement (asid : Asid) (tcb : VA) (pa : Nat) | pageReclassify (asid : Asid) (va : VA)
  | pageFaultAnswer (who : FaultWho) (pte : Nat) (w0 w8 : W64) | pageFaultDenial (who : FaultWho)
  | xlatInvalidatePage (func : Option (BitVec 6)) | xlatInvalidateAll (func : Option (BitVec 6)) | xlatInvalidateComplete
  | migrationRequest | heatHalve | heatArrayWrite (die : Nat) | rlctlGo | retirementListLoad
  | memoryEccError (pa : Nat) (uncorrectable : Bool) | uncorrectableError (site : EccSite)
  | vitrineDataWritten (asid : Asid) (page claim : Nat) | recallAck (asid : Asid) (page holder : Nat)
  | ropeNetStoreArrival (core : Nat) (ends : NetEnds) (bytes : List WByte)
  | seqsetTagWrite (core task slot : Nat) (tag : BitVec 16)
  | queueEntryArrival (core task q : Nat) (val : W64)
  | messageDelivery (core : Nat) (taskid : W32) (asid : Asid) (val : W64) (fromCore fromCtx token : Nat)
  | eventSignalArrival (core : Nat) (asid : Asid)
  | belayArrival (node : BKey) (expect child : Nat) (word : W64) | belayRelease (node : BKey)
  | fabricLanding (head : FlitHead) (off : Nat) (data : List Byte) | fabricTransferComplete (id : Nat)
  | reductionPartialArrival (key : RedKey) (seq : W32) (port : Nat) (op : ROp) (elems : Nat) (vals : List W32) (bad : Bool)
  | reductionOutcomeArrival (key : RedKey) (seq : W32) (bad : Bool) (res : Option (List W32))
  | remoteAccessTimeout (id : Nat) | fabricLinkChange (port : Nat) (up : Bool) (pkg : BitVec 10)
  | reclamationEntryWrite (asid : Asid) (kind : BitVec 2) (handle : BitVec 24) (range : DRange) (since : Nat)
  | crtailWrite (v : W32) | thermalLevelStep (temp : Nat) | coreOvertempHalt (core : Nat)
  | telemUpdate (watts : BitVec 12) (temp : BitVec 8) | fwGo | fwVerifyComplete (edOk mlOk : Bool)
  | attestGo | attestReportComplete | hostLinkTraining (cxl : Bool) | packageReset
  | functionLevelReset (f : BitVec 6) | flrComplete (f : BitVec 6) | bivouacSpill (core : Nat)
  | spillLoadBack (core slot : Nat) | haltedFaultRecovery (core : Nat) | icinvComplete (core ctx : Nat)
  | flushWalkComplete (core ctx : Nat) | illegalInstruction (word : W32) | instructionFetch (core ctx : Nat)
  | curatorCancel (asid : Asid) (tcb : VA)
  deriving DecidableEq, Repr

end Sys2Proof
end

