-- ==== Sys2Proof/WellFormed.lean ====
section
/-! DEFINITION. Which terms of `Instr` are instructions: the combinations the spec gives no encoding are
ill-formed (spec/06 R116, R118; spec/08 R161; spec/09 R172, R175; spec/10 R207; spec/14 R283, R289). -/

namespace Sys2Proof

/-- Conversion targets that have no `.nsat` form: integers and DP8 (R161, R172). -/
def Fmt.noNsat : Fmt → Bool
  | .dp8 | .int8 | .int32 | .int4 => true
  | .raw | .fp32 | .bf16 | .fp16 | .e4m3 | .e5m2 | .e2m1 => false

/-- A conversion's target and saturation have an encoding (R161, R172). -/
def cvtWf (tgt : Fmt) (nsat : Bool) : Bool := tgt != .raw && !(nsat && tgt.noNsat)

/-- The types an atomic operation takes (R283). -/
def atomTypeWf (o : AOp) (t : ATy) : Bool :=
  match o with
  | .min | .max => t != .f32
  | .fadd | .fmax | .fmin => t == .f32
  | .add | .and | .or | .xor | .swap | .cas => t == .z32 || t == .z64

/-- The scopes of belays: rope, die, device (R289). -/
def belayScopeWf (c : Scope) : Bool := c == .rope || c == .die || c == .device

/-- The instruction has an encoding, or is a step of the device. -/
def Instr.wf : Instr → Bool
  | .fcvt _ tgt _ _ nsat _ _ => cvtWf tgt nsat
  | .vcvt _ tgt _ nsat _ _ _ => cvtWf tgt nsat
  | .icinv _ c _ _ => c != .system
  | .atom _ o t _ _ _ => atomTypeWf o t
  | .atomnr _ o t _ _ => atomTypeWf o t && o != .swap && o != .cas
  | .belay _ c _ => belayScopeWf c
  | .barr _ c _ _ => belayScopeWf c
  | .bwait _ c _ _ => belayScopeWf c
  | .vscatter _ v _ _ => v != 31
  | .lstep _ src a _ => src == .scr || a == 0
  | _ => true

end Sys2Proof
end

