-- ==== Sys2Proof/Decode.lean ====
section
/-! DEFINITION. Decoding and encoding of the 220 instruction words (spec/06 R107–R112, R118; spec/07 R126,
R128). `decode` is total and refuses every word R118 calls no instruction; `encode` is written from the same
tables. -/

namespace Sys2Proof

/-- The fields shared by the nine formats of R110: S, OP, and bits 23:19, 18:14, 13:9 and 8:0. -/
structure Parts where
  s  : BitVec 2
  op : BitVec 6
  x  : BitVec 5
  y  : BitVec 5
  z  : BitVec 5
  f  : BitVec 9
  deriving DecidableEq, Repr

/-- The fields of a word (R107, R110). -/
def unpack (w : W32) : Parts :=
  ⟨w.extractLsb' 30 2, w.extractLsb' 24 6, w.extractLsb' 19 5, w.extractLsb' 14 5, w.extractLsb' 9 5, w.extractLsb' 0 9⟩

/-- The word of given fields (R107, R110). -/
def pack (p : Parts) : W32 := p.s ++ p.op ++ p.x ++ p.y ++ p.z ++ p.f

/-- I-format and B-format bits 13:0. -/
def Parts.imm14 (p : Parts) : BitVec 14 := p.z ++ p.f
/-- U-format bits 18:0. -/
def Parts.imm19 (p : Parts) : BitVec 19 := p.y ++ p.z ++ p.f
/-- J-format bits 23:0. -/
def Parts.disp24 (p : Parts) : BitVec 24 := p.x ++ p.y ++ p.z ++ p.f
/-- M-format m, bits 13:11. -/
def Parts.m (p : Parts) : BitVec 3 := p.z.extractLsb' 2 3
/-- M-format off, bits 10:0. -/
def Parts.off (p : Parts) : BitVec 11 := p.z.extractLsb' 0 2 ++ p.f
/-- V-format p, bits 8:6. -/
def Parts.p (p : Parts) : BitVec 3 := p.f.extractLsb' 6 3
/-- V-format fn, bits 5:0. -/
def Parts.fn6 (p : Parts) : BitVec 6 := p.f.extractLsb' 0 6
/-- X-format a, bits 8:4. -/
def Parts.xa (p : Parts) : BitVec 5 := p.f.extractLsb' 4 5
/-- X-format argument of major 0x3E, bits 19:14. -/
def Parts.arg (p : Parts) : BitVec 6 := p.x.extractLsb' 0 1 ++ p.y

/-- Fields of the formats, put together. -/
def mkI (s : BitVec 2) (op : BitVec 6) (x y : BitVec 5) (i : BitVec 14) : Parts :=
  ⟨s, op, x, y, i.extractLsb' 9 5, i.extractLsb' 0 9⟩
def mkU (s : BitVec 2) (op : BitVec 6) (x : BitVec 5) (i : BitVec 19) : Parts :=
  ⟨s, op, x, i.extractLsb' 14 5, i.extractLsb' 9 5, i.extractLsb' 0 9⟩
def mkJ (s : BitVec 2) (op : BitVec 6) (i : BitVec 24) : Parts :=
  ⟨s, op, i.extractLsb' 19 5, i.extractLsb' 14 5, i.extractLsb' 9 5, i.extractLsb' 0 9⟩
def mkM (s : BitVec 2) (op : BitVec 6) (x y : BitVec 5) (m : BitVec 3) (off : BitVec 11) : Parts :=
  ⟨s, op, x, y, m ++ off.extractLsb' 9 2, off.extractLsb' 0 9⟩
def mkV (s : BitVec 2) (op : BitVec 6) (x y z : BitVec 5) (p : BitVec 3) (fn : BitVec 6) : Parts :=
  ⟨s, op, x, y, z, p ++ fn⟩
def mkX (s : BitVec 2) (op : BitVec 6) (x y z a : BitVec 5) : Parts := ⟨s, op, x, y, z, a ++ 0#4⟩
/-- X format of major 0x3E: op in 23:20, argument in 19:14, d, a. -/
def mkS (s : BitVec 2) (o : BitVec 4) (arg : BitVec 6) (d a : BitVec 5) : Parts :=
  ⟨s, 0x3E, o ++ arg.extractLsb' 5 1, arg.extractLsb' 0 5, d, a ++ 0#4⟩

/-- `i` where a field that must be zero is zero (R112), else no instruction. -/
def onlyIf (c : Bool) (i : Instr) : Option Instr := if c then some i else none

/-- The code of a value (R126). -/
def Sgn.code : Sgn → BitVec 1
  | .s64 => 0
  | .z64 => 1
/-- The value of a code, none where the map assigns none (R118). -/
def Sgn.ofCode (c : BitVec 1) : Option Sgn :=
  match c.toNat with
  | 0 => some .s64
  | 1 => some .z64
  | _ => none

/-- The code of a value (R126). -/
def ExtW.code : ExtW → BitVec 2
  | .w8 => 0
  | .w16 => 1
  | .w32 => 2
/-- The value of a code, none where the map assigns none (R118). -/
def ExtW.ofCode (c : BitVec 2) : Option ExtW :=
  match c.toNat with
  | 0 => some .w8
  | 1 => some .w16
  | 2 => some .w32
  | _ => none

/-- The code of a value (R126). -/
def FTy.code : FTy → BitVec 2
  | .f32 => 0
  | .bf16 => 1
  | .f16 => 2
/-- The value of a code, none where the map assigns none (R118). -/
def FTy.ofCode (c : BitVec 2) : Option FTy :=
  match c.toNat with
  | 0 => some .f32
  | 1 => some .bf16
  | 2 => some .f16
  | _ => none

/-- The code of a value (R126). -/
def Rnd.code : Rnd → BitVec 3
  | .mode => 0
  | .rne => 1
  | .rtz => 2
  | .rdn => 3
  | .rup => 4
/-- The value of a code, none where the map assigns none (R118). -/
def Rnd.ofCode (c : BitVec 3) : Option Rnd :=
  match c.toNat with
  | 0 => some .mode
  | 1 => some .rne
  | 2 => some .rtz
  | 3 => some .rdn
  | 4 => some .rup
  | _ => none

/-- The code of a value (R126, R30). -/
def Fmt.code : Fmt → BitVec 4
  | .raw => 0
  | .fp32 => 1
  | .bf16 => 2
  | .fp16 => 3
  | .e4m3 => 4
  | .e5m2 => 5
  | .e2m1 => 6
  | .dp8 => 7
  | .int8 => 8
  | .int32 => 9
  | .int4 => 10
/-- The value of a code, none where the map assigns none (R118). -/
def Fmt.ofCode (c : BitVec 4) : Option Fmt :=
  match c.toNat with
  | 0 => some .raw
  | 1 => some .fp32
  | 2 => some .bf16
  | 3 => some .fp16
  | 4 => some .e4m3
  | 5 => some .e5m2
  | 6 => some .e2m1
  | 7 => some .dp8
  | 8 => some .int8
  | 9 => some .int32
  | 10 => some .int4
  | _ => none

/-- The code of a value (R126). -/
def CvtSrc.code : CvtSrc → BitVec 2
  | .f32 => 0
  | .bf16 => 1
  | .f16 => 2
  | .s64 => 3
/-- The value of a code, none where the map assigns none (R118). -/
def CvtSrc.ofCode (c : BitVec 2) : Option CvtSrc :=
  match c.toNat with
  | 0 => some .f32
  | 1 => some .bf16
  | 2 => some .f16
  | 3 => some .s64
  | _ => none

/-- The code of a value (R126). -/
def VSrc.code : VSrc → BitVec 2
  | .f32 => 0
  | .s32 => 1
/-- The value of a code, none where the map assigns none (R118). -/
def VSrc.ofCode (c : BitVec 2) : Option VSrc :=
  match c.toNat with
  | 0 => some .f32
  | 1 => some .s32
  | _ => none

/-- The code of a value (R126). -/
def LdTy.code : LdTy → BitVec 3
  | .z8 => 0
  | .z16 => 1
  | .z32 => 2
  | .z64 => 3
  | .s8 => 4
  | .s16 => 5
  | .s32 => 6
/-- The value of a code, none where the map assigns none (R118). -/
def LdTy.ofCode (c : BitVec 3) : Option LdTy :=
  match c.toNat with
  | 0 => some .z8
  | 1 => some .z16
  | 2 => some .z32
  | 3 => some .z64
  | 4 => some .s8
  | 5 => some .s16
  | 6 => some .s32
  | _ => none

/-- The code of a value (R126). -/
def StTy.code : StTy → BitVec 3
  | .z8 => 0
  | .z16 => 1
  | .z32 => 2
  | .z64 => 3
  | .lo4 => 4
  | .hi4 => 5
/-- The value of a code, none where the map assigns none (R118). -/
def StTy.ofCode (c : BitVec 3) : Option StTy :=
  match c.toNat with
  | 0 => some .z8
  | 1 => some .z16
  | 2 => some .z32
  | 3 => some .z64
  | 4 => some .lo4
  | 5 => some .hi4
  | _ => none

/-- The code of a value (R126). -/
def Scope.code : Scope → BitVec 3
  | .core => 0
  | .rope => 1
  | .die => 2
  | .device => 3
  | .system => 4
/-- The value of a code, none where the map assigns none (R118). -/
def Scope.ofCode (c : BitVec 3) : Option Scope :=
  match c.toNat with
  | 0 => some .core
  | 1 => some .rope
  | 2 => some .die
  | 3 => some .device
  | 4 => some .system
  | _ => none

/-- The code of a value (R126). -/
def AOp.code : AOp → BitVec 5
  | .add => 0
  | .and => 1
  | .or => 2
  | .xor => 3
  | .min => 4
  | .max => 5
  | .swap => 6
  | .cas => 7
  | .fadd => 8
  | .fmax => 9
  | .fmin => 10
/-- The value of a code, none where the map assigns none (R118). -/
def AOp.ofCode (c : BitVec 5) : Option AOp :=
  match c.toNat with
  | 0 => some .add
  | 1 => some .and
  | 2 => some .or
  | 3 => some .xor
  | 4 => some .min
  | 5 => some .max
  | 6 => some .swap
  | 7 => some .cas
  | 8 => some .fadd
  | 9 => some .fmax
  | 10 => some .fmin
  | _ => none

/-- The code of a value (R126). -/
def ATy.code : ATy → BitVec 4
  | .z32 => 0
  | .z64 => 1
  | .s32 => 2
  | .s64 => 3
  | .f32 => 4
/-- The value of a code, none where the map assigns none (R118). -/
def ATy.ofCode (c : BitVec 4) : Option ATy :=
  match c.toNat with
  | 0 => some .z32
  | 1 => some .z64
  | 2 => some .s32
  | 3 => some .s64
  | 4 => some .f32
  | _ => none

/-- The code of a value (R126). -/
def Tile.code : Tile → BitVec 1
  | .t0 => 0
  | .t1 => 1
/-- The value of a code, none where the map assigns none (R118). -/
def Tile.ofCode (c : BitVec 1) : Option Tile :=
  match c.toNat with
  | 0 => some .t0
  | 1 => some .t1
  | _ => none

/-- The code of a value (R126). -/
def LSrc.code : LSrc → BitVec 2
  | .t0 => 0
  | .t1 => 1
  | .scr => 2
/-- The value of a code, none where the map assigns none (R118). -/
def LSrc.ofCode (c : BitVec 2) : Option LSrc :=
  match c.toNat with
  | 0 => some .t0
  | 1 => some .t1
  | 2 => some .scr
  | _ => none

/-- The code of a value (R126). -/
def ROp.code : ROp → BitVec 3
  | .addS32 => 0
  | .addF32 => 1
  | .minS32 => 2
  | .maxS32 => 3
  | .minF32 => 4
  | .maxF32 => 5
  | .rsc => 6
/-- The value of a code, none where the map assigns none (R118). -/
def ROp.ofCode (c : BitVec 3) : Option ROp :=
  match c.toNat with
  | 0 => some .addS32
  | 1 => some .addF32
  | 2 => some .minS32
  | 3 => some .maxS32
  | 4 => some .minF32
  | 5 => some .maxF32
  | 6 => some .rsc
  | _ => none

/-- The code of a value (R126, R128, R327). -/
def CReg.code : CReg → BitVec 6
  | .cause => 0
  | .epc => 1
  | .faddr => 2
  | .finfo => 3
  | .tbase => 4
  | .cairnpc => 5
  | .check => 6
  | .rmode => 7
  | .coord => 8
  | .pitch => 9
  | .tick => 10
  | .fseq => 11
  | .dring => 12
  | .spcfg => 13
  | .guardrec => 14
  | .wstat => 15
  | .xstat => 16
  | .utvec => 17
  | .utmask => 18
  | .spkeep => 19
  | .resinfo => 20
  | .cycle => 21
  | .drpc => 22
/-- The value of a code, none where the map assigns none (R118). -/
def CReg.ofCode (c : BitVec 6) : Option CReg :=
  match c.toNat with
  | 0 => some .cause
  | 1 => some .epc
  | 2 => some .faddr
  | 3 => some .finfo
  | 4 => some .tbase
  | 5 => some .cairnpc
  | 6 => some .check
  | 7 => some .rmode
  | 8 => some .coord
  | 9 => some .pitch
  | 10 => some .tick
  | 11 => some .fseq
  | 12 => some .dring
  | 13 => some .spcfg
  | 14 => some .guardrec
  | 15 => some .wstat
  | 16 => some .xstat
  | 17 => some .utvec
  | 18 => some .utmask
  | 19 => some .spkeep
  | 20 => some .resinfo
  | 21 => some .cycle
  | 22 => some .drpc
  | _ => none

/-- Major 0x00 (R126). -/
def decode00 (p : Parts) : Option Instr :=
  match p.f.toNat with
  | 0x001 => some (.add p.s p.x p.y p.z)
  | 0x002 => some (.sub p.s p.x p.y p.z)
  | 0x003 => some (.mul p.s p.x p.y p.z)
  | 0x004 => some (.mulh p.s .s64 p.x p.y p.z)
  | 0x104 => some (.mulh p.s .z64 p.x p.y p.z)
  | 0x005 => some (.div p.s .s64 p.x p.y p.z)
  | 0x105 => some (.div p.s .z64 p.x p.y p.z)
  | 0x006 => some (.rem p.s .s64 p.x p.y p.z)
  | 0x106 => some (.rem p.s .z64 p.x p.y p.z)
  | 0x007 => some (.min p.s .s64 p.x p.y p.z)
  | 0x107 => some (.min p.s .z64 p.x p.y p.z)
  | 0x008 => some (.max p.s .s64 p.x p.y p.z)
  | 0x108 => some (.max p.s .z64 p.x p.y p.z)
  | _ => none

/-- Major 0x01 (R126). -/
def decode01 (p : Parts) : Option Instr :=
  match p.f.toNat with
  | 0x000 => some (.and p.s p.x p.y p.z)
  | 0x001 => some (.or p.s p.x p.y p.z)
  | 0x002 => some (.xor p.s p.x p.y p.z)
  | 0x003 => some (.andn p.s p.x p.y p.z)
  | 0x004 => some (.shl p.s p.x p.y p.z)
  | 0x005 => some (.shr p.s p.x p.y p.z)
  | 0x006 => some (.sra p.s p.x p.y p.z)
  | 0x007 => some (.rotr p.s p.x p.y p.z)
  | 0x008 => onlyIf (p.z == 0) (.clz p.s p.x p.y)
  | 0x009 => onlyIf (p.z == 0) (.ctz p.s p.x p.y)
  | 0x00A => onlyIf (p.z == 0) (.popc p.s p.x p.y)
  | _ => none

/-- Major 0x02 (R126). -/
def decode02 (p : Parts) : Option Instr :=
  match p.f.toNat with
  | 0x000 => some (.slt p.s .s64 p.x p.y p.z)
  | 0x100 => some (.slt p.s .z64 p.x p.y p.z)
  | 0x001 => some (.seq p.s p.x p.y p.z)
  | 0x002 => some (.sne p.s p.x p.y p.z)
  | 0x010 => onlyIf (p.z == 0) (.sext p.s .w8 p.x p.y)
  | 0x011 => onlyIf (p.z == 0) (.sext p.s .w16 p.x p.y)
  | 0x012 => onlyIf (p.z == 0) (.sext p.s .w32 p.x p.y)
  | 0x018 => onlyIf (p.z == 0) (.zext p.s .w8 p.x p.y)
  | 0x019 => onlyIf (p.z == 0) (.zext p.s .w16 p.x p.y)
  | 0x01A => onlyIf (p.z == 0) (.zext p.s .w32 p.x p.y)
  | _ => none

/-- Major 0x0E (R126). -/
def decode0E (p : Parts) : Option Instr :=
  match p.f.toNat with
  | 0x000 => some (.adda p.s p.x p.y p.z)
  | 0x001 => some (.tagset p.s p.x p.y p.z)
  | 0x002 => onlyIf (p.z == 0) (.tagget p.s p.x p.y)
  | 0x003 => some (.suba p.s p.x p.y p.z)
  | _ => none

/-- Major 0x16 (R126). -/
def decode16 (p : Parts) : Option Instr :=
  match p.f.toNat with
  | 0x000 => onlyIf (p.x == 0 && p.z == 0) (.jr p.s p.y)
  | 0x001 => onlyIf (p.z == 0) (.callr p.s p.x p.y)
  | 0x002 => onlyIf (p.x == 0 && p.y == 0 && p.z == 0) (.nop p.s)
  | 0x003 => onlyIf (p.x == 0 && p.y == 0 && p.z == 0) (.cairn p.s)
  | 0x004 => onlyIf (p.x == 0 && p.z == 0) (.dly p.s p.y)
  | 0x005 => onlyIf (p.x == 0 && p.y == 0 && p.z == 0) (.tsync p.s)
  | _ => none

/-- Major 0x17 (R126). -/
def decode17 (p : Parts) : Option Instr :=
  match p.f.toNat with
  | 0x000 => onlyIf (p.z == 0) (.hstart p.s p.x p.y)
  | 0x001 => onlyIf (p.x == 0 && p.y == 0 && p.z == 0) (.hexit p.s)
  | 0x002 => onlyIf (p.x == 0 && p.z == 0) (.hwait p.s p.y)
  | 0x003 => onlyIf (p.x == 0 && p.y == 0 && p.z == 0) (.tdone p.s)
  | 0x004 => onlyIf (p.x == 0 && p.z == 0) (.tdec p.s p.y)
  | 0x005 => onlyIf (p.z == 0) (.tcancel p.s p.x p.y)
  | 0x006 => onlyIf (p.y == 0 && p.z == 0) (.tid p.s p.x)
  | _ => none

/-- Major 0x18: op 8:5, type 4:3, rounding 2:0 (R126, R158). -/
def decode18 (p : Parts) : Option Instr := do
  let t ← FTy.ofCode (p.f.extractLsb' 3 2)
  let r ← Rnd.ofCode (p.f.extractLsb' 0 3)
  match (p.f.extractLsb' 5 4).toNat with
  | 0x0 => some (.fadd p.s t r p.x p.y p.z)
  | 0x1 => some (.fsub p.s t r p.x p.y p.z)
  | 0x2 => some (.fmul p.s t r p.x p.y p.z)
  | 0x3 => some (.fdiv p.s t r p.x p.y p.z)
  | 0x4 => onlyIf (p.z == 0) (.fsqrt p.s t r p.x p.y)
  | 0x5 => some (.fma p.s t r p.x p.y p.z)
  | 0x6 => onlyIf (r == .mode) (.fmin p.s t p.x p.y p.z)
  | 0x7 => onlyIf (r == .mode) (.fmax p.s t p.x p.y p.z)
  | 0x8 => onlyIf (r == .mode) (.feq p.s t p.x p.y p.z)
  | 0x9 => onlyIf (r == .mode) (.flt p.s t p.x p.y p.z)
  | 0xA => onlyIf (r == .mode) (.fle p.s t p.x p.y p.z)
  | 0xB => onlyIf (p.z == 0 && r == .mode) (.fclass p.s t p.x p.y)
  | 0xC => onlyIf (p.z == 0 && r == .mode) (.fexp2 p.s t p.x p.y)
  | 0xD => onlyIf (p.z == 0 && r == .mode) (.fneg p.s t p.x p.y)
  | 0xE => onlyIf (p.z == 0 && r == .mode) (.fabs p.s t p.x p.y)
  | _ => none

/-- Major 0x19: `FCVT` (R161). -/
def decode19 (p : Parts) : Option Instr := do
  let tgt ← Fmt.ofCode (p.f.extractLsb' 5 4)
  let src ← CvtSrc.ofCode (p.f.extractLsb' 3 2)
  let r ← Rnd.ofCode (p.f.extractLsb' 0 3)
  let i := Instr.fcvt p.s tgt src r (p.z == 1) p.x p.y
  onlyIf ((p.z == 0 || p.z == 1) && i.wf) i

/-- Majors 0x20–0x24, M format (R126, R234, R237). -/
def decodeM (p : Parts) : Option Instr :=
  match p.op.toNat with
  | 0x20 => (LdTy.ofCode p.m).map fun t => .ld p.s t p.x p.y p.off
  | 0x21 => (LdTy.ofCode p.m).map fun t => .ldFresh p.s t p.x p.y p.off
  | 0x22 => (StTy.ofCode p.m).map fun t => .st p.s t p.x p.y p.off
  | 0x23 => (Scope.ofCode p.m).map fun c => .ldAcq p.s c p.x p.y p.off
  | 0x24 => (Scope.ofCode p.m).map fun c => .stRel p.s c p.x p.y p.off
  | _ => none

/-- Major 0x25 (R126, R239–R242). -/
def decode25 (p : Parts) : Option Instr :=
  match p.f.toNat with
  | 0x000 => onlyIf (p.y.extractLsb' 3 2 == 0) (.ldw p.s .z8 p.x (p.y.extractLsb' 0 3) p.z)
  | 0x001 => onlyIf (p.y.extractLsb' 3 2 == 0) (.ldw p.s .z16 p.x (p.y.extractLsb' 0 3) p.z)
  | 0x002 => onlyIf (p.y.extractLsb' 3 2 == 0) (.ldw p.s .z32 p.x (p.y.extractLsb' 0 3) p.z)
  | 0x003 => onlyIf (p.y.extractLsb' 3 2 == 0) (.ldw p.s .z64 p.x (p.y.extractLsb' 0 3) p.z)
  | 0x004 => onlyIf (p.y.extractLsb' 3 2 == 0) (.ldw p.s .s8 p.x (p.y.extractLsb' 0 3) p.z)
  | 0x005 => onlyIf (p.y.extractLsb' 3 2 == 0) (.ldw p.s .s16 p.x (p.y.extractLsb' 0 3) p.z)
  | 0x006 => onlyIf (p.y.extractLsb' 3 2 == 0) (.ldw p.s .s32 p.x (p.y.extractLsb' 0 3) p.z)
  | 0x010 => some (.ldxF32 p.s p.x p.y p.z)
  | 0x011 => some (.ldxS32 p.s p.x p.y p.z)
  | 0x012 => some (.stx p.s p.x p.y p.z)
  | 0x013 => some (.stxNsat p.s p.x p.y p.z)
  | 0x020 => onlyIf (p.x == 0) (.pref p.s p.y p.z)
  | _ => none

/-- Major 0x26 (R126). -/
def decode26 (p : Parts) : Option Instr :=
  match p.f.toNat with
  | 0x000 => onlyIf (p.x == 0 && p.z == 0) (.spresize p.s p.y)
  | 0x001 => onlyIf (p.x == 0) (.renew p.s p.y p.z)
  | 0x002 => onlyIf (p.x == 0) (.flush p.s p.y p.z)
  | 0x003 => onlyIf (p.x == 0) (.flushinv p.s p.y p.z)
  | 0x004 => onlyIf (p.x == 0) (.seqset p.s p.y p.z)
  | 0x005 => onlyIf (p.z == 0) (.seqget p.s p.x p.y)
  | 0x010 => onlyIf (p.x == 0) (.icinv p.s .core p.y p.z)
  | 0x011 => onlyIf (p.x == 0) (.icinv p.s .rope p.y p.z)
  | 0x012 => onlyIf (p.x == 0) (.icinv p.s .die p.y p.z)
  | 0x013 => onlyIf (p.x == 0) (.icinv p.s .device p.y p.z)
  | _ => none

/-- Majors 0x28 and 0x29 (R283). -/
def decodeAtom (p : Parts) : Option Instr := do
  let o ← AOp.ofCode (p.f.extractLsb' 4 5)
  let t ← ATy.ofCode (p.f.extractLsb' 0 4)
  match p.op.toNat with
  | 0x28 => let i := Instr.atom p.s o t p.x p.y p.z; onlyIf i.wf i
  | 0x29 => let i := Instr.atomnr p.s o t p.y p.z; onlyIf (p.x == 0 && i.wf) i
  | _ => none

/-- Major 0x2A (R286). -/
def decode2A (p : Parts) : Option Instr := do
  let c ← Scope.ofCode (p.f.extractLsb' 0 3)
  match (p.f.extractLsb' 3 6).toNat with
  | 0 => onlyIf (p.x == 0 && p.y == 0 && p.z == 0) (.fenceAcq p.s c)
  | 1 => onlyIf (p.x == 0 && p.y == 0 && p.z == 0) (.fenceRel p.s c)
  | 2 => onlyIf (p.x == 0 && p.y == 0 && p.z == 0) (.fenceAr p.s c)
  | _ => none

/-- Major 0x2B (R126, R289). DEDUCED: log entry 77. -/
def decode2B (p : Parts) : Option Instr :=
  match p.f.toNat with
  | 0x000 => onlyIf (p.x == 0 && p.z == 0) (.belay p.s .rope p.y)
  | 0x001 => onlyIf (p.x == 0 && p.z == 0) (.belay p.s .die p.y)
  | 0x002 => onlyIf (p.x == 0 && p.z == 0) (.belay p.s .device p.y)
  | 0x004 => onlyIf (p.z == 0) (.barr p.s .rope p.x p.y)
  | 0x005 => onlyIf (p.z == 0) (.barr p.s .die p.x p.y)
  | 0x006 => onlyIf (p.z == 0) (.barr p.s .device p.x p.y)
  | 0x008 => onlyIf (p.x == 0) (.bwait p.s .rope p.y p.z)
  | 0x009 => onlyIf (p.x == 0) (.bwait p.s .die p.y p.z)
  | 0x00A => onlyIf (p.x == 0) (.bwait p.s .device p.y p.z)
  | _ => none

/-- The scope field of major 0x2B, 0 rope to 2 device (R289); core and system have no code. -/
def belayScope (c : Scope) : BitVec 2 :=
  match c with
  | .rope => 0 | .die => 1 | .device => 2 | .core => 3 | .system => 3

/-- Major 0x2C (R126). -/
def decode2C (p : Parts) : Option Instr :=
  match p.f.toNat with
  | 0x000 => onlyIf (p.z == 0) (.wfe p.s p.x p.y)
  | 0x001 => onlyIf (p.x == 0 && p.z == 0) (.evsig p.s p.y)
  | 0x002 => onlyIf (p.x == 0) (.cwait p.s p.y p.z)
  | 0x003 => some (.cwaitb p.s p.x p.y p.z)
  | 0x004 => onlyIf (p.x == 0) (.qpush p.s p.y p.z)
  | 0x005 => onlyIf (p.z == 0) (.qpop p.s p.x p.y)
  | 0x006 => some (.qpopb p.s p.x p.y p.z)
  | _ => none

/-- Major 0x2D (R126). -/
def decode2D (p : Parts) : Option Instr :=
  match p.f.toNat with
  | 0x000 => onlyIf (p.z == 0) (.futwait p.s p.x p.y)
  | 0x001 => some (.futset p.s p.x p.y p.z)
  | 0x002 => some (.futwaitb p.s p.x p.y p.z)
  | _ => none

/-- Major 0x2E (R126). -/
def decode2E (p : Parts) : Option Instr :=
  match p.f.toNat with
  | 0x000 => some (.send p.s p.x p.y p.z)
  | 0x001 => some (.sendb p.s p.x p.y p.z)
  | 0x002 => onlyIf (p.y == 0 && p.z == 0) (.recv p.s p.x)
  | 0x003 => onlyIf (p.z == 0) (.recvb p.s p.x p.y)
  | _ => none

/-- Major 0x30, V format (R126). -/
def decode30 (p : Parts) : Option Instr :=
  match p.fn6.toNat with
  | 0x00 => some (.vadd p.s p.x p.y p.z p.p)
  | 0x01 => some (.vsub p.s p.x p.y p.z p.p)
  | 0x02 => some (.vmul p.s p.x p.y p.z p.p)
  | 0x03 => some (.vfma p.s p.x p.y p.z p.p)
  | 0x04 => some (.vdiv p.s p.x p.y p.z p.p)
  | 0x05 => onlyIf (p.z == 0) (.vsqrt p.s p.x p.y p.p)
  | 0x06 => some (.vmin p.s p.x p.y p.z p.p)
  | 0x07 => some (.vmax p.s p.x p.y p.z p.p)
  | 0x08 => onlyIf (p.z == 0) (.vexp2 p.s p.x p.y p.p)
  | 0x09 => onlyIf (p.z == 0) (.vabs p.s p.x p.y p.p)
  | 0x0A => onlyIf (p.z == 0) (.vneg p.s p.x p.y p.p)
  | _ => none

/-- Major 0x31, V format (R126). -/
def decode31 (p : Parts) : Option Instr :=
  match p.fn6.toNat with
  | 0x00 => some (.viadd p.s p.x p.y p.z p.p)
  | 0x01 => some (.visub p.s p.x p.y p.z p.p)
  | 0x02 => some (.vimul p.s p.x p.y p.z p.p)
  | 0x03 => some (.viminS32 p.s p.x p.y p.z p.p)
  | 0x04 => some (.viminZ32 p.s p.x p.y p.z p.p)
  | 0x05 => some (.vimaxS32 p.s p.x p.y p.z p.p)
  | 0x06 => some (.vimaxZ32 p.s p.x p.y p.z p.p)
  | 0x07 => some (.vand p.s p.x p.y p.z p.p)
  | 0x08 => some (.vor p.s p.x p.y p.z p.p)
  | 0x09 => some (.vxor p.s p.x p.y p.z p.p)
  | 0x0A => some (.vshl p.s p.x p.y p.z p.p)
  | 0x0B => some (.vshr p.s p.x p.y p.z p.p)
  | 0x0C => some (.vsra p.s p.x p.y p.z p.p)
  | _ => none

/-- Major 0x32, V format (R126). -/
def decode32 (p : Parts) : Option Instr :=
  match p.fn6.toNat with
  | 0x00 => onlyIf (p.x.extractLsb' 3 2 == 0) (.vfcmpEq p.s (p.x.extractLsb' 0 3) p.y p.z p.p)
  | 0x01 => onlyIf (p.x.extractLsb' 3 2 == 0) (.vfcmpLt p.s (p.x.extractLsb' 0 3) p.y p.z p.p)
  | 0x02 => onlyIf (p.x.extractLsb' 3 2 == 0) (.vfcmpLe p.s (p.x.extractLsb' 0 3) p.y p.z p.p)
  | 0x03 => onlyIf (p.x.extractLsb' 3 2 == 0) (.vicmpEq p.s (p.x.extractLsb' 0 3) p.y p.z p.p)
  | 0x04 => onlyIf (p.x.extractLsb' 3 2 == 0) (.vicmpLtS32 p.s (p.x.extractLsb' 0 3) p.y p.z p.p)
  | 0x05 => onlyIf (p.x.extractLsb' 3 2 == 0) (.vicmpLtZ32 p.s (p.x.extractLsb' 0 3) p.y p.z p.p)
  | 0x06 => some (.vsel p.s p.x p.y p.z p.p)
  | 0x07 => onlyIf (p.x.extractLsb' 3 2 == 0 && p.z == 0) (.vpset p.s (p.x.extractLsb' 0 3) p.y p.p)
  | 0x08 => onlyIf (p.y.extractLsb' 3 2 == 0 && p.z == 0) (.vpget p.s p.x (p.y.extractLsb' 0 3) p.p)
  | 0x09 => some (.vperm p.s p.x p.y p.z p.p)
  | _ => none

/-- Major 0x33: `VCVT` (R172). -/
def decode33 (p : Parts) : Option Instr := do
  let tgt ← Fmt.ofCode (p.fn6.extractLsb' 2 4)
  let src ← VSrc.ofCode (p.fn6.extractLsb' 0 2)
  let i := Instr.vcvt p.s tgt src (p.z == 1) p.x p.y p.p
  onlyIf ((p.z == 0 || p.z == 1) && i.wf) i

/-- Major 0x34, V format (R126). -/
def decode34 (p : Parts) : Option Instr :=
  match p.fn6.toNat with
  | 0x00 => onlyIf (p.z == 0) (.vradd p.s p.x p.y p.p)
  | 0x01 => onlyIf (p.z == 0) (.vrmax p.s p.x p.y p.p)
  | 0x02 => onlyIf (p.z == 0) (.vrmin p.s p.x p.y p.p)
  | 0x03 => onlyIf (p.z == 0) (.vriadd p.s p.x p.y p.p)
  | 0x04 => onlyIf (p.z == 0) (.vrimaxS32 p.s p.x p.y p.p)
  | 0x05 => onlyIf (p.z == 0) (.vrimaxZ32 p.s p.x p.y p.p)
  | 0x06 => onlyIf (p.z == 0) (.vriminS32 p.s p.x p.y p.p)
  | 0x07 => onlyIf (p.z == 0) (.vriminZ32 p.s p.x p.y p.p)
  | _ => none

/-- Major 0x35, X format (R175). -/
def decode35 (p : Parts) : Option Instr :=
  if p.f.extractLsb' 0 4 == 0 then
    match p.x.toNat with
    | 0 => some (.vld p.s p.y p.z p.xa)
    | 1 => some (.vst p.s p.y p.z p.xa)
    | 2 => some (.vldx p.s p.y p.z p.xa)
    | 3 => some (.vstx p.s p.y p.z p.xa)
    | 4 => some (.vgather p.s p.y p.z p.xa)
    | 5 => onlyIf (p.y != 31) (.vscatter p.s p.y p.z p.xa)
    | 6 => onlyIf (p.z == 0) (.vbcast p.s p.y p.xa)
    | 7 => some (.vins p.s p.y p.z p.xa)
    | 8 => some (.vext p.s p.y p.z p.xa)
    | _ => none
  else none

/-- Major 0x38, E format (R194). -/
def decode38 (p : Parts) : Option Instr := do
  let t ← Tile.ofCode (p.f.extractLsb' 4 1)
  if p.f.extractLsb' 0 4 == 0 then
    match (p.f.extractLsb' 5 4).toNat with
    | 0 => some (.mmul p.s t p.x p.y p.z)
    | 1 => some (.mmac p.s t p.x p.y p.z)
    | 2 => some (.mrun p.s t p.x p.y p.z)
    | 3 => some (.mread p.s t p.x p.y p.z)
    | 4 => onlyIf (p.x == 0 && p.y == 0) (.mzero p.s t p.z)
    | 5 => onlyIf (p.y == 0) (.mcomb p.s t p.x p.z)
    | 6 => onlyIf (p.y == 0 && t == .t0) (.mprog p.s p.x p.z)
    | 7 => some (.mload p.s t p.x p.y p.z)
    | _ => none
  else none

/-- Major 0x39 (R126). -/
def decode39 (p : Parts) : Option Instr :=
  match p.f.toNat with
  | 0x000 => onlyIf (p.x == 0 && p.y == 0 && p.z == 0) (.lease p.s)
  | 0x001 => onlyIf (p.x == 0 && p.z == 0) (.leaseb p.s p.y)
  | 0x002 => onlyIf (p.x == 0 && p.y == 0 && p.z == 0) (.leasend p.s)
  | 0x003 => onlyIf (p.y == 0 && p.z == 0) (.leaseq p.s p.x)
  | 0x004 => onlyIf (p.x == 0 && p.z == 0) (.mdim p.s p.y)
  | 0x005 => onlyIf (p.x == 0 && p.z == 0) (.mseq p.s p.y)
  | _ => none

/-- Major 0x3A, E format (R207). -/
def decode3A (p : Parts) : Option Instr := do
  let src ← LSrc.ofCode (p.f.extractLsb' 3 2)
  if p.f.extractLsb' 0 3 == 0 then
    match (p.f.extractLsb' 5 4).toNat with
    | 0 => onlyIf (p.y == 0 && src == .t0) (.lcfg p.s p.x p.z)
    | 1 => onlyIf (p.y == 0 && src == .t0) (.lwgt p.s p.x p.z)
    | 2 => onlyIf (p.y == 0 && (src == .scr || p.x == 0)) (.lstep p.s src p.x p.z)
    | 3 => onlyIf (p.y == 0 && src == .t0) (.lread p.s p.x p.z)
    | 4 => onlyIf (src == .t0) (.lrung p.s p.x p.y p.z)
    | 5 => onlyIf (p.x == 0 && p.y == 0 && src == .t0) (.lclr p.s p.z)
    | _ => none
  else none

/-- Major 0x3B, E format (R248). -/
def decode3B (p : Parts) : Option Instr :=
  match p.f.toNat with
  | 0 => some (.copy p.s p.x p.y p.z)
  | 1 => some (.copyApnd p.s p.x p.y p.z)
  | 2 => some (.copyl p.s p.x p.y p.z)
  | 3 => some (.copyz p.s p.x p.y p.z)
  | 4 => some (.cbump p.s p.x p.y p.z)
  | _ => none

/-- Major 0x3C (R126). -/
def decode3C (p : Parts) : Option Instr :=
  match p.f.toNat with
  | 0x000 => onlyIf (p.z == 0) (.lroot p.s p.x p.y)
  | 0x001 => some (.fork p.s p.x p.y p.z)
  | 0x002 => onlyIf (p.z == 0) (.flatten p.s p.x p.y)
  | 0x003 => some (.rebase p.s p.x p.y p.z)
  | 0x004 => onlyIf (p.x == 0 && p.z == 0) (.ldrop p.s p.y)
  | 0x005 => some (.linfo p.s p.x p.y p.z)
  | 0x006 => some (.ldl p.s p.x p.y p.z)
  | 0x010 => onlyIf (p.x == 0 && p.z == 0) (.vclaim p.s p.y)
  | 0x011 => some (.apnd p.s p.x p.y p.z)
  | 0x012 => onlyIf (p.x == 0) (.tailset p.s p.y p.z)
  | 0x013 => onlyIf (p.x == 0 && p.z == 0) (.seal p.s p.y)
  | 0x014 => onlyIf (p.x == 0 && p.z == 0) (.vfree p.s p.y)
  | 0x015 => onlyIf (p.z == 0) (.vtail p.s p.x p.y)
  | _ => none

/-- Major 0x3D (R126). -/
def decode3D (p : Parts) : Option Instr :=
  match p.f.toNat with
  | 0x000 => onlyIf (p.x == 0 && p.z == 0) (.fput p.s p.y)
  | 0x001 => onlyIf (p.x == 0 && p.z == 0) (.fget p.s p.y)
  | 0x002 => onlyIf (p.x == 0 && p.z == 0) (.fmcast p.s p.y)
  | 0x003 => onlyIf (p.x == 0 && p.y == 0 && p.z == 0) (.fsync p.s)
  | 0x010 => onlyIf (p.x == 0) (.fred p.s .addS32 p.y p.z)
  | 0x011 => onlyIf (p.x == 0) (.fred p.s .addF32 p.y p.z)
  | 0x012 => onlyIf (p.x == 0) (.fred p.s .minS32 p.y p.z)
  | 0x013 => onlyIf (p.x == 0) (.fred p.s .maxS32 p.y p.z)
  | 0x014 => onlyIf (p.x == 0) (.fred p.s .minF32 p.y p.z)
  | 0x015 => onlyIf (p.x == 0) (.fred p.s .maxF32 p.y p.z)
  | 0x016 => onlyIf (p.x == 0) (.fred p.s .rsc p.y p.z)
  | _ => none

/-- Major 0x3E, X format: op 23:20, argument 19:14 (R126, R328–R331). -/
def decode3E (p : Parts) : Option Instr :=
  if p.f.extractLsb' 0 4 == 0 then
    match (p.x.extractLsb' 1 4).toNat with
    | 0 => (CReg.ofCode p.arg).bind fun r => onlyIf (p.xa == 0) (.crd p.s r p.z)
    | 1 => (CReg.ofCode p.arg).bind fun r => onlyIf (p.z == 0) (.cwr p.s r p.xa)
    | 2 => (CReg.ofCode p.arg).bind fun r => onlyIf (p.z == 0) (.cset p.s r p.xa)
    | 3 => (CReg.ofCode p.arg).bind fun r => onlyIf (p.z == 0) (.cclr p.s r p.xa)
    | 4 => onlyIf (p.z == 0 && p.xa == 0) (.trap p.s p.arg)
    | 5 => onlyIf (p.arg == 0 && p.z == 0 && p.xa == 0) (.eret p.s)
    | 6 => onlyIf (p.arg == 0 && p.z == 0) (.ctxsv p.s p.xa)
    | 7 => onlyIf (p.arg == 0 && p.z == 0) (.ctxld p.s p.xa)
    | 8 => onlyIf (p.arg == 0 && p.z == 0 && p.xa == 0) (.bxch p.s)
    | 9 => onlyIf (p.arg == 0 && p.z == 0 && p.xa == 0) (.cresume p.s)
    | _ => none
  else none

/-- The instruction of given fields; none where R118 says the word is no instruction. -/
def decodeParts (p : Parts) : Option Instr :=
  match p.op.toNat with
  | 0x00 => decode00 p
  | 0x01 => decode01 p
  | 0x02 => decode02 p
  | 0x03 => some (.addi p.s p.x p.y p.imm14)
  | 0x04 => some (.andi p.s p.x p.y p.imm14)
  | 0x05 => some (.ori p.s p.x p.y p.imm14)
  | 0x06 => some (.xori p.s p.x p.y p.imm14)
  | 0x07 => some (.slti p.s p.x p.y p.imm14)
  | 0x08 => onlyIf (p.imm14.extractLsb' 6 8 == 0) (.shli p.s p.x p.y (p.imm14.extractLsb' 0 6))
  | 0x09 => onlyIf (p.imm14.extractLsb' 6 8 == 0) (.shri p.s p.x p.y (p.imm14.extractLsb' 0 6))
  | 0x0A => onlyIf (p.imm14.extractLsb' 6 8 == 0) (.srai p.s p.x p.y (p.imm14.extractLsb' 0 6))
  | 0x0B => some (.lui p.s p.x p.imm19)
  | 0x0C => some (.lcat p.s p.x p.imm19)
  | 0x0D => some (.lpc p.s p.x p.imm19)
  | 0x0E => decode0E p
  | 0x0F => some (.addai p.s p.x p.y p.imm14)
  | 0x10 => some (.beq p.s p.x p.y p.imm14)
  | 0x11 => some (.bne p.s p.x p.y p.imm14)
  | 0x12 => some (.blt p.s p.x p.y p.imm14)
  | 0x13 => some (.bge p.s p.x p.y p.imm14)
  | 0x14 => some (.jmp p.s p.disp24)
  | 0x15 => some (.call p.s p.disp24)
  | 0x16 => decode16 p
  | 0x17 => decode17 p
  | 0x18 => decode18 p
  | 0x19 => decode19 p
  | 0x20 => decodeM p
  | 0x21 => decodeM p
  | 0x22 => decodeM p
  | 0x23 => decodeM p
  | 0x24 => decodeM p
  | 0x25 => decode25 p
  | 0x26 => decode26 p
  | 0x28 => decodeAtom p
  | 0x29 => decodeAtom p
  | 0x2A => decode2A p
  | 0x2B => decode2B p
  | 0x2C => decode2C p
  | 0x2D => decode2D p
  | 0x2E => decode2E p
  | 0x30 => decode30 p
  | 0x31 => decode31 p
  | 0x32 => decode32 p
  | 0x33 => decode33 p
  | 0x34 => decode34 p
  | 0x35 => decode35 p
  | 0x38 => decode38 p
  | 0x39 => decode39 p
  | 0x3A => decode3A p
  | 0x3B => decode3B p
  | 0x3C => decode3C p
  | 0x3D => decode3D p
  | 0x3E => decode3E p
  | _ => none

/-- The instruction of a word, or none (R118). -/
def decode (w : W32) : Option Instr := decodeParts (unpack w)

/-- The fields of an instruction (R110, R126); none for a step of the device, which has no word. -/
def encodeParts : Instr → Option Parts
  | .add s d a b => some (⟨s, 0x00, d, a, b, 0x001⟩)
  | .sub s d a b => some (⟨s, 0x00, d, a, b, 0x002⟩)
  | .mul s d a b => some (⟨s, 0x00, d, a, b, 0x003⟩)
  | .mulh s t d a b => some (⟨s, 0x00, d, a, b, t.code ++ (0x04 : BitVec 8)⟩)
  | .div s t d a b => some (⟨s, 0x00, d, a, b, t.code ++ (0x05 : BitVec 8)⟩)
  | .rem s t d a b => some (⟨s, 0x00, d, a, b, t.code ++ (0x06 : BitVec 8)⟩)
  | .min s t d a b => some (⟨s, 0x00, d, a, b, t.code ++ (0x07 : BitVec 8)⟩)
  | .max s t d a b => some (⟨s, 0x00, d, a, b, t.code ++ (0x08 : BitVec 8)⟩)
  | .and s d a b => some (⟨s, 0x01, d, a, b, 0x000⟩)
  | .or s d a b => some (⟨s, 0x01, d, a, b, 0x001⟩)
  | .xor s d a b => some (⟨s, 0x01, d, a, b, 0x002⟩)
  | .andn s d a b => some (⟨s, 0x01, d, a, b, 0x003⟩)
  | .shl s d a b => some (⟨s, 0x01, d, a, b, 0x004⟩)
  | .shr s d a b => some (⟨s, 0x01, d, a, b, 0x005⟩)
  | .sra s d a b => some (⟨s, 0x01, d, a, b, 0x006⟩)
  | .rotr s d a b => some (⟨s, 0x01, d, a, b, 0x007⟩)
  | .clz s d a => some (⟨s, 0x01, d, a, 0, 0x008⟩)
  | .ctz s d a => some (⟨s, 0x01, d, a, 0, 0x009⟩)
  | .popc s d a => some (⟨s, 0x01, d, a, 0, 0x00A⟩)
  | .slt s t d a b => some (⟨s, 0x02, d, a, b, t.code ++ (0x00 : BitVec 8)⟩)
  | .seq s d a b => some (⟨s, 0x02, d, a, b, 0x001⟩)
  | .sne s d a b => some (⟨s, 0x02, d, a, b, 0x002⟩)
  | .sext s w d a => some (⟨s, 0x02, d, a, 0, (0x04 : BitVec 7) ++ w.code⟩)
  | .zext s w d a => some (⟨s, 0x02, d, a, 0, (0x06 : BitVec 7) ++ w.code⟩)
  | .addi s d a i => some (mkI s 0x03 d a i)
  | .andi s d a i => some (mkI s 0x04 d a i)
  | .ori s d a i => some (mkI s 0x05 d a i)
  | .xori s d a i => some (mkI s 0x06 d a i)
  | .slti s d a i => some (mkI s 0x07 d a i)
  | .shli s d a i => some (mkI s 0x08 d a ((0 : BitVec 8) ++ i))
  | .shri s d a i => some (mkI s 0x09 d a ((0 : BitVec 8) ++ i))
  | .srai s d a i => some (mkI s 0x0A d a ((0 : BitVec 8) ++ i))
  | .lui s d i => some (mkU s 0x0B d i)
  | .lcat s d i => some (mkU s 0x0C d i)
  | .lpc s d i => some (mkU s 0x0D d i)
  | .adda s d a b => some (⟨s, 0x0E, d, a, b, 0x000⟩)
  | .tagset s d a b => some (⟨s, 0x0E, d, a, b, 0x001⟩)
  | .tagget s d a => some (⟨s, 0x0E, d, a, 0, 0x002⟩)
  | .suba s d a b => some (⟨s, 0x0E, d, a, b, 0x003⟩)
  | .addai s d a i => some (mkI s 0x0F d a i)
  | .beq s a b i => some (mkI s 0x10 a b i)
  | .bne s a b i => some (mkI s 0x11 a b i)
  | .blt s a b i => some (mkI s 0x12 a b i)
  | .bge s a b i => some (mkI s 0x13 a b i)
  | .jmp s i => some (mkJ s 0x14 i)
  | .call s i => some (mkJ s 0x15 i)
  | .jr s a => some (⟨s, 0x16, 0, a, 0, 0x000⟩)
  | .callr s d a => some (⟨s, 0x16, d, a, 0, 0x001⟩)
  | .nop s => some (⟨s, 0x16, 0, 0, 0, 0x002⟩)
  | .cairn s => some (⟨s, 0x16, 0, 0, 0, 0x003⟩)
  | .dly s a => some (⟨s, 0x16, 0, a, 0, 0x004⟩)
  | .tsync s => some (⟨s, 0x16, 0, 0, 0, 0x005⟩)
  | .hstart s d a => some (⟨s, 0x17, d, a, 0, 0x000⟩)
  | .hexit s => some (⟨s, 0x17, 0, 0, 0, 0x001⟩)
  | .hwait s a => some (⟨s, 0x17, 0, a, 0, 0x002⟩)
  | .tdone s => some (⟨s, 0x17, 0, 0, 0, 0x003⟩)
  | .tdec s a => some (⟨s, 0x17, 0, a, 0, 0x004⟩)
  | .tcancel s d a => some (⟨s, 0x17, d, a, 0, 0x005⟩)
  | .tid s d => some (⟨s, 0x17, d, 0, 0, 0x006⟩)
  | .fadd s t r d a b => some (⟨s, 0x18, d, a, b, (0x0 : BitVec 4) ++ t.code ++ r.code⟩)
  | .fsub s t r d a b => some (⟨s, 0x18, d, a, b, (0x1 : BitVec 4) ++ t.code ++ r.code⟩)
  | .fmul s t r d a b => some (⟨s, 0x18, d, a, b, (0x2 : BitVec 4) ++ t.code ++ r.code⟩)
  | .fdiv s t r d a b => some (⟨s, 0x18, d, a, b, (0x3 : BitVec 4) ++ t.code ++ r.code⟩)
  | .fsqrt s t r d a => some (⟨s, 0x18, d, a, 0, (0x4 : BitVec 4) ++ t.code ++ r.code⟩)
  | .fma s t r d a b => some (⟨s, 0x18, d, a, b, (0x5 : BitVec 4) ++ t.code ++ r.code⟩)
  | .fmin s t d a b => some (⟨s, 0x18, d, a, b, (0x6 : BitVec 4) ++ t.code ++ (0 : BitVec 3)⟩)
  | .fmax s t d a b => some (⟨s, 0x18, d, a, b, (0x7 : BitVec 4) ++ t.code ++ (0 : BitVec 3)⟩)
  | .feq s t d a b => some (⟨s, 0x18, d, a, b, (0x8 : BitVec 4) ++ t.code ++ (0 : BitVec 3)⟩)
  | .flt s t d a b => some (⟨s, 0x18, d, a, b, (0x9 : BitVec 4) ++ t.code ++ (0 : BitVec 3)⟩)
  | .fle s t d a b => some (⟨s, 0x18, d, a, b, (0xA : BitVec 4) ++ t.code ++ (0 : BitVec 3)⟩)
  | .fclass s t d a => some (⟨s, 0x18, d, a, 0, (0xB : BitVec 4) ++ t.code ++ (0 : BitVec 3)⟩)
  | .fexp2 s t d a => some (⟨s, 0x18, d, a, 0, (0xC : BitVec 4) ++ t.code ++ (0 : BitVec 3)⟩)
  | .fneg s t d a => some (⟨s, 0x18, d, a, 0, (0xD : BitVec 4) ++ t.code ++ (0 : BitVec 3)⟩)
  | .fabs s t d a => some (⟨s, 0x18, d, a, 0, (0xE : BitVec 4) ++ t.code ++ (0 : BitVec 3)⟩)
  | .fcvt s tgt src r n d a => some (⟨s, 0x19, d, a, if n then 1 else 0, tgt.code ++ src.code ++ r.code⟩)
  | .ld s t d b off => some (mkM s 0x20 d b t.code off)
  | .ldFresh s t d b off => some (mkM s 0x21 d b t.code off)
  | .st s t d b off => some (mkM s 0x22 d b t.code off)
  | .ldAcq s t d b off => some (mkM s 0x23 d b t.code off)
  | .stRel s t d b off => some (mkM s 0x24 d b t.code off)
  | .ldw s t d w b => some (⟨s, 0x25, d, (0 : BitVec 2) ++ w, b, (0 : BitVec 6) ++ t.code⟩)
  | .ldxF32 s d a b => some (⟨s, 0x25, d, a, b, 0x010⟩)
  | .ldxS32 s d a b => some (⟨s, 0x25, d, a, b, 0x011⟩)
  | .stx s d a b => some (⟨s, 0x25, d, a, b, 0x012⟩)
  | .stxNsat s d a b => some (⟨s, 0x25, d, a, b, 0x013⟩)
  | .pref s a b => some (⟨s, 0x25, 0, a, b, 0x020⟩)
  | .spresize s a => some (⟨s, 0x26, 0, a, 0, 0x000⟩)
  | .renew s a b => some (⟨s, 0x26, 0, a, b, 0x001⟩)
  | .flush s a b => some (⟨s, 0x26, 0, a, b, 0x002⟩)
  | .flushinv s a b => some (⟨s, 0x26, 0, a, b, 0x003⟩)
  | .seqset s a b => some (⟨s, 0x26, 0, a, b, 0x004⟩)
  | .seqget s d a => some (⟨s, 0x26, d, a, 0, 0x005⟩)
  | .icinv s c a b => some (⟨s, 0x26, 0, a, b, (2 : BitVec 6) ++ c.code⟩)
  | .atom s o t d a b => some (⟨s, 0x28, d, a, b, o.code ++ t.code⟩)
  | .atomnr s o t a b => some (⟨s, 0x29, 0, a, b, o.code ++ t.code⟩)
  | .fenceAcq s c => some (⟨s, 0x2A, 0, 0, 0, (0 : BitVec 6) ++ c.code⟩)
  | .fenceRel s c => some (⟨s, 0x2A, 0, 0, 0, (1 : BitVec 6) ++ c.code⟩)
  | .fenceAr s c => some (⟨s, 0x2A, 0, 0, 0, (2 : BitVec 6) ++ c.code⟩)
  | .belay s c a => some (⟨s, 0x2B, 0, a, 0, (0 : BitVec 7) ++ belayScope c⟩)
  | .barr s c d a => some (⟨s, 0x2B, d, a, 0, (1 : BitVec 7) ++ belayScope c⟩)
  | .bwait s c a b => some (⟨s, 0x2B, 0, a, b, (2 : BitVec 7) ++ belayScope c⟩)
  | .wfe s d a => some (⟨s, 0x2C, d, a, 0, 0x000⟩)
  | .evsig s a => some (⟨s, 0x2C, 0, a, 0, 0x001⟩)
  | .cwait s a b => some (⟨s, 0x2C, 0, a, b, 0x002⟩)
  | .cwaitb s d a b => some (⟨s, 0x2C, d, a, b, 0x003⟩)
  | .qpush s a b => some (⟨s, 0x2C, 0, a, b, 0x004⟩)
  | .qpop s d a => some (⟨s, 0x2C, d, a, 0, 0x005⟩)
  | .qpopb s d a b => some (⟨s, 0x2C, d, a, b, 0x006⟩)
  | .futwait s d a => some (⟨s, 0x2D, d, a, 0, 0x000⟩)
  | .futset s d a b => some (⟨s, 0x2D, d, a, b, 0x001⟩)
  | .futwaitb s d a b => some (⟨s, 0x2D, d, a, b, 0x002⟩)
  | .send s d a b => some (⟨s, 0x2E, d, a, b, 0x000⟩)
  | .sendb s d a b => some (⟨s, 0x2E, d, a, b, 0x001⟩)
  | .recv s d => some (⟨s, 0x2E, d, 0, 0, 0x002⟩)
  | .recvb s d a => some (⟨s, 0x2E, d, a, 0, 0x003⟩)
  | .vadd s d a b p => some (mkV s 0x30 d a b p 0x00)
  | .vsub s d a b p => some (mkV s 0x30 d a b p 0x01)
  | .vmul s d a b p => some (mkV s 0x30 d a b p 0x02)
  | .vfma s d a b p => some (mkV s 0x30 d a b p 0x03)
  | .vdiv s d a b p => some (mkV s 0x30 d a b p 0x04)
  | .vsqrt s d a p => some (mkV s 0x30 d a 0 p 0x05)
  | .vmin s d a b p => some (mkV s 0x30 d a b p 0x06)
  | .vmax s d a b p => some (mkV s 0x30 d a b p 0x07)
  | .vexp2 s d a p => some (mkV s 0x30 d a 0 p 0x08)
  | .vabs s d a p => some (mkV s 0x30 d a 0 p 0x09)
  | .vneg s d a p => some (mkV s 0x30 d a 0 p 0x0A)
  | .viadd s d a b p => some (mkV s 0x31 d a b p 0x00)
  | .visub s d a b p => some (mkV s 0x31 d a b p 0x01)
  | .vimul s d a b p => some (mkV s 0x31 d a b p 0x02)
  | .viminS32 s d a b p => some (mkV s 0x31 d a b p 0x03)
  | .viminZ32 s d a b p => some (mkV s 0x31 d a b p 0x04)
  | .vimaxS32 s d a b p => some (mkV s 0x31 d a b p 0x05)
  | .vimaxZ32 s d a b p => some (mkV s 0x31 d a b p 0x06)
  | .vand s d a b p => some (mkV s 0x31 d a b p 0x07)
  | .vor s d a b p => some (mkV s 0x31 d a b p 0x08)
  | .vxor s d a b p => some (mkV s 0x31 d a b p 0x09)
  | .vshl s d a b p => some (mkV s 0x31 d a b p 0x0A)
  | .vshr s d a b p => some (mkV s 0x31 d a b p 0x0B)
  | .vsra s d a b p => some (mkV s 0x31 d a b p 0x0C)
  | .vfcmpEq s d a b p => some (mkV s 0x32 ((0 : BitVec 2) ++ d) a b p 0x00)
  | .vfcmpLt s d a b p => some (mkV s 0x32 ((0 : BitVec 2) ++ d) a b p 0x01)
  | .vfcmpLe s d a b p => some (mkV s 0x32 ((0 : BitVec 2) ++ d) a b p 0x02)
  | .vicmpEq s d a b p => some (mkV s 0x32 ((0 : BitVec 2) ++ d) a b p 0x03)
  | .vicmpLtS32 s d a b p => some (mkV s 0x32 ((0 : BitVec 2) ++ d) a b p 0x04)
  | .vicmpLtZ32 s d a b p => some (mkV s 0x32 ((0 : BitVec 2) ++ d) a b p 0x05)
  | .vsel s d a b p => some (mkV s 0x32 d a b p 0x06)
  | .vpset s d a p => some (mkV s 0x32 ((0 : BitVec 2) ++ d) a 0 p 0x07)
  | .vpget s d a p => some (mkV s 0x32 d ((0 : BitVec 2) ++ a) 0 p 0x08)
  | .vperm s d a b p => some (mkV s 0x32 d a b p 0x09)
  | .vcvt s tgt src n d a p => some (mkV s 0x33 d a (if n then 1 else 0) p (tgt.code ++ src.code))
  | .vradd s d a p => some (mkV s 0x34 d a 0 p 0x00)
  | .vrmax s d a p => some (mkV s 0x34 d a 0 p 0x01)
  | .vrmin s d a p => some (mkV s 0x34 d a 0 p 0x02)
  | .vriadd s d a p => some (mkV s 0x34 d a 0 p 0x03)
  | .vrimaxS32 s d a p => some (mkV s 0x34 d a 0 p 0x04)
  | .vrimaxZ32 s d a p => some (mkV s 0x34 d a 0 p 0x05)
  | .vriminS32 s d a p => some (mkV s 0x34 d a 0 p 0x06)
  | .vriminZ32 s d a p => some (mkV s 0x34 d a 0 p 0x07)
  | .vld s v d a => some (mkX s 0x35 0 v d a)
  | .vst s v d a => some (mkX s 0x35 1 v d a)
  | .vldx s v d a => some (mkX s 0x35 2 v d a)
  | .vstx s v d a => some (mkX s 0x35 3 v d a)
  | .vgather s v d a => some (mkX s 0x35 4 v d a)
  | .vscatter s v d a => some (mkX s 0x35 5 v d a)
  | .vbcast s v a => some (mkX s 0x35 6 v 0 a)
  | .vins s v d a => some (mkX s 0x35 7 v d a)
  | .vext s v d a => some (mkX s 0x35 8 v d a)
  | .mmul s t a b c => some (⟨s, 0x38, a, b, c, (0 : BitVec 4) ++ t.code ++ (0 : BitVec 4)⟩)
  | .mmac s t a b c => some (⟨s, 0x38, a, b, c, (1 : BitVec 4) ++ t.code ++ (0 : BitVec 4)⟩)
  | .mrun s t a b c => some (⟨s, 0x38, a, b, c, (2 : BitVec 4) ++ t.code ++ (0 : BitVec 4)⟩)
  | .mread s t a b c => some (⟨s, 0x38, a, b, c, (3 : BitVec 4) ++ t.code ++ (0 : BitVec 4)⟩)
  | .mzero s t c => some (⟨s, 0x38, 0, 0, c, (4 : BitVec 4) ++ t.code ++ (0 : BitVec 4)⟩)
  | .mcomb s t a c => some (⟨s, 0x38, a, 0, c, (5 : BitVec 4) ++ t.code ++ (0 : BitVec 4)⟩)
  | .mprog s a c => some (⟨s, 0x38, a, 0, c, 0x0C0⟩)
  | .mload s t a b c => some (⟨s, 0x38, a, b, c, (7 : BitVec 4) ++ t.code ++ (0 : BitVec 4)⟩)
  | .lease s => some (⟨s, 0x39, 0, 0, 0, 0x000⟩)
  | .leaseb s a => some (⟨s, 0x39, 0, a, 0, 0x001⟩)
  | .leasend s => some (⟨s, 0x39, 0, 0, 0, 0x002⟩)
  | .leaseq s d => some (⟨s, 0x39, d, 0, 0, 0x003⟩)
  | .mdim s a => some (⟨s, 0x39, 0, a, 0, 0x004⟩)
  | .mseq s a => some (⟨s, 0x39, 0, a, 0, 0x005⟩)
  | .lcfg s a c => some (⟨s, 0x3A, a, 0, c, 0x000⟩)
  | .lwgt s a c => some (⟨s, 0x3A, a, 0, c, 0x020⟩)
  | .lstep s src a c => some (⟨s, 0x3A, a, 0, c, (2 : BitVec 4) ++ src.code ++ (0 : BitVec 3)⟩)
  | .lread s a c => some (⟨s, 0x3A, a, 0, c, 0x060⟩)
  | .lrung s a b c => some (⟨s, 0x3A, a, b, c, 0x080⟩)
  | .lclr s c => some (⟨s, 0x3A, 0, 0, c, 0x0A0⟩)
  | .copy s a b c => some (⟨s, 0x3B, a, b, c, 0⟩)
  | .copyApnd s a b c => some (⟨s, 0x3B, a, b, c, 1⟩)
  | .copyl s a b c => some (⟨s, 0x3B, a, b, c, 2⟩)
  | .copyz s a b c => some (⟨s, 0x3B, a, b, c, 3⟩)
  | .cbump s a b c => some (⟨s, 0x3B, a, b, c, 4⟩)
  | .lroot s d a => some (⟨s, 0x3C, d, a, 0, 0x000⟩)
  | .fork s d a b => some (⟨s, 0x3C, d, a, b, 0x001⟩)
  | .flatten s d a => some (⟨s, 0x3C, d, a, 0, 0x002⟩)
  | .rebase s d a b => some (⟨s, 0x3C, d, a, b, 0x003⟩)
  | .ldrop s a => some (⟨s, 0x3C, 0, a, 0, 0x004⟩)
  | .linfo s d a b => some (⟨s, 0x3C, d, a, b, 0x005⟩)
  | .ldl s d a b => some (⟨s, 0x3C, d, a, b, 0x006⟩)
  | .vclaim s a => some (⟨s, 0x3C, 0, a, 0, 0x010⟩)
  | .apnd s d a b => some (⟨s, 0x3C, d, a, b, 0x011⟩)
  | .tailset s a b => some (⟨s, 0x3C, 0, a, b, 0x012⟩)
  | .seal s a => some (⟨s, 0x3C, 0, a, 0, 0x013⟩)
  | .vfree s a => some (⟨s, 0x3C, 0, a, 0, 0x014⟩)
  | .vtail s d a => some (⟨s, 0x3C, d, a, 0, 0x015⟩)
  | .fput s a => some (⟨s, 0x3D, 0, a, 0, 0x000⟩)
  | .fget s a => some (⟨s, 0x3D, 0, a, 0, 0x001⟩)
  | .fmcast s a => some (⟨s, 0x3D, 0, a, 0, 0x002⟩)
  | .fsync s => some (⟨s, 0x3D, 0, 0, 0, 0x003⟩)
  | .fred s o a b => some (⟨s, 0x3D, 0, a, b, (2 : BitVec 6) ++ o.code⟩)
  | .crd s r d => some (mkS s 0 r.code d 0)
  | .cwr s r a => some (mkS s 1 r.code 0 a)
  | .cset s r a => some (mkS s 2 r.code 0 a)
  | .cclr s r a => some (mkS s 3 r.code 0 a)
  | .trap s n => some (mkS s 4 n 0 0)
  | .eret s => some (mkS s 5 0 0 0)
  | .ctxsv s a => some (mkS s 6 0 0 a)
  | .ctxld s a => some (mkS s 7 0 0 a)
  | .bxch s => some (mkS s 8 0 0 0)
  | .cresume s => some (mkS s 9 0 0 0)
  | .hostRegisterWrite _ _ _ => none
  | .qtailWrite _ _ => none
  | .queueEnable _ _ => none
  | .queueClear _ => none
  | .submitRecord _ => none
  | .cancelRecord _ => none
  | .markerRecord _ => none
  | .recordSettle _ => none
  | .curatorBind _ _ _ _ _ => none
  | .dispatchBind _ _ => none
  | .dispatchStart _ _ => none
  | .dispatchSelect _ => none
  | .preemptTake _ => none
  | .handlerEntry _ _ _ => none
  | .taskFailure _ => none
  | .impreciseFaultTaken _ _ => none
  | .ageInterval => none
  | .tick => none
  | .watchdogExpiry _ _ => none
  | .granuleCheckerVisit _ _ => none
  | .cacheLineSweep _ _ _ => none
  | .cacheLineExpire _ _ _ => none
  | .fifoEntrySpill _ _ => none
  | .leaseGrant _ => none
  | .leaseRunEnd _ _ => none
  | .engineCommandStart _ _ => none
  | .retryResume _ _ => none
  | .engineCommandComplete _ _ => none
  | .copyComplete _ _ => none
  | .boundedWaitExpiry _ _ _ => none
  | .wfeTimeout _ _ _ => none
  | .loadAnswered _ => none
  | .storePerformed _ => none
  | .atomicPerformed _ => none
  | .predsDecrement _ _ _ => none
  | .pageReclassify _ _ => none
  | .pageFaultAnswer _ _ _ _ => none
  | .pageFaultDenial _ => none
  | .xlatInvalidatePage _ => none
  | .xlatInvalidateAll _ => none
  | .xlatInvalidateComplete => none
  | .migrationRequest => none
  | .heatHalve => none
  | .heatArrayWrite _ => none
  | .rlctlGo => none
  | .retirementListLoad => none
  | .memoryEccError _ _ => none
  | .uncorrectableError _ => none
  | .vitrineDataWritten _ _ _ => none
  | .recallAck _ _ _ => none
  | .ropeNetStoreArrival _ _ _ => none
  | .seqsetTagWrite _ _ _ _ => none
  | .queueEntryArrival _ _ _ _ => none
  | .messageDelivery _ _ _ _ _ _ _ => none
  | .eventSignalArrival _ _ => none
  | .belayArrival _ _ _ _ => none
  | .belayRelease _ => none
  | .fabricLanding _ _ _ => none
  | .fabricTransferComplete _ => none
  | .reductionPartialArrival _ _ _ _ _ _ _ => none
  | .reductionOutcomeArrival _ _ _ _ => none
  | .remoteAccessTimeout _ => none
  | .fabricLinkChange _ _ _ => none
  | .reclamationEntryWrite _ _ _ _ _ => none
  | .crtailWrite _ => none
  | .thermalLevelStep _ => none
  | .coreOvertempHalt _ => none
  | .telemUpdate _ _ => none
  | .fwGo => none
  | .fwVerifyComplete _ _ => none
  | .attestGo => none
  | .attestReportComplete => none
  | .hostLinkTraining _ => none
  | .packageReset => none
  | .functionLevelReset _ => none
  | .flrComplete _ => none
  | .bivouacSpill _ => none
  | .spillLoadBack _ _ => none
  | .haltedFaultRecovery _ => none
  | .icinvComplete _ _ => none
  | .flushWalkComplete _ _ => none
  | .illegalInstruction _ => none
  | .instructionFetch _ _ => none
  | .curatorCancel _ _ => none

/-- The word of an instruction; none for a step of the device. -/
def encode (i : Instr) : Option W32 := (encodeParts i).map pack

/-- The host's decoder query: `w` is the word as spec/opcode_table.json numbers its bits. Rows without a word
have 0 bits there and decode to nothing. -/
def decodeTableWord (nbits w : Nat) : Option Instr :=
  if nbits = 32 then decode (BitVec.ofNat 32 w) else none

end Sys2Proof
end

