-- ==== Sys2Proof/Machine/Flags.lean ====
section
/-! DEFINITION. Number formats, exact arithmetic, rounding, conversion and the floating-point flags
(spec/02 R30–R50; spec/08 R158–R161). A finite value is held exactly as `m · 2^e`; a quotient, a root or a power
that is not exact carries one further low bit that is 1 when the exact value lies strictly above the bits kept,
so that rounding sees on which side of every rounding boundary the exact value lies. -/

namespace Sys2Proof

/-- The five flags in the order of RMODE bits 12:8 (R43): invalid, divide-by-zero, overflow, underflow, inexact. -/
abbrev FFlags := BitVec 5
def flagNV : FFlags := 16
def flagDZ : FFlags := 8
def flagOF : FFlags := 4
def flagUF : FFlags := 2
def flagNX : FFlags := 1

/-- The rounding directions of RMODE.MODE (R43). -/
inductive RM | rne | rtz | rdn | rup
  deriving DecidableEq, Repr

/-- RMODE bits 1:0 as a direction (R43). -/
def RM.ofMode (m : BitVec 2) : RM :=
  if m = 0 then .rne else if m = 1 then .rtz else if m = 2 then .rdn else .rup

/-- The direction of a rounding field, given the context's MODE (R44). -/
def Rnd.rm (r : Rnd) (mode : RM) : RM :=
  match r with
  | .mode => mode | .rne => .rne | .rtz => .rtz | .rdn => .rdn | .rup => .rup

/-- A decoded value: a NaN (signalling or quiet), an infinity, a signed zero, or `m · 2^e` with `m ≠ 0`. -/
inductive FVal
  | nan (signalling : Bool)
  | inf (neg : Bool)
  | zero (neg : Bool)
  | fin (m : Int) (e : Int)
  deriving DecidableEq, Repr

/-- The value `m · 2^e`, `+0` where `m = 0`. -/
def FVal.ofInt (m e : Int) : FVal := if m = 0 then .zero false else .fin m e
def FVal.isNan : FVal → Bool
  | .nan _ => true
  | .inf _ | .zero _ | .fin _ _ => false
def FVal.isSNan : FVal → Bool
  | .nan s => s
  | .inf _ | .zero _ | .fin _ _ => false
def FVal.isInf : FVal → Bool
  | .inf _ => true
  | .nan _ | .zero _ | .fin _ _ => false
/-- The sign of a value; false for a NaN. -/
def FVal.neg : FVal → Bool
  | .nan _ => false | .inf n => n | .zero n => n | .fin m _ => m < 0
/-- Invalid when a signalling NaN is read (R33, R158). -/
def FVal.nvIfS (x : FVal) : FFlags := if x.isSNan then flagNV else 0

/-! ### Floating-point formats (R32) -/

/-- Fraction width, bias and the greatest finite code of a floating-point format; `hasInf` when E all ones with
M = 0 is an infinity. -/
structure FloatFmt where
  mbits  : Nat
  ebits  : Nat
  bias   : Int
  maxCode : Nat
  hasInf : Bool
  nanCode : Nat
  deriving DecidableEq, Repr

def fp32 : FloatFmt := ⟨23, 8, 127, 0x7F7FFFFF, true, 0x7FC00000⟩
def bf16 : FloatFmt := ⟨7, 8, 127, 0x7F7F, true, 0x7FC0⟩
def fp16 : FloatFmt := ⟨10, 5, 15, 0x7BFF, true, 0x7E00⟩
def e4m3 : FloatFmt := ⟨3, 4, 7, 0x7E, false, 0x7F⟩
def e5m2 : FloatFmt := ⟨2, 5, 15, 0x7B, true, 0x7E⟩
def e2m1 : FloatFmt := ⟨1, 2, 1, 0x7, false, 0⟩

/-- The weight of the sign bit. -/
def FloatFmt.signBit (f : FloatFmt) : Nat := 2 ^ (f.mbits + f.ebits)
/-- The exponent of a unit of the last place of a subnormal. -/
def FloatFmt.qmin (f : FloatFmt) : Int := 1 - f.bias - f.mbits

/-- Decode a code of a format (R32). -/
def FloatFmt.dec (f : FloatFmt) (c : Nat) : FVal :=
  let neg := c / f.signBit % 2 = 1
  let mag := c % f.signBit
  let M : Nat := mag % 2 ^ f.mbits
  let E : Nat := mag / 2 ^ f.mbits
  if mag > f.maxCode then
    if f.hasInf && M = 0 then .inf neg else .nan (f.hasInf && M < 2 ^ (f.mbits - 1))
  else if mag = 0 then .zero neg
  else
    let m : Nat := if E = 0 then M else 2 ^ f.mbits + M
    let e : Int := if E = 0 then f.qmin else f.qmin + (E - 1 : Nat)
    .fin (if neg then -(m : Int) else m) e

/-- One step away from zero when a discarded part lies at or above the boundary the mode names (R44). -/
def roundUp (mode : RM) (neg odd : Bool) (rem half : Nat) : Bool :=
  match mode with
  | .rne => rem > half || (rem = half && odd)
  | .rtz => false
  | .rdn => neg && rem != 0
  | .rup => !neg && rem != 0

/-- `m / 2^sh` rounded to an integer, and whether it was inexact. -/
def roundShift (mode : RM) (neg : Bool) (m sh : Nat) : Nat × Bool :=
  if sh = 0 then (m, false)
  else
    let n := m / 2 ^ sh
    let r := m % 2 ^ sh
    (if roundUp mode neg (n % 2 = 1) r (2 ^ (sh - 1)) then n + 1 else n, r != 0)

/-- A magnitude `m · 2^e` rounded with quantum `2^q`. -/
def roundAt (mode : RM) (neg : Bool) (m : Nat) (e q : Int) : Nat × Bool :=
  if q ≤ e then (m * 2 ^ (e - q).toNat, false) else roundShift mode neg m (q - e).toNat

/-- A magnitude rounded to a format with unbounded exponent above: its code, inexact, and tiny after rounding
(R44, R45). -/
def FloatFmt.roundMag (f : FloatFmt) (mode : RM) (neg : Bool) (m : Nat) (e : Int) : Nat × Bool × Bool :=
  let top : Int := (Nat.log2 m : Int) + e
  let qn : Int := top - f.mbits
  let q : Int := if qn < f.qmin then f.qmin else qn
  let (n, nx) := roundAt mode neg m e q
  let code := (q - f.qmin).toNat * 2 ^ f.mbits + n
  let tiny := if qn < f.qmin then
      let (n', _) := roundAt mode neg m e qn
      decide (top + 1 < 1 - f.bias) || n' < 2 ^ (f.mbits + 1)
    else false
  (code, nx, tiny)

/-- Away from zero, for an overflow result (R45). -/
def RM.overflowsUp (mode : RM) (neg : Bool) : Bool :=
  match mode with
  | .rne => true | .rtz => false | .rdn => neg | .rup => !neg

/-- A code with its sign. -/
def FloatFmt.signed (f : FloatFmt) (neg : Bool) (c : Nat) : Nat := if neg then f.signBit + c else c

/-- What an overflow or an infinity becomes in a format without IEEE 754 overflow (R45). -/
inductive SatKind | ieee | sat | nsat
  deriving DecidableEq, Repr

/-- Convert into a floating-point format (R45). -/
def FloatFmt.enc (f : FloatFmt) (k : SatKind) (mode : RM) (x : FVal) : Nat × FFlags :=
  match x with
  | .nan s => (f.nanCode, if k = .ieee then (if s then flagNV else 0) else flagNV)
  | .zero n => (f.signed n 0, 0)
  | .inf n =>
    match k with
    | .ieee => (f.signed n (f.maxCode + 1), 0)
    | .sat => (f.signed n f.maxCode, flagOF)
    | .nsat =>
      if f.hasInf then (f.signed n (f.maxCode + 1), 0)
      else if f.nanCode = 0 then (f.signed n f.maxCode, flagNV)
      else (f.nanCode, flagNV)
  | .fin m e =>
    let neg := decide (m < 0)
    let (c, nx, tiny) := f.roundMag mode neg m.natAbs e
    if c > f.maxCode then
      let r := match k with
        | .ieee => f.signed neg (if mode.overflowsUp neg then f.maxCode + 1 else f.maxCode)
        | .sat => f.signed neg f.maxCode
        | .nsat =>
          if f.nanCode = 0 then f.signed neg f.maxCode
          else if !mode.overflowsUp neg then f.signed neg f.maxCode
          else if f.hasInf then f.signed neg (f.maxCode + 1) else f.nanCode
      (r, flagOF ||| flagNX)
    else (f.signed neg c, (if nx then flagNX else 0) ||| (if nx && tiny then flagUF else 0))

/-! ### DP8 (R34–R36) -/

/-- A term of DP8 in units of 1/64. -/
def dp8Term (sign : Bool) (shift : Nat) : Int :=
  if shift = 7 then 0 else if sign then -((2 ^ (6 - shift) : Nat) : Int) else ((2 ^ (6 - shift) : Nat) : Int)

/-- The value of a DP8 code in units of 1/64 (R34). -/
def dp8Num (c : Nat) : Int :=
  dp8Term (c / 128 % 2 = 1) (c / 16 % 8) + dp8Term (c / 8 % 2 = 1) (c % 8)

/-- The codes 0 … n−1 in descending order, for the searches below. -/
def codesBelow : Nat → List Nat
  | 0 => []
  | n + 1 => n :: codesBelow n

/-- The canonical code of a grid value (R36): 0x77 for zero, else the lowest code that decodes to it. -/
def dp8Code (n : Int) : Nat :=
  if n = 0 then 0x77 else (codesBelow 256).foldl (fun acc c => if dp8Num c = n then c else acc) 0x77

/-- The greatest grid value at or below `lim`/64 and the least at or above it (R35), from the grid −128 … 128. -/
def dp8Floor (le : Int → Bool) : Int :=
  (codesBelow 256).foldl (fun acc c => let v := dp8Num c; if le v && acc < v then v else acc) (-128)
def dp8Ceil (ge : Int → Bool) : Int :=
  (codesBelow 256).foldl (fun acc c => let v := dp8Num c; if ge v && v < acc then v else acc) 128

/-- Compare `m · 2^e` with `n/64`, and with `n/128` where `half`: less, equal, greater as −1, 0, 1. -/
def cmpScaled (m e n : Int) (sh : Int) : Int :=
  -- m·2^e ? n·2^sh
  if e ≤ sh then (let r := n * 2 ^ (sh - e).toNat; if m < r then -1 else if m = r then 0 else 1)
  else (let l := m * 2 ^ (e - sh).toNat; if l < n then -1 else if l = n then 0 else 1)

/-- Convert into DP8 with scale 1 (R36). -/
def encDp8 (mode : RM) (x : FVal) : Nat × FFlags :=
  match x with
  | .nan _ => (0x77, flagNV)
  | .zero _ => (0x77, 0)
  | .inf n => (dp8Code (if n then -128 else 128), flagOF)
  | .fin m e =>
    if cmpScaled m e 128 (-6) = 1 then (dp8Code 128, flagOF ||| flagNX)
    else if cmpScaled m e (-128) (-6) = -1 then (dp8Code (-128), flagOF ||| flagNX)
    else
      let lo := dp8Floor fun v => cmpScaled m e v (-6) != -1
      let hi := dp8Ceil fun v => cmpScaled m e v (-6) != 1
      if lo = hi then (dp8Code lo, 0)
      else
        let v := match mode with
          | .rdn => lo
          | .rup => hi
          | .rtz => if m < 0 then hi else lo
          | .rne =>
            let c := cmpScaled m e (lo + hi) (-7)
            if c = -1 then lo else if c = 1 then hi else if lo.natAbs < hi.natAbs then lo else hi
        (dp8Code v, flagNX)

/-! ### Integers (R37, R45) -/

/-- Bits of a signed integer code of width w. -/
def decInt (w c : Nat) : Int :=
  let v := c % 2 ^ w
  if v < 2 ^ (w - 1) then (v : Int) else (v : Int) - (2 ^ w : Nat)

/-- The two's complement code of an integer. -/
def codeInt (w : Nat) (v : Int) : Nat := (v % ((2 ^ w : Nat) : Int)).toNat

/-- Clamp to the range of a width (R45). -/
def clampInt (w : Nat) (v : Int) : Int :=
  if v < -((2 ^ (w - 1) : Nat) : Int) then -((2 ^ (w - 1) : Nat) : Int)
  else if ((2 ^ (w - 1) : Nat) : Int) ≤ v then ((2 ^ (w - 1) : Nat) : Int) - 1 else v

/-- A value rounded to an integral value, and whether it was inexact (R45). -/
def roundIntegral (mode : RM) (m e : Int) : Int × Bool :=
  let neg := decide (m < 0)
  let (n, nx) := roundAt mode neg m.natAbs e 0
  (if neg then -(n : Int) else n, nx)

/-- Convert into an integer format of width w (R45). -/
def encInt (w : Nat) (mode : RM) (x : FVal) : Nat × FFlags :=
  match x with
  | .nan _ => (0, flagNV)
  | .zero _ => (0, 0)
  | .inf n => (codeInt w (if n then -((2 ^ (w - 1) : Nat) : Int) else ((2 ^ (w - 1) : Nat) : Int) - 1), flagNV)
  | .fin m e =>
    let (v, nx) := roundIntegral mode m e
    let c := clampInt w v
    if c = v then (codeInt w v, if nx then flagNX else 0) else (codeInt w c, flagNV)

/-! ### Element formats (R30) -/

/-- The element width in bits (R30). -/
def Fmt.bits : Fmt → Nat
  | .raw => 8 | .fp32 => 32 | .bf16 => 16 | .fp16 => 16 | .e4m3 => 8 | .e5m2 => 8 | .e2m1 => 4
  | .dp8 => 8 | .int8 => 8 | .int32 => 32 | .int4 => 4

/-- BLOG may be nonzero (R30). -/
def Fmt.scalable : Fmt → Bool
  | .e4m3 | .e5m2 | .e2m1 | .dp8 | .int8 | .int4 => true
  | .raw | .fp32 | .bf16 | .fp16 | .int32 => false

/-- An integer format. -/
def Fmt.isInt : Fmt → Bool
  | .int8 | .int32 | .int4 => true
  | .raw | .fp32 | .bf16 | .fp16 | .e4m3 | .e5m2 | .e2m1 | .dp8 => false

/-- `Dec` of an element (R32, R34, R37, R41). -/
def Fmt.dec (f : Fmt) (c : Nat) : FVal :=
  match f with
  | .raw => .ofInt ((c % 256 : Nat) : Int) 0
  | .fp32 => Sys2Proof.fp32.dec c
  | .bf16 => Sys2Proof.bf16.dec c
  | .fp16 => Sys2Proof.fp16.dec c
  | .e4m3 => Sys2Proof.e4m3.dec c
  | .e5m2 => Sys2Proof.e5m2.dec c
  | .e2m1 => Sys2Proof.e2m1.dec c
  | .dp8 => .ofInt (dp8Num c) (-6)
  | .int8 => .ofInt (decInt 8 c) 0
  | .int32 => .ofInt (decInt 32 c) 0
  | .int4 => .ofInt (decInt 4 c) 0

/-- Convert(x, fmt, mode) of R45, with R36 for DP8. Raw bytes are no target. -/
def convert (x : FVal) (f : Fmt) (mode : RM) (nsat : Bool) : Nat × FFlags :=
  let k := if nsat then SatKind.nsat else .sat
  match f with
  | .raw => (0, 0)
  | .fp32 => Sys2Proof.fp32.enc .ieee mode x
  | .bf16 => Sys2Proof.bf16.enc .ieee mode x
  | .fp16 => Sys2Proof.fp16.enc .ieee mode x
  | .e4m3 => Sys2Proof.e4m3.enc k mode x
  | .e5m2 => Sys2Proof.e5m2.enc k mode x
  | .e2m1 => Sys2Proof.e2m1.enc k mode x
  | .dp8 => encDp8 mode x
  | .int8 => encInt 8 mode x
  | .int32 => encInt 32 mode x
  | .int4 => encInt 4 mode x

/-! ### Exact arithmetic (R158, R159) -/

/-- The exact sum of two finite values as `m · 2^e`. -/
def sumExact (m1 e1 m2 e2 : Int) : Int × Int :=
  if e1 ≤ e2 then (m1 + m2 * 2 ^ (e2 - e1).toNat, e1) else (m1 * 2 ^ (e1 - e2).toNat + m2, e2)

/-- A NaN result: invalid when an operand was signalling or the operation itself is invalid. -/
def nanOf (nv : Bool) (fl : FFlags) : FVal × FFlags := (.nan false, if nv then flagNV else fl)

/-- a + b exactly, with the zero sign of the mode and the flags of special operands. -/
def addExact (mode : RM) (a b : FVal) : FVal × FFlags :=
  match a, b with
  | .nan s, y => nanOf (s || y.isSNan) 0
  | x, .nan s => nanOf (s || x.isSNan) 0
  | .inf p, .inf q => if p = q then (.inf p, 0) else nanOf true 0
  | .inf p, _ => (.inf p, 0)
  | _, .inf q => (.inf q, 0)
  | .zero p, .zero q => (.zero (if p = q then p else mode = .rdn), 0)
  | .zero _, .fin m e => (.fin m e, 0)
  | .fin m e, .zero _ => (.fin m e, 0)
  | .fin m e, .fin m' e' =>
    let (s, t) := sumExact m e m' e'
    (if s = 0 then .zero (mode = .rdn) else .fin s t, 0)

/-- The negated value; a NaN stays. -/
def FVal.negate : FVal → FVal
  | .nan s => .nan s | .inf n => .inf !n | .zero n => .zero !n | .fin m e => .fin (-m) e

/-- a · b exactly. -/
def mulExact (a b : FVal) : FVal × FFlags :=
  match a, b with
  | .nan s, y => nanOf (s || y.isSNan) 0
  | x, .nan s => nanOf (s || x.isSNan) 0
  | .inf _, .zero _ => nanOf true 0
  | .zero _, .inf _ => nanOf true 0
  | .inf p, y => (.inf (p != y.neg), 0)
  | x, .inf q => (.inf (x.neg != q), 0)
  | .zero p, y => (.zero (p != y.neg), 0)
  | x, .zero q => (.zero (x.neg != q), 0)
  | .fin m e, .fin m' e' => (.fin (m * m') (e + e'), 0)

/-- A quotient of magnitudes to at least 64 bits, with the low bit that marks a rest. -/
def quotBits (n d : Nat) : Nat × Int :=
  let k := 66 + Nat.log2 d
  let q := n * 2 ^ k / d
  (2 * q + (if n * 2 ^ k % d = 0 then 0 else 1), -(k : Int) - 1)

/-- a / b (R159). -/
def divExact (a b : FVal) : FVal × FFlags :=
  match a, b with
  | .nan s, y => nanOf (s || y.isSNan) 0
  | x, .nan s => nanOf (s || x.isSNan) 0
  | .inf _, .inf _ => nanOf true 0
  | .zero _, .zero _ => nanOf true 0
  | .inf p, y => (.inf (p != y.neg), 0)
  | x, .inf q => (.zero (x.neg != q), 0)
  | .zero p, y => (.zero (p != y.neg), 0)
  | .fin m _, .zero q => (.inf (decide (m < 0) != q), flagDZ)
  | .fin m e, .fin m' e' =>
    let (q, t) := quotBits m.natAbs m'.natAbs
    (.fin (if decide (m < 0) != decide (m' < 0) then -(q : Int) else q) (e - e' + t), 0)

/-- The integer square root, one binary digit a step from bit `k` down. -/
def isqrtFrom : Nat → Nat → Nat → Nat
  | 0, _, r => r
  | k + 1, n, r => let c := r + 2 ^ k; isqrtFrom k n (if c * c ≤ n then c else r)
def isqrt (n : Nat) : Nat := isqrtFrom (Nat.log2 n / 2 + 1) n 0

/-- √a (R159). -/
def sqrtExact (a : FVal) : FVal × FFlags :=
  match a with
  | .nan s => nanOf s 0
  | .inf true => nanOf true 0
  | .inf false => (.inf false, 0)
  | .zero n => (.zero n, 0)
  | .fin m e =>
    if m < 0 then nanOf true 0
    else
      let (m1, e1) : Nat × Int := if e % 2 = 0 then (m.natAbs, e) else (2 * m.natAbs, e - 1)
      let n := m1 * 2 ^ 128
      let r := isqrt n
      (.fin (2 * r + (if r * r = n then 0 else 1) : Nat) (e1 / 2 - 65), 0)

/-- a · b + c with one exact sum (R159). Zero times infinity raises invalid beside a quiet NaN too (DESIGN CHOICE: log entry 111). -/
def fmaExact (mode : RM) (a b c : FVal) : FVal × FFlags :=
  let (p, f) := mulExact a b
  let (r, g) := addExact mode p c
  (r, f ||| g)

/-- The order of two numbers, none where one is a NaN: −1, 0, 1. -/
def FVal.cmp (a b : FVal) : Option Int :=
  let key : FVal → Int × Int × Int := fun
    | .inf n => (if n then -1 else 1, 0, 0) | .zero _ => (0, 0, 0) | .fin m e => (0, m, e) | .nan _ => (0, 0, 0)
  if a.isNan || b.isNan then none
  else
    let (i, m, e) := key a
    let (j, m', e') := key b
    if i < j then some (-1) else if j < i then some 1
    else if i != 0 then some 0 else some (cmpScaled m e m' e')

/-- minimumNumber picks the first operand (R48, R159): a NaN loses, −0 orders below +0. None: both are NaNs. -/
def minPick (a b : FVal) : Option Bool :=
  match a.isNan, b.isNan with
  | true, true => none
  | true, false => some false
  | false, true => some true
  | false, false =>
    match a.cmp b with
    | some c => some (if c = 0 then a.neg || !b.neg else c < 0)
    | none => none
/-- maximumNumber picks the first operand. -/
def maxPick (a b : FVal) : Option Bool :=
  match a.isNan, b.isNan with
  | true, true => none
  | true, false => some false
  | false, true => some true
  | false, false =>
    match a.cmp b with
    | some c => some (if c = 0 then !a.neg || b.neg else 0 < c)
    | none => none

/-! ### Powers of two (R49) -/

/-- ln 2 to 256 bits below the point. -/
def ln2Bits : Nat := 0xB17217F7D1CF79ABC9E3B39803F2F6AF40F343267298B62D8A0D175B8BAAFA2B

/-- Terms of the exponential series: `k` further terms from term number `i`, everything in units of 2^−256. -/
def expTerms : Nat → Nat → Nat → Nat → Nat → Nat
  | 0, _, _, _, acc => acc
  | k + 1, i, t, term, acc =>
    let term' := term * t / 2 ^ 256 / i
    expTerms k (i + 1) t term' (acc + term')

/-- 2^f for 0 ≤ f < 1, f in units of 2^−256, the result in the same units (DEDUCED: log entry 9). -/
def exp2Frac (f : Nat) : Nat := expTerms 70 1 (f * ln2Bits / 2 ^ 256) (2 ^ 256) (2 ^ 256)

/-- 2^x exactly, or with the low bit that marks a rest (R49): x between −2,000 and 2,000, else one of the ends,
which every format rounds alike. -/
def exp2Exact (x : FVal) : FVal × FFlags :=
  match x with
  | .nan s => nanOf s 0
  | .inf true => (.zero false, 0)
  | .inf false => (.inf false, 0)
  | .zero _ => (.fin 1 0, 0)
  | .fin m e =>
    if cmpScaled m e 2000 0 = 1 then (.fin 1 2000, 0)
    else if cmpScaled m e (-2000) 0 = -1 then (.fin 3 (-2002), 0)
    else
      let n : Int := if 0 ≤ e then m * 2 ^ e.toNat * 2 ^ 256 else m * 2 ^ (256 + e).toNat
      let i := n / 2 ^ 256
      let f := (n % 2 ^ 256).toNat
      if f = 0 then (.fin 1 i, 0) else (.fin (2 * exp2Frac f + 1 : Nat) (i - 257), 0)

/-- Terms of `2·artanh z`: `z^(2k+1)/(2k+1)` in units of 2^−256, `n` of them from the odd number `i`. -/
def artanhTerms : Nat → Nat → Nat → Nat → Nat → Nat
  | 0, _, _, _, acc => acc
  | n + 1, i, zz, pow, acc => artanhTerms n (i + 2) zz (pow * zz / 2 ^ 256) (acc + pow / i)
/-- log₂(1 + t) for 0 ≤ t ≤ 1, both in units of 2^−256 (DEDUCED: log entry 9). -/
def log2OnePlus (t : Nat) : Nat :=
  let z := t * 2 ^ 256 / (2 ^ 257 + t)
  2 * artanhTerms 90 1 (z * z / 2 ^ 256) z 0 * 2 ^ 256 / ln2Bits
/-- 2^d for d ≤ 0, d in units of 2^−256, the result in the same units. -/
def exp2Below (d : Int) : Nat := exp2Frac (d % 2 ^ 256).toNat / 2 ^ (-(d / 2 ^ 256)).toNat
/-- A finite value as `m · 2^e`. -/
def FVal.pair : FVal → Int × Int
  | .fin m e => (m, e)
  | .zero _ | .inf _ | .nan _ => (0, 0)
/-- LSE2 (R201): log₂(2^x + 2^y), exactly or with the low bit that marks a rest. -/
def lse2Exact (x y : FVal) : FVal :=
  if x.isNan || y.isNan then .nan false
  else if x == .inf false || y == .inf false then .inf false
  else if x == .inf true then y
  else if y == .inf true then x
  else
    let (hi, lo) := if x.cmp y = some (-1) then (y.pair, x.pair) else (x.pair, y.pair)
    let (m, e) := sumExact lo.1 lo.2 (-hi.1) hi.2
    if m = 0 then (let r := sumExact hi.1 hi.2 1 0; FVal.ofInt r.1 r.2)
    else
      let d : Int := if cmpScaled m e (-600) 0 = -1 then -600 * 2 ^ 256 else if 0 ≤ e then m * 2 ^ e.toNat * 2 ^ 256
        else m * 2 ^ (256 + e).toNat
      let r := sumExact hi.1 hi.2 (2 * log2OnePlus (exp2Below d) + 1 : Nat) (-257)
      FVal.ofInt r.1 r.2

/-! ### FP32 operations used by lanes, engines, homes and the fabric -/

/-- An FP32 operand. -/
def f32 (x : W32) : FVal := fp32.dec x.toNat
/-- Round an exact result to FP32 (R45's IEEE cells), with the flags so far. -/
def toF32 (mode : RM) (r : FVal × FFlags) : W32 × FFlags :=
  let (c, g) := fp32.enc .ieee mode r.1
  (BitVec.ofNat 32 c, r.2 ||| g)
/-- The canonical NaN of FP32 (R33). -/
def nan32 : W32 := 0x7FC00000

def f32Add (mode : RM) (a b : W32) : W32 × FFlags := toF32 mode (addExact mode (f32 a) (f32 b))
def f32Sub (mode : RM) (a b : W32) : W32 × FFlags := toF32 mode (addExact mode (f32 a) (f32 b).negate)
def f32Mul (mode : RM) (a b : W32) : W32 × FFlags := toF32 mode (mulExact (f32 a) (f32 b))
def f32Fma (mode : RM) (a b c : W32) : W32 × FFlags := toF32 mode (fmaExact mode (f32 a) (f32 b) (f32 c))
def f32Div (mode : RM) (a b : W32) : W32 × FFlags := toF32 mode (divExact (f32 a) (f32 b))
def f32Sqrt (mode : RM) (a : W32) : W32 × FFlags := toF32 mode (sqrtExact (f32 a))
def f32Lse2 (a b : W32) : W32 := (toF32 .rne (lse2Exact (f32 a) (f32 b), 0)).1
def f32Exp2 (a : W32) : W32 × FFlags := toF32 .rne (exp2Exact (f32 a))
/-- minimumNumber of two FP32 patterns (R159). -/
def f32Min (a b : W32) : W32 × FFlags :=
  ((match minPick (f32 a) (f32 b) with | none => nan32 | some true => a | some false => b),
   (f32 a).nvIfS ||| (f32 b).nvIfS)
/-- maximumNumber of two FP32 patterns (R159). -/
def f32Max (a b : W32) : W32 × FFlags :=
  ((match maxPick (f32 a) (f32 b) with | none => nan32 | some true => a | some false => b),
   (f32 a).nvIfS ||| (f32 b).nvIfS)

/-- The quiet comparison a = b (R160). -/
def fEq (a b : FVal) : Bool × FFlags := (a.cmp b == some 0, a.nvIfS ||| b.nvIfS)
/-- a < b: any NaN gives 0 and invalid (R160). -/
def fLt (a b : FVal) : Bool × FFlags := (a.cmp b == some (-1), if a.isNan || b.isNan then flagNV else 0)
/-- a ≤ b: any NaN gives 0 and invalid (R160). -/
def fLe (a b : FVal) : Bool × FFlags :=
  (a.cmp b == some (-1) || a.cmp b == some 0, if a.isNan || b.isNan then flagNV else 0)

/-! ### Scalar types (R158) -/

def FTy.fmt : FTy → FloatFmt
  | .f32 => Sys2Proof.fp32 | .bf16 => Sys2Proof.bf16 | .f16 => Sys2Proof.fp16
def FTy.width : FTy → Nat
  | .f32 => 32 | .bf16 => 16 | .f16 => 16
/-- The operand bits of a type: 31:0 or 15:0 (R158). -/
def FTy.bitsOf (t : FTy) (x : W64) : Nat := x.toNat % 2 ^ t.width
/-- An operand of a type. -/
def FTy.val (t : FTy) (x : W64) : FVal := t.fmt.dec (t.bitsOf x)
/-- Round to the type; the bits above the width are zero (R158). -/
def FTy.round (t : FTy) (mode : RM) (r : FVal × FFlags) : W64 × FFlags :=
  let (c, g) := t.fmt.enc .ieee mode r.1
  (BitVec.ofNat 64 c, r.2 ||| g)

/-- FCLASS (R160): the one bit set. -/
def fclassBit (t : FTy) (x : W64) : Nat :=
  match t.val x with
  | .nan s => if s then 8 else 9
  | .inf n => if n then 0 else 7
  | .zero n => if n then 3 else 4
  | .fin m _ =>
    let sub := t.bitsOf x % t.fmt.signBit < 2 ^ t.fmt.mbits
    if m < 0 then (if sub then 2 else 1) else (if sub then 5 else 6)

/-! ### Scales and scaled blocks (R39–R42) -/

/-- The value of a scale slot: none for the NaN scale; `malformed` raises invalid (R39). -/
inductive Scale | nan (malformed : Bool) | zero | val (m : Int) (e : Int)
  deriving DecidableEq, Repr

/-- Decode a scale slot (R39). -/
def Scale.ofSlot (s : BitVec 16) : Scale :=
  let E := (s.extractLsb' 4 8).toNat
  let M := (s.extractLsb' 0 4).toNat
  if s.extractLsb' 12 4 ≠ 0 then .nan true
  else if E = 255 then .nan false
  else if E = 0 then (if M = 0 then .zero else .nan true)
  else .val (16 + M : Nat) ((E : Int) - 131)

/-- An element under a scale, for a floating-point destination or the array (R41). -/
def scaledVal (x : FVal) (s : Scale) : FVal :=
  match s with
  | .nan _ => .nan false
  | .zero => .zero false
  | .val m e => (mulExact x (.fin m e)).1

/-- The invalid flag of a malformed scale slot (R39). -/
def Scale.fl : Scale → FFlags
  | .nan true => flagNV
  | .nan false | .zero | .val _ _ => 0

/-- MaxVal of R42 as `m · 2^e`. -/
def Fmt.maxVal : Fmt → Int
  | .e4m3 => 448 | .e5m2 => 57344 | .e2m1 => 6 | .dp8 => 2 | .int8 => 127 | .int4 => 7
  | .raw | .fp32 | .bf16 | .fp16 | .int32 => 1

/-- The greater magnitude of two finite values, zeros lowest. -/
def absMax (a b : FVal) : FVal :=
  let mag : FVal → FVal := fun x => if x.neg then x.negate else x
  if (mag a).cmp (mag b) = some (-1) then mag b else mag a

/-- The scale slot E, M of the smallest UE8M4 value at or above `m·2^e / maxVal`, limited (R42). -/
def scaleAbove (m : Nat) (e maxv : Int) : BitVec 16 :=
  -- the quotient q = m·2^e/maxv; its binary exponent k, then the fraction in sixteenths rounded up
  let (q, t) := quotBits m maxv.natAbs
  let top : Int := (Nat.log2 q : Int) + (e + t)
  if top < -126 then 0x0010
  else
    let (s, _) := roundAt .rup false q (e + t) (top - 4)
    let (k, s) : Int × Nat := if s = 32 then (top + 1, 16) else (top, s)
    if k > 127 then 0x0FEF
    else BitVec.ofNat 16 ((k + 127).toNat * 16 + (s - 16))

/-- ScaleFor of R42: the slot, and whether invalid is set. -/
def scaleFor (xs : List FVal) (f : Fmt) : BitVec 16 × FFlags :=
  if xs.any fun x => x.isNan || x.isInf then (0x0FF0, flagNV)
  else
    match xs.foldl absMax (.zero false) with
    | .fin m e => (scaleAbove m.natAbs e f.maxVal, 0)
    | .zero _ | .inf _ | .nan _ => (0, 0)

/-- Convert(x / s, fmt) with the exact quotient (R42): the zero code under the zero scale, and the conversion of a NaN
under the NaN scale (DEDUCED: log entry 33). -/
def convertScaled (x : FVal) (s : Scale) (f : Fmt) (mode : RM) : Nat × FFlags :=
  match s with
  | .val m e => convert (divExact x (.fin m e)).1 f mode false
  | .zero => (if f = .dp8 then 0x77 else 0, 0)
  | .nan _ => convert (.nan false) f mode false

/-! ### The array's chunk sum and the rescaling combine (R46, R50) -/

/-- The exact sum of products of one chunk with R46's special values. -/
def chunkSum (ps : List FVal) : FVal :=
  if ps.any FVal.isNan || (ps.any (fun p => p == .inf true) && ps.any (fun p => p == .inf false)) then .nan false
  else if ps.any (fun p => p == .inf true) then .inf true
  else if ps.any (fun p => p == .inf false) then .inf false
  else if ps.all (fun p => p == .zero true) then .zero true
  else
    let (m, e) := ps.foldl (fun (acc : Int × Int) p => match p with
      | .fin m e => sumExact acc.1 acc.2 m e
      | .zero _ | .inf _ | .nan _ => acc) (0, 0)
    FVal.ofInt m e

/-- RoundNE to FP32 without flags (R46). -/
def ne32 (x : FVal) : W32 := (toF32 .rne (x, 0)).1

/-- The triple (m, s, v) of R50. -/
structure Triple where
  m : W32
  s : W32
  v : List W32
  deriving DecidableEq, Repr

/-- −∞ in FP32. -/
def negInf32 : W32 := 0xFF800000

/-- RescaleCombine (R50). -/
def rescaleCombine (a b : Triple) : Triple :=
  if (f32 a.m).isNan || (f32 b.m).isNan then ⟨nan32, nan32, a.v.map fun _ => nan32⟩
  else if f32 a.m = .inf true && f32 b.m = .inf true then ⟨negInf32, 0, a.v.map fun _ => 0⟩
  else
    let (p, q) := if (f32 b.m).cmp (f32 a.m) = some 1 then (b, a) else (a, b)
    let f : W32 := if (f32 q.m).cmp (f32 p.m) = some 0 then 0x3F800000
      else (f32Exp2 (f32Sub .rne q.m p.m).1).1
    ⟨p.m, (f32Fma .rne q.s f p.s).1, List.zipWith (fun x y => (f32Fma .rne x f y).1) q.v p.v⟩

end Sys2Proof
end

