-- ==== Sys2Proof/Config.lean ====
section
/-! DEFINITION. What the manual fixes for every package, what it leaves open (opaque constants with no body), and
the planning latencies of a machine right after reset. -/

namespace Sys2Proof

/-! ### Free values: nothing in Lean can evaluate them -/

/-- FREE: which of the `n + 1` allowed stores a stale-tolerant load returns (R266, DESIGN CHOICE: log entry 7), taken modulo `n + 1`. -/
opaque Config.staleChoice : Nat → Nat → Nat
/-- FREE: whether a clean held copy whose memory has changed through another mapping was evicted meanwhile
(R217, R279, DESIGN CHOICE: log entry 7). -/
opaque Config.evicted : Nat → Bool
/-- FREE: which line of a full set of the data cache or of the instruction cache makes room (R94, R115, DESIGN CHOICE: log entry 7),
taken modulo their number. -/
opaque Config.victim : Nat → Nat
/-- FREE: whether a slice answers a fill without a request to the memory-side cache (R210, R226, R227, DESIGN CHOICE: log entry 7). -/
opaque Config.sliceHit : Nat → Bool
/-- FREE: whether an access before GO clears uses the old translation (R215, DESIGN CHOICE: log entry 14). -/
opaque Config.oldTranslation : Nat → Bool
/-- FREE: whether a resolution in a cycle by a context uses the copies of records that a change has not dropped yet
(R55, DESIGN CHOICE: log entry 84). -/
opaque Config.oldRecord : Nat → Nat → Bool
/-- FREE: a general register of a helper after `HEXIT` (R154, DESIGN CHOICE: log entry 15). -/
opaque Config.afterHexit : Nat → Nat → BitVec 64
/-- FREE: the 3,309 + 64 signature bytes of an attestation report (R340, DESIGN CHOICE: log entry 17). -/
opaque Config.attest : Nat → Nat → Byte
/-- FREE: whether no answer comes to an access made in a cycle to a line of another package (R342, DESIGN CHOICE: log entry 27). -/
opaque Config.noAnswer : Nat → Nat → Bool
/-- FREE: what `ATOM` or `FUTSET` delivers when no answer comes from another package (R342, DESIGN CHOICE: log entry 27). -/
opaque Config.lostAnswer : Nat → BitVec 64
/-- FREE: a byte of the lower 32 KiB of a task's spill area after a spill to HBM, and one of a control area or of the task area in the save
bank (R318, R321, DESIGN CHOICE: log entry 10). -/
opaque Config.spillByte : Nat → Nat → Byte
/-- FREE: the cycles a core's write-backs take before its lead issues or its scratch has its new size (R93, R243, DESIGN CHOICE: log entry 82). -/
opaque Config.writeBack : Nat → Nat
/-- FREE: which of the two outcomes a load takes that meets a replica of a recalled page (R226, DESIGN CHOICE: log entry 18): true for
the sealed data, false for 0x11. -/
opaque Config.replicaRace : Nat → Bool

/-- FREE: which of the cores it may use the curator takes for a bind under a power target in watts (R73, R343, DESIGN CHOICE: log
entry 12), taken modulo their number. -/
opaque Config.curatorCore : Nat → Nat → Nat
/-- FREE: the start cycle the curator sets (R73, DESIGN CHOICE: log entry 12). -/
opaque Config.curatorStart : Nat → BitVec 64
/-- FREE: how far the curator delays START under a power target in watts (R343, DESIGN CHOICE: log entry 12). -/
opaque Config.curatorDelay : Nat → Nat → BitVec 64
/-- FREE: where the curator places a task's spill area (R74, DESIGN CHOICE: log entry 12). -/
opaque Config.curatorSpill : Nat → BitVec 64
/-- FREE: the 128-byte lines of physical memory that a row of a retirement entry holds (R230, DESIGN CHOICE: log entry 29). -/
opaque Config.rowLines : BitVec 64 → List Nat
/-- FREE: the retirement entry of the HBM row that holds a physical address (R230, R232, DESIGN CHOICE: log entry 29). -/
opaque Config.rowOf : Nat → BitVec 64

/-- FREE: the entry that stands for a retired page in the page list the curator writes (R230, DESIGN CHOICE: log entry 29). -/
opaque Config.pageEntry : Nat → BitVec 64
/-- FREE: package power and the hottest junction as the curator reads them (R343, DESIGN CHOICE: log entry 12). -/
opaque Config.watts : Nat → BitVec 12
opaque Config.celsius : Nat → BitVec 8
/-- FREE: the number that CODE gives a thermal level (R336, DESIGN CHOICE: log entry 30). -/
opaque Config.thermalCode : Nat → Nat
/-- FREE: MSTAT of a migration request whose MODE is 0 or 3 (R228, DEDUCED: log entry 31). -/
opaque Config.rejectStat : Nat → Byte
/-- FREE: whether the two signatures of a firmware image verify (R338, R339, DESIGN CHOICE: log entry 17). -/
opaque Config.edVerifies : Nat → Bool
opaque Config.mlVerifies : Nat → Bool

/-! ### The package (R5, R86, R103, R136) -/

/-- Cores of the package: 4 dies × 48 ropes × 8 cores. -/
def Config.cores : Nat := 1536
/-- The device agent's place among the agents of R366: no core. -/
def Config.deviceAgent : Nat := 1536
/-- The place of another package among the agents of this one: its landings (R292, R302). -/
def Config.fabricAgent : Nat := 1537
/-- Arithmetic-clock cycles of one tick (1 µs at 3.0 GHz; R98, R343; DEDUCED: log entry 5). -/
def Config.tickCycles : Nat := 3000
/-- Cycles of the 10 µs interval clock (R78). -/
def Config.ageCycles : Nat := 30000
/-- Address bits of the physical space (R211). -/
def Config.physTop : Nat := 2 ^ 52

end Sys2Proof
end

