-- ==== Sys2Proof/Machine/Event.lean ====
section
/-! DEFINITION. The 84 steps of the device that have no word (spec/95), as the events the machine keeps in
`State.queue`: constructor for constructor those of `Instr`. Two types, because the events are what the machine itself
schedules; `runEv` and `exec` call one meaning for both (Laws/Exec.lean proves it). -/

namespace Sys2Proof.Machine

/-- A step of the device to come. -/
inductive Ev
  | hostRegisterWrite (t : HostTarget) (size : Nat) (val : W64)
  | qtailWrite (q : Nat) (v : W32) | queueEnable (q : Nat) (en : Bool) | queueClear (q : Nat)
  | submitRecord (q : Nat) | cancelRecord (q : Nat) | markerRecord (q : Nat) | recordSettle (id : Nat)
  | curatorBind (core slot : Nat) (start delay spill : W64)
  | dispatchBind (core slot : Nat) | dispatchStart (core slot : Nat) | dispatchSelect (core : Nat)
  | preemptTake (core : Nat) | handlerEntry (core ctx : Nat) (ent : BitVec 3) | taskFailure (core : Nat)
  | impreciseFaultTaken (core ctx : Nat) | ageInterval | tick | watchdogExpiry (core slot : Nat)
  | granuleCheckerVisit (core g : Nat) | cacheLineSweep (core : Nat) (asid : Asid) (line : Nat)
  | cacheLineExpire (core : Nat) (asid : Asid) (line : Nat) | fifoEntrySpill (core bank : Nat)
  | leaseGrant (rope : Nat) | leaseRunEnd (rope granted : Nat)
  | engineCommandStart (core id : Nat) | retryResume (core ctx : Nat) | engineCommandComplete (core id : Nat)
  | copyComplete (core id : Nat) | boundedWaitExpiry (core ctx token : Nat) | wfeTimeout (core ctx token : Nat)
  | loadAnswered (id : Nat) | storePerformed (id : Nat) | atomicPerformed (id : Nat)
  | predsDecrement (asid : Asid) (tcb : VA) (pa : Nat) | pageReclassify (asid : Asid) (va : VA)
  | pageFaultAnswer (who : FaultWho) (pte : Nat) (w0 w8 : W64) | pageFaultDenial (who : FaultWho)
  | xlatInvalidatePage (func : Option (BitVec 6)) | xlatInvalidateAll (func : Option (BitVec 6)) | xlatInvalidateComplete
  | migrationRequest | heatHalve | heatArrayWrite (die : Nat) | rlctlGo | retirementListLoad
  | memoryEccError (pa : Nat) (uncorrectable : Bool) | uncorrectableError (site : EccSite)
  | vitrineDataWritten (asid : Asid) (page claim : Nat) | recallAck (asid : Asid) (page holder : Nat)
  | ropeNetStoreArrival (core : Nat) (ends : NetEnds) (bytes : List WByte)
  | seqsetTagWrite (core task slot : Nat) (tag : BitVec 16)
  | queueEntryArrival (core task q : Nat) (val : W64)
  | messageDelivery (core : Nat) (taskid : W32) (asid : Asid) (val : W64) (fromCore fromCtx token : Nat)
  | eventSignalArrival (core : Nat) (asid : Asid)
  | belayArrival (node : BKey) (expect child : Nat) (word : W64) | belayRelease (node : BKey)
  | fabricLanding (head : FlitHead) (off : Nat) (data : List Byte) | fabricTransferComplete (id : Nat)
  | reductionPartialArrival (key : RedKey) (seq : W32) (port : Nat) (op : ROp) (elems : Nat) (vals : List W32) (bad : Bool)
  | reductionOutcomeArrival (key : RedKey) (seq : W32) (bad : Bool) (res : Option (List W32))
  | remoteAccessTimeout (id : Nat) | fabricLinkChange (port : Nat) (up : Bool) (pkg : BitVec 10)
  | reclamationEntryWrite (asid : Asid) (kind : BitVec 2) (handle : BitVec 24) (range : DRange) (since : Nat)
  | crtailWrite (v : W32) | thermalLevelStep (temp : Nat) | coreOvertempHalt (core : Nat)
  | telemUpdate (watts : BitVec 12) (temp : BitVec 8) | fwGo | fwVerifyComplete (edOk mlOk : Bool)
  | attestGo | attestReportComplete | hostLinkTraining (cxl : Bool) | packageReset
  | functionLevelReset (f : BitVec 6) | flrComplete (f : BitVec 6) | bivouacSpill (core : Nat)
  | spillLoadBack (core slot : Nat) | haltedFaultRecovery (core : Nat) | icinvComplete (core ctx : Nat)
  | flushWalkComplete (core ctx : Nat) | illegalInstruction (word : W32) | instructionFetch (core ctx : Nat)
  | curatorCancel (asid : Asid) (tcb : VA)
  deriving DecidableEq, Repr

end Sys2Proof.Machine
end

