-- ==== Sys2Proof/Machine/State.lean ====
section
/-! DEFINITION. The state of one XN4 package as plain data, and the state right after package reset. Tables that
are large and mostly untouched (cores, ropes, memory) are lists with ascending keys; an absent entry is the
default named beside the table. INVENTORY.md lists every field with the rule that names it. -/

namespace Sys2Proof.Machine

/-- Why the machine stops. -/
inductive Fault
  /-- A host write of CODE to a TCB that is WAITING, READY or BOUND: R12 says it is not defined by the manual and
  may lose the task. Raised by `HOST_REGISTER_WRITE` of a table byte. Safe. -/
  | hostWriteOfCode (asidTcb : Nat)
  deriving DecidableEq, Repr

/-- Why the model gives no meaning. -/
inductive Refusal
  /-- The instruction has no meaning yet. Raised by no arm of `exec` in this model. Safe. -/
  | notModelled (mnemonic : String)
  deriving DecidableEq, Repr

/-! ### Tables with Nat keys -/

/-- An entry of a table. -/
abbrev Table (α : Type) := List (Nat × α)

/-- The entry at a key. -/
def Table.find? {α : Type} (k : Nat) : Table α → Option α
  | [] => none
  | (j, x) :: t => if j = k then some x else Table.find? k t

/-- Write an entry, keeping the keys ascending. -/
def Table.put {α : Type} (k : Nat) (v : α) : Table α → Table α
  | [] => [(k, v)]
  | (j, x) :: t => if k < j then (k, v) :: (j, x) :: t else if k = j then (k, v) :: t else (j, x) :: Table.put k v t

/-- Remove an entry. -/
def Table.del {α : Type} (k : Nat) : Table α → Table α
  | [] => []
  | (j, x) :: t => if j = k then Table.del k t else (j, x) :: Table.del k t

/-! ### Accesses in flight (R263–R270) -/

/-- One scalar access: virtual address, size in bytes, and for a store the value and the bits written. -/
structure Acc where
  va   : VA
  size : Nat
  val  : W64
  mask : W64
  deriving DecidableEq, Repr

/-- Where a scalar load's value goes: zero- or sign-extended from a number of bits. -/
inductive Dest
  | none
  | gz (r : Reg) (bits : Nat)
  | gs (r : Reg) (bits : Nat)
  deriving DecidableEq, Repr

/-- What an access in flight does when it is performed. A vector access has its pointer, whether it decodes the tag, the
index of each lane and the mask of active lanes. -/
inductive FlightKind
  | load (fresh : Bool) (dest : Dest)
  | store
  | atomic (op : AOp) (ty : ATy) (cmp : W64) (ret : Option Reg)
  | vload (r : VReg) (ptr : W64) (scaled : Bool) (idx : List Nat) (mask : BitVec 16)
  | vstore (x : Lanes) (ptr : W64) (scaled : Bool) (idx : List Nat) (mask : BitVec 16) (mode : BitVec 2)
  deriving DecidableEq, Repr

/-- An access of a context that is not performed yet (R263–R270); `stuck`: a vector access held by a page fault (R180). -/
structure Flight where
  id    : Nat
  core  : Nat
  ctx   : Nat
  asid  : Asid
  kind  : FlightKind
  acc   : Acc
  seq   : BitVec 6
  word  : W32
  /-- issued in handler mode: g24–g31 name the handler bank (R308) -/
  hm    : Bool
  stuck : Bool
  /-- the PC of the word (R342) -/
  pc    : VA
  deriving DecidableEq, Repr

/-! ### A context (R88) -/

/-- What an instruction meets that has issued (R167): cause, FADDR, FINFO, ring entry. -/
structure Met where
  cause : Nat
  faddr : W64
  finfo : W64
  seq   : BitVec 6
  deriving DecidableEq, Repr

/-- An imprecise fault reported to a context and not yet taken (R167): what was met, the cycle its instruction issued, and
whether that was in handler mode. -/
structure ImpFault where
  met : Met
  at' : Nat
  hm  : Bool
  deriving DecidableEq, Repr

/-- A fixed-latency result that has not landed (R132, R133): the cycle it lands, where, and the value. A vector
result carries the lanes it writes; `h` says that g24–g31 name the handler bank (R308). `report` tells of a flag
whose trap is enabled, which follows its instruction's result (R168). -/
inductive Pend
  | g (at' : Nat) (h : Bool) (r : Reg) (x : W64)
  | v (at' : Nat) (r : VReg) (lanes : BitVec 16) (x : Lanes)
  | p (at' : Nat) (r : PReg) (x : W64)
  | report (at' : Nat) (f : ImpFault)
  deriving DecidableEq, Repr

/-- CairnImage (R137), with MSHAPE, which is saved with the registers (R192). -/
structure CairnImage where
  g : Vector W64 32
  v : Vector Lanes 32
  p : Vector W64 8
  mshape : W64
  deriving DecidableEq, Repr

/-- A wait on a condition (R282, R317): since when, the cycles of the bound left then (none: unbounded), the name of its expiry event,
the waiting word, and for a `QPUSH` the bind of the task it waits for (R294). -/
structure Wait where
  since : Nat
  limit : Option Nat
  token : Nat
  instr : Instr
  bind  : Nat
  deriving DecidableEq, Repr

/-- Where a context stands (R130, R317). A parked context keeps its PC at the waiting instruction, which is carried
out again when the condition holds. -/
inductive Park
  | no
  /-- A release that waits for earlier accesses, or a wait for issued engine commands to start or complete. -/
  | drain
  /-- A wait on a condition (R317): `CWAIT`, `WFE`, `QPOP`, `LEASE`, `RECV`, … . -/
  | cond (w : Wait)
  /-- A wait for a home's answer, until a cycle (R317). -/
  | home (until' : Nat)
  /-- In `BELAY` after the arrival, with the saved g (R289). -/
  | belay (scope : Scope) (id : Nat) (g : BitVec 16)
  /-- On a page fault: the address as FADDR gives it when the fault is denied, and whether the access was a write (R17, R314). -/
  | pageFault (asid : Asid) (at' : W64) (write : Bool)
  /-- A retry at the cairn under way (R139): no issue before the cycle; `lease`: the resume also waits for the lease. -/
  | retry (from' : Nat) (lease : Bool)
  deriving DecidableEq, Repr

/-- One hardware context (R88). -/
structure Ctx where
  live     : Bool
  pc       : VA
  g        : Vector W64 32
  v        : Vector Lanes 32
  p        : Vector W64 8
  /-- the handler bank g24–g31 (R308) -/
  hg       : Vector W64 8
  rmode    : W64
  tbase    : W64
  cairnpc  : W64
  cause    : W64
  epc      : W64
  faddr    : W64
  finfo    : W64
  fseq     : W64
  xstat    : W64
  mshape   : W64
  image    : Option CairnImage
  pend     : List Pend
  /-- the first cycle in which the context may issue (R109, R130, R151) -/
  readyAt  : Nat
  park     : Park
  /-- TBASE is set to the cycle of the next issue (R75, R136) -/
  anchor   : Bool
  /-- a `DLY` delays the context until `readyAt` (R317) -/
  dly      : Bool
  /-- engine commands of a rerun still to be suppressed (R139) -/
  suppress : Nat
  /-- engine commands issued since the cairn (R138) -/
  issued   : Nat
  fault    : Option ImpFault
  /-- a poison or a stale granule met and not yet reported: cause and address (R100, R285, R302) -/
  defer    : Option (Nat × W64)
  /-- a bound's count kept over a withdrawal, with the address of its word (R282) -/
  left     : Option (Nat × Nat)
  /-- the answer a home has given to the waiting instruction: value, and cause and FADDR when it faulted -/
  answer   : Option (W64 × Nat × W64)
  /-- words of an uncached code page fetched and not issued (R114, R116) -/
  fbuf     : Table W32
  /-- floors: location key → position in its home order (R266) -/
  floors   : Table Nat
  /-- vector accesses that a page fault held when the task was stopped, to be performed again (R180, R317) -/
  replay   : List Flight
  /-- the model's own: the word that issued last, which a context that waits inside it carries on (R116, R130) -/
  word     : Option Instr
  deriving DecidableEq, Repr

def Ctx.init : Ctx :=
  { live := false, pc := 0, g := Vector.replicate 32 0, v := Vector.replicate 32 (Lanes.fill 0), p := Vector.replicate 8 0,
    hg := Vector.replicate 8 0, rmode := 0, tbase := 0, cairnpc := 0, cause := 0, epc := 0, faddr := 0, finfo := 0,
    fseq := 0, xstat := 0, mshape := 0x007F7F7F, image := none, pend := [], readyAt := 0, park := .no, anchor := false,
    dly := false, suppress := 0, issued := 0, fault := none, defer := none, left := none, answer := none, fbuf := [],
    floors := [], replay := [], word := none }

/-! ### The unified array (R91–R102, R326) -/

/-- STAMP, EXP and poison of a 512-byte granule (R98, R326). -/
structure Gran where
  stamp  : BitVec 16
  exp    : Bool
  poison : Bool
  deriving DecidableEq, Repr

/-- An entry of a FIFO bank or of a spill area: its arrival number, its value, its stamp (R101, R293, R298), and whether its
granule was poisoned (R326). -/
structure FifoEnt where
  n     : Nat
  val   : W64
  stamp : BitVec 16
  bad   : Bool
  deriving DecidableEq, Repr

/-- The contents of the banks that travel with an image (R320): scratch bytes by offset (unlisted: 0), granules
(unlisted: `base`), slot tags (unlisted: 0), FIFO entries by bank, oldest first, and SPCFG. -/
structure Banks where
  bytes : List Host.Cell
  gran  : Table Gran
  base  : Gran
  tags  : Table (BitVec 16)
  fifo  : Table (List FifoEnt)
  spcfg : W64
  deriving DecidableEq, Repr

/-- No scratch: banks 0–18 cache ways, bank 19 the save bank (R91, R92). -/
def Banks.init : Banks := { bytes := [], gran := [], base := ⟨0, false, false⟩, tags := [], fifo := [], spcfg := 0xC000000000 }

/-- A line held in the data cache (R94, R101, R218, R221): identifier, line address / 128, stamp, dirty, its valid sectors,
the cache-way bank that holds it, and the die of its home (4: another package). -/
structure Line where
  asid  : Asid
  line  : Nat
  stamp : BitVec 16
  dirty : Bool
  sect  : BitVec 4
  way   : Nat
  home  : Nat
  deriving DecidableEq, Repr

/-! ### Accumulator pairs and the ladder (R105, R186, R198, R200, R205–R208) -/

/-- A tile with its side vectors, elements that differ from the first-start values only: `e` by 128·row + column
(unlisted: +0), MX by row (unlisted: −∞), SM by row (unlisted: +0), and the cycle the tile is settled (R195). -/
structure TileSt where
  e       : Table W32
  mx      : Table W32
  sm      : Table W32
  settled : Nat
  deriving DecidableEq, Repr
def TileSt.init : TileSt := ⟨[], [], [], 0⟩

/-- A ladder configuration (R205–R208): extents, MERGE, weights, rungs as lists of RROWS·RCOLS values, OCC, counter. -/
structure Ladder where
  rows  : Nat
  cols  : Nat
  merge : BitVec 2
  wa    : W32
  wb    : W32
  w     : List W32
  rungs : Table (List W32)
  occ   : BitVec 16
  count : Nat
  deriving DecidableEq, Repr

/-- Ring registers of R186: as they stand, and a value that becomes theirs for commands that start after a cycle (R193). -/
structure RingReg where
  base : Nat
  step : Nat
  len  : Nat
  deriving DecidableEq, Repr

/-- A pair of tiles and what moves with it (R105, R186, R200, R205). -/
structure Pair where
  t0   : TileSt
  t1   : TileSt
  prog : List (BitVec 16)
  ring : RingReg
  ringNext : List (Nat × RingReg)
  ladder : Option Ladder
  deriving DecidableEq, Repr
def Pair.init : Pair := { t0 := .init, t1 := .init, prog := [], ring := ⟨0, 0, 0⟩, ringNext := [], ladder := none }

/-! ### Slots, tasks and images (R74, R318–R321) -/

/-- What the curator copies from the TCB at bind (R13, R14). -/
structure TaskCopy where
  entry   : W64
  succ    : W64
  scratch : Nat
  wins    : Vector (W64 × W64) 8
  deriving DecidableEq, Repr
def TaskCopy.init : TaskCopy := ⟨0, 0, 0, Vector.replicate 8 (0, 0)⟩

/-- A saved context of an image: the registers, and how it resumes (R317, R318). -/
structure SavedCtx where
  idx  : Nat
  ctx  : Ctx
  deriving DecidableEq, Repr

/-- The task area of an image (R318). -/
structure TaskArea where
  wstat    : W64
  guardrec : W64
  check    : W64
  utvec    : W64
  utmask   : W64
  spkeep   : W64
  resinfo  : W64
  live     : BitVec 11
  deriving DecidableEq, Repr
def TaskArea.init : TaskArea := ⟨0, 0, 0, 0, 0, 0, 0, 0⟩

/-- The image of a task that is not on the core: register sets, task area, banks, and after a spill to HBM its pair
(R318, R320, R321). `lost`: a fresh granule was not kept. -/
structure Image where
  slot  : Nat
  ctxs  : List SavedCtx
  area  : TaskArea
  banks : Banks
  pair  : Pair
  tsave : BitVec 16
  lost  : Bool
  hbm   : Bool
  /-- uncorrectable 64-bit words of the save bank (R326) -/
  bad   : List Nat
  deriving DecidableEq, Repr

/-- A slot of the slot table (R74), and what the device keeps with it. -/
structure Slot where
  v      : Bool
  pe     : Bool
  prio   : BitVec 3
  pitch  : BitVec 4
  ctxloc : BitVec 2
  asid   : Asid
  queue  : BitVec 6
  taskid : W32
  tcb    : W64
  start  : W64
  spill  : W64
  /-- the number of the bind: names the task for append rights and late writes (R223, R367) -/
  bind   : Nat
  copy   : TaskCopy
  /-- dispatch has made the task BOUND (R75) -/
  bound  : Bool
  /-- counted tick boundaries (R80) -/
  wd     : Nat
  /-- a latched cancel event (R79) -/
  cancel : Bool
  /-- the event latch (R291) -/
  event  : Bool
  /-- messages in the spill area with their arrival numbers, oldest first (R298) -/
  msgs   : List FifoEnt
  /-- unread entries of rope queues moved to the spill area, by queue (R101, R243) -/
  spilled : Table (List FifoEnt)
  /-- the image in HBM (R321) -/
  hbm    : Option Image
  deriving DecidableEq, Repr
def Slot.init : Slot :=
  { v := false, pe := false, prio := 0, pitch := 0, ctxloc := 0, asid := 0, queue := 0, taskid := 0, tcb := 0, start := 0,
    spill := 0, bind := 0, copy := .init, bound := false, wd := 0, cancel := false, event := false, msgs := [],
    spilled := [], hbm := none }

/-- An entry of the dispatch ring (R315), with the cycle its word issued and whether that was in handler mode. -/
structure RingEnt where
  seq  : BitVec 6
  word : W32
  ctx  : Nat
  st   : Bool
  cp   : Bool
  fl   : Bool
  pc   : VA
  at'  : Nat
  hm   : Bool
  deriving DecidableEq, Repr

/-- One core (R86–R97). -/
structure Core where
  ctxs     : Table Ctx
  /-- the context that issued last (R129) -/
  last     : Nat
  /-- the next cycle whose issue slot is free (R129) -/
  slotAt   : Nat
  slots    : Table Slot
  /-- the slot whose task is on the core (R76) -/
  on       : Option Nat
  check    : W64
  guardrec : W64
  pitch    : W64
  wins     : Vector (W64 × W64) 8
  wstat    : W64
  utvec    : W64
  utmask   : W64
  spkeep   : W64
  resinfo  : W64
  banks    : Banks
  /-- the cycle in which the zeroing of a bind ends (R93) -/
  zeroAt   : Nat
  /-- granules that a `RENEW` has not rewritten by now, with the cycles of their rewrites (R244) -/
  renewing : List (Nat × Nat)
  lines    : List Line
  /-- instruction-cache words: location key → word (R115) -/
  icache   : Table W32
  ring     : List RingEnt
  ringCtr  : BitVec 6
  active   : Pair
  shadow   : Pair
  /-- the image in the save bank (R318) -/
  save     : Option Image
  /-- the bivouac store (R320) -/
  biv      : Option Image
  /-- an image has come in with `BXCH` and is to be resumed (R331) -/
  restored : Option Image
  /-- context 0 as a pre-emption stopped it, or as `CTXLD` loaded it, while it runs the handler (R317, R318) -/
  stopped  : Option Ctx
  /-- slot table index the exchange brings in (R320) -/
  incoming : Option Nat
  preempt  : Bool
  /-- a failure under way: REASON (R310) -/
  failing  : Option Nat
  /-- halted-fault, or halted by a watchdog or over-temperature: REASON (R313, R81, R343) -/
  halted   : Option Nat
  /-- 8-byte words of the handler region with an uncorrectable error, by number (R117) -/
  badWords : List Nat
  /-- a `TRAP` post held by a full report ring: context, code (R336) -/
  held     : Option (Nat × Nat)
  deriving DecidableEq, Repr
def Core.init : Core :=
  { ctxs := [], last := 0, slotAt := 0, slots := [], on := none, check := 0, guardrec := 0, pitch := 0,
    wins := Vector.replicate 8 (0, 0), wstat := 0, utvec := 0, utmask := 0, spkeep := 0, resinfo := 0, banks := .init, zeroAt := 0, renewing := [],
    lines := [], icache := [], ring := [], ringCtr := 0, active := .init, shadow := .init, save := none,
    biv := none, restored := none, stopped := none, incoming := none, preempt := false, failing := none, halted := none, badWords := [], held := none }

/-! ### Ropes (R103, R190, R207, R250, R304) -/

/-- The lease of a rope: the holder, the grant's cycle, commands started in the run (R103). -/
structure Lease where
  core : Nat
  at'  : Nat
  cmds : Nat
  /-- the grant's cycle and the commands of the run before, which the cycle in which that run ends still shows (R191) -/
  before : Nat × Nat
  deriving DecidableEq, Repr

/-- One rope: the lease, the last holder, the waiting contexts (16 · core + context, with the cycle in which the request reaches the
arbiter), the core that an arbitration chose while a feed still ran, the first cycles in which the array and the ladder are free,
and the last start of each copy engine. -/
structure Rope where
  lease   : Option Lease
  last    : Nat
  waiting : List (Nat × Nat)
  chosen  : Option Nat
  arrayBusy  : Nat
  ladderBusy : Nat
  copy0   : Option Nat
  copy1   : Option Nat
  deriving DecidableEq, Repr
/-- Before the first grant the last holder counts as core 7 (R103). -/
def Rope.init : Rope := { lease := none, last := 7, waiting := [], chosen := none, arrayBusy := 0, ladderBusy := 0, copy0 := none, copy1 := none }

/-! ### Memory: locations, publication (R263–R272) -/

/-- One store in the home order of an aligned 8-byte word: the word's value after it, and the cycle it was performed. -/
structure Ver where
  val : W64
  at' : Nat
  deriving DecidableEq, Repr

/-- The home order of a word of a write-back page: its physical address, the stores newest first (the last entry is the
initial value), the bytes memory does not have yet (R218, R263), and the position that stood when every copy of the word was
dropped (R229). -/
structure Loc where
  pa    : Nat
  vers  : List Ver
  dirty : BitVec 8
  least : Nat
  deriving DecidableEq, Repr

/-- What an agent has made visible at a scope (R267): location key → position. -/
structure Pub where
  agent : Nat
  scope : Scope
  seen  : Table Nat
  deriving DecidableEq, Repr

/-- A translation cached at the slices (R215): both words of the entry and its location. -/
structure Tlb where
  asid : Asid
  w0   : W64
  w8   : W64
  pte  : Nat
  deriving DecidableEq, Repr

/-! ### Vitrine records, belays (R223–R225, R288) -/

inductive VState | open' | sealed | recalling
  deriving DecidableEq, Repr

/-- A claim whose place in the page is taken: where it begins and ends, whether its data is written (R225), and the page's
physical address. -/
structure Claim where
  id    : Nat
  start : Nat
  stop  : Nat
  done  : Bool
  pa    : Nat
  deriving DecidableEq, Repr

/-- HOLDER: core, context, bind (R223). -/
structure Holder where
  core : Nat
  ctx  : Nat
  bind : Nat
  deriving DecidableEq, Repr

/-- A vitrine record (R223). PRES lists holders: dies 0–3, packages 4 + p. -/
structure VRec where
  state  : VState
  rtail  : Nat
  ptail  : Nat
  claims : List Claim
  holder : Option Holder
  pres   : List Nat
  deriving DecidableEq, Repr

/-- A belay counter (R288): COUNT, EXPECT, GEN, and who arrived in the present count: (child, word). -/
structure BCount where
  count  : Nat
  expect : Nat
  gen    : BitVec 16
  who    : List Nat
  /-- children whose arrivals completed a count that is not yet released, by count, oldest first -/
  sent   : List (List Nat)
  deriving DecidableEq, Repr
def BCount.init : BCount := ⟨0, 0, 0, [], []⟩

/-! ### Provenance records (R53, R55) -/

/-- A node record (R53). -/
structure Node where
  parent : Nat
  kids   : Nat
  rank   : Nat
  fmt    : Nat
  blog   : Nat
  ndim   : Nat
  enc    : Nat
  sealed : Bool
  depth  : Nat
  state  : Nat
  dims   : Vector Nat 4
  dbase  : Nat
  dsize  : Nat
  count  : Nat
  deriving DecidableEq, Repr

/-- The copy of a record that dies' provenance caches may still hold until the change of it completes (R55). -/
structure OldRec where
  asid : Asid
  h    : Nat
  node : Node
  until' : Nat
  deriving DecidableEq, Repr

/-! ### Engine commands (R181–R188) -/

/-- A write of a command that lands when the command completes: to scratch of a core (bytes at an offset, with a tag for
each slot and a stamp for whole granules), or to memory through the issuer's address space. -/
inductive CmdWrite
  | scratch (core off : Nat) (data : List Byte) (tag : Option (BitVec 16)) (stamp : Bool)
  | mem (va : VA) (data : List Byte)
  deriving DecidableEq, Repr

/-- Where a command stands: issued, started until a cycle, or held on a page fault (R251). -/
inductive CmdPhase | waiting | running | held
  deriving DecidableEq, Repr

/-- An engine command that has issued and not completed. -/
structure Cmd where
  id     : Nat
  core   : Nat
  ctx    : Nat
  bind   : Nat
  instr  : Instr
  a      : W64
  b      : W64
  start  : Nat
  issued : Nat
  asid   : Asid
  mshape : W64
  seq    : BitVec 6
  word   : W32
  phase  : CmdPhase
  floors : Table Nat
  writes : List CmdWrite
  comp   : Option (W64 × W64)
  /-- the vitrine claim of a `COPY.apnd`: page, claim -/
  claim  : Option (Nat × Nat)
  poison : Bool
  /-- what a copy read when it started: the words of its record, its scratch source, and the chain of its node (R63) -/
  recWords : List W64
  src    : List Byte
  chain  : List (Nat × Node)
  /-- when an array or ladder command has made its reads of scratch: the end of its feed (R197, R367) -/
  fedBy  : Nat
  deriving DecidableEq, Repr

/-! ### Fabric (R301–R304) -/

/-- A transfer in flight (R302): where its bytes come from and go (`dst` is the group and offset of an `FMCAST`). -/
structure Xfer where
  id   : Nat
  core : Nat
  ctx  : Nat
  bind : Nat
  asid : Asid
  mcast : Bool
  src  : VA
  dst  : W64
  len  : Nat
  comp : W64
  floors : Table Nat
  /-- the bytes of a source in scratch, read at issue, and the poison met in them -/
  data : List Byte
  bad  : Option W64
  deriving DecidableEq, Repr

/-- What this package's router has sent on a port (R304, R341): a flit of an `FMCAST`, the partial of a round to the parent, or the
outcome of a round to a child, with the result where `ALL` asks for it. -/
inductive FabricOut
  | flit (port group off : Nat) (data : List Byte)
  | partial' (port group : Nat) (seq : W32) (op : ROp) (elems : Nat) (vals : List W32) (bad : Bool)
  | outcome (port group : Nat) (seq : W32) (bad : Bool) (vals : Option (List W32))
  deriving DecidableEq, Repr

/-- A contribution or partial of a reduction round: port (none: the own member's; a core for a rope), operator, ELEMS,
values, mismatch mark. -/
structure Part where
  port : Option Nat
  op   : ROp
  elems : Nat
  vals : List W32
  bad  : Bool
  deriving DecidableEq, Repr

/-- A member of a round that waits for the outcome (R304): where its descriptor lies and what it names. -/
structure Member where
  core : Nat
  ctx  : Nat
  bind : Nat
  asid : Asid
  desc : VA
  dest : W64
  comp : W64
  all  : Bool
  deriving DecidableEq, Repr

/-- A reduction round (R304). -/
structure Round where
  key  : RedKey
  seq  : W32
  parts : List Part
  members : List Member
  sent : Bool
  deriving DecidableEq, Repr

/-! ### Host queues, functions, records (R67–R72, R21–R24) -/

/-- The register block of a host queue (R70), and what the device keeps with it. -/
structure QBlock where
  qbase  : W64
  qtail  : W32
  qhead  : W32
  cfg    : W64
  slice  : W64
  qmask  : BitVec 192
  en     : Bool
  errvec : BitVec 16
  err    : BitVec 8
  age    : BitVec 24
  eprio  : BitVec 3
  /-- ready TCBs: (identifier, address), the one that became READY first in front (R73) -/
  ready  : List (Asid × Nat)
  /-- a task was bound since the last boundary (R78) -/
  bound  : Bool
  /-- records that have been made eligible by a tail write (R71) -/
  seen   : W32
  deriving DecidableEq, Repr
def QBlock.init : QBlock :=
  { qbase := 0, qtail := 0, qhead := 0, cfg := 0, slice := 0, qmask := 0, en := false, errvec := 0, err := 0, age := 0,
    eprio := 0, ready := [], bound := false, seen := 0 }

/-- A function-table entry (R67). -/
structure FEntry where
  fropes : BitVec 192
  w18    : W64
  /-- vectors masked by a function-level reset until the driver unmasks them (R82) -/
  masked : Bool
  deriving DecidableEq, Repr
def FEntry.init : FEntry := ⟨0, 0, false⟩

/-- A record processed and not settled (R23, R24): the queue, its words, and how often each outcome was counted;
`waiting`: TCBs still to end. -/
structure Rec where
  id    : Nat
  queue : Nat
  kind  : Nat
  flags : Nat
  asid  : Asid
  rcomp : W64
  rstat : W64
  vec   : Nat
  waiting : List Nat
  done  : Nat
  failed : Nat
  cancelled : Nat
  rejected : Nat
  /-- an addition to RCOMP was dropped (R24) -/
  bad : Bool
  deriving DecidableEq, Repr

/-- The other registers of BAR0 (R69, R215, R227–R231, R336, R339–R343). -/
structure HostRegs where
  idtbase : W64
  xva     : W64
  xreg    : W64
  heatbase : W64
  heatctl : W64
  migbase : W64
  migtail : W32
  mighead : W32
  migctl  : W64
  rlbase  : W64
  rlcount : W64
  plbase  : W64
  plcount : W64
  rlctl   : W64
  plcap   : W64
  fwbase  : W64
  fwstat  : BitVec 8
  attbuf  : W64
  attctl  : W64
  fabid   : W64
  gtbase  : W64
  gtlog   : W64
  pwrcap  : W64
  telem   : W64
  crbase  : W64
  crlog   : W64
  crhead  : W32
  crtail  : W32
  crdrop  : Bool
  crvec   : W64
  /-- LINK of each port (R342; unlisted: 0) -/
  link    : Table W64
  /-- resets since power-on (R340) -/
  resets  : Nat
  flrs    : Nat
  /-- VERSION of the loaded firmware (R340) -/
  version : W32
  /-- the resident handler region by byte (R117; unlisted: 0): the curator writes the same image of the firmware into every
  core's region and nothing else writes one (R339) -/
  himage  : List Host.Cell
  /-- header and body of the loaded firmware by offset, and their length; the loaded retirement list (R340) -/
  fwImage : List Host.Cell
  fwLen   : Nat
  rlist   : List W64
  deriving DecidableEq, Repr
def HostRegs.init : HostRegs :=
  { idtbase := 0, xva := 0, xreg := 0, heatbase := 0, heatctl := 0, migbase := 0, migtail := 0, mighead := 0, migctl := 0,
    rlbase := 0, rlcount := 0, plbase := 0, plcount := 0, rlctl := 0, plcap := 0, fwbase := 0, fwstat := 0, attbuf := 0,
    attctl := 0, fabid := 0, gtbase := 0, gtlog := 0, pwrcap := 0, telem := 0, crbase := 0, crlog := 0, crhead := 0,
    crtail := 0, crdrop := false, crvec := 0, link := [], resets := 0, flrs := 0, version := 0, himage := [], fwImage := [], fwLen := 0, rlist := [] }

/-- Latencies the manual gives only for planning, or bounds only from above (DESIGN CHOICE: log entry 6). -/
structure Lat where
  load   : Nat
  remote : Nat
  home   : Nat
  reclass : Nat
  icinv  : Nat
  flush  : Nat
  copy   : Nat
  fabric : Nat
  belay  : Nat
  evsig  : Nat
  msg    : Nat
  xlat   : Nat
  fail   : Nat
  trap   : Nat
  lineage : Nat
  recallWait : Nat
  deriving DecidableEq, Repr
/-- Planning figures of R210, R220, R116, R246, R226, R288, R291, R329, R332. -/
def Lat.init : Lat :=
  { load := 60, remote := 1800, home := 60, reclass := 2000, icinv := 40, flush := 2000, copy := 64, fabric := 360,
    belay := 12, evsig := 400, msg := 100, xlat := 3000, fail := 300, trap := 200, lineage := 180, recallWait := 3000 }

/-- The package. -/
structure State where
  /-- the device cycle counter (R136) -/
  now    : Nat
  /-- TICK of every core (R98) -/
  tick   : BitVec 16
  cores  : Table Core
  ropes  : Table Rope
  /-- physical memory by byte (unlisted: 0, DESIGN CHOICE: log entry 1) -/
  mem    : List Host.Cell
  locs   : Table Loc
  flights : List Flight
  pubs   : List Pub
  tlb    : List Tlb
  /-- the cycle of each die's last drop of remote lines (R221) -/
  dropAt : Table Nat
  /-- poisoned 128-byte physical lines (R232) and retired 64 KiB pages (R230) -/
  poison : List Nat
  retired : List Nat
  /-- corrected errors by row: times in ticks (R232) -/
  ecc    : Table (List Nat)
  vit    : Table VRec
  belays : List (BKey × BCount)
  /-- old copies of provenance records (R55) -/
  provOld : List OldRec
  cmds   : List Cmd
  xfers  : List Xfer
  rounds : List Round
  /-- what the fabric router has sent, the last first -/
  fabricOut : List FabricOut
  /-- decrements of `TDONE` that have been checked and not yet performed (R17) -/
  decs   : List (Asid × Nat × Nat)
  queues : Table QBlock
  funcs  : Table FEntry
  /-- the queue served last (R73) -/
  served : Nat
  recs   : List Rec
  regs   : HostRegs
  /-- heat counters RDS and WRS by page index (R227) -/
  heat   : Table (Nat × Nat)
  /-- vectors raised, the last first: function (64 the physical function) and vector (R85) -/
  msix   : List (Nat × Nat)
  /-- functions under reset, and the physical function's writes held for them (R82, R84) -/
  flr    : List Nat
  flrWrites : List (Nat × HostTarget × Nat × W64)
  /-- thermal level: 0 normal, 1 binds nothing, 2 pre-empted (R343) -/
  thermal : Nat
  /-- host link: none before training, true for CXL (R337) -/
  linkCxl : Option Bool
  /-- binds made (R223) -/
  binds  : Nat
  /-- the model's own: names for flights, commands, claims, waits and records -/
  next   : Nat
  /-- the model's own: the counter free values are applied to -/
  fresh  : Nat
  /-- the model's own: the core and context whose word is carried out -/
  act    : Nat × Nat
  /-- the model's own: events to come, by cycle -/
  queue  : List (Nat × Ev)
  lat    : Lat
  deriving DecidableEq, Repr

/-- The package right after reset: the clocks at zero, no task, nothing in memory, the first tick and the first ageing
boundary to come (R98, R136, R103, R339). A register with no stated reset value holds the value of DESIGN CHOICE: log entry 2;
the model's own fields hold those of DESIGN CHOICE: log entry 76. -/
def State.reset : State :=
  { now := 0, tick := 0, cores := [], ropes := [], mem := [], locs := [], flights := [], pubs := [], tlb := [], dropAt := [],
    poison := [], retired := [], ecc := [], vit := [], belays := [], provOld := [], cmds := [], xfers := [], rounds := [], fabricOut := [], decs := [],
    queues := [], funcs := [], served := 0, recs := [], regs := .init, heat := [], msix := [], flr := [], flrWrites := [],
    thermal := 0, linkCxl := none, binds := 0, next := 0, fresh := 0, act := (0, 0),
    queue := [(Config.tickCycles, .tick), (Config.ageCycles, .ageInterval)], lat := .init }

/-- The keys of a table ascend strictly. -/
def Table.ascending {α : Type} : Table α → Bool
  | [] => true
  | [_] => true
  | (j, _) :: (k, x) :: t => decide (j < k) && Table.ascending ((k, x) :: t)

/-- The canonical form of memory: addresses strictly rising, no entry equal to what an unlisted address reads as (0). -/
def Memory.wf (m : List Host.Cell) : Bool := Table.ascending m && m.all fun c => c.2 != 0

end Sys2Proof.Machine
end

