-- ==== Sys2Proof/Machine/Ops.lean ====
section
/-! DEFINITION. The named operations on registers, contexts, cores and events, and taking an exception and
returning from one (spec/05 R88; spec/08 R129–R136; spec/15 R305–R313). -/

namespace Sys2Proof.Machine

/-! ### Reading and writing tables of the state -/

/-- A core; one that nothing has touched is as after reset. -/
def State.core (s : State) (n : Nat) : Core := (Table.find? n s.cores).getD Core.init
def State.setCore (s : State) (n : Nat) (c : Core) : State := { s with cores := Table.put n c s.cores }
def State.onCore (s : State) (n : Nat) (f : Core → Core) : State := s.setCore n (f (s.core n))
/-- A context of a core. -/
def Core.ctx (c : Core) (k : Nat) : Ctx := (Table.find? k c.ctxs).getD Ctx.init
def Core.setCtx (c : Core) (k : Nat) (x : Ctx) : Core := { c with ctxs := Table.put k x c.ctxs }
def State.ctx (s : State) (n k : Nat) : Ctx := (s.core n).ctx k
def State.setCtx (s : State) (n k : Nat) (x : Ctx) : State := s.setCore n ((s.core n).setCtx k x)
def State.onCtx (s : State) (n k : Nat) (f : Ctx → Ctx) : State := s.setCtx n k (f (s.ctx n k))
/-- The acting core and context (DESIGN CHOICE: log entry 3). -/
def State.me (s : State) : Ctx := s.ctx s.act.1 s.act.2
def State.myCore (s : State) : Core := s.core s.act.1
def State.onMe (s : State) (f : Ctx → Ctx) : State := s.onCtx s.act.1 s.act.2 f
def State.onMyCore (s : State) (f : Core → Core) : State := s.onCore s.act.1 f
def State.rope (s : State) (r : Nat) : Rope := (Table.find? r s.ropes).getD Rope.init
def State.onRope (s : State) (r : Nat) (f : Rope → Rope) : State := { s with ropes := Table.put r (f (s.rope r)) s.ropes }
def Core.slot (c : Core) (j : Nat) : Slot := (Table.find? j c.slots).getD Slot.init
def Core.onSlot (c : Core) (j : Nat) (f : Slot → Slot) : Core := { c with slots := Table.put j (f (c.slot j)) c.slots }
def State.queueOf (s : State) (q : Nat) : QBlock := (Table.find? q s.queues).getD QBlock.init
def State.onQueue (s : State) (q : Nat) (f : QBlock → QBlock) : State := { s with queues := Table.put q (f (s.queueOf q)) s.queues }
def State.func (s : State) (f : Nat) : FEntry := (Table.find? f s.funcs).getD FEntry.init
/-- The slot whose task is on the core, and its identifier (R76). -/
def Core.task (c : Core) : Slot := match c.on with | some j => c.slot j | none => Slot.init
def Core.onTask (c : Core) (f : Slot → Slot) : Core := match c.on with | some j => c.onSlot j f | none => c
def Core.asid (c : Core) : Asid := c.task.asid
def State.asid (s : State) : Asid := s.myCore.asid
/-- A context of the core is in handler mode (R308). -/
def Core.inHM (c : Core) : Bool := c.ctxs.any fun e => e.2.xstat.getLsbD 63
/-- The contexts of a core, by index. -/
def Core.live (c : Core) : List Nat := (c.ctxs.filter fun e => e.2.live).map (·.1)

/-! ### Places (R86, R9) -/

def dieOf (n : Nat) : Nat := n / 384
/-- The rope of a core, die × 48 + rope. -/
def ropeOf (n : Nat) : Nat := n / 8
/-- Bits 10:0 of COORD of a core (R86). -/
def coord11 (n : Nat) : BitVec 11 := BitVec.ofNat 11 (dieOf n * 512 + ropeOf n % 48 * 8 + n % 8)
/-- The core that bits 10:0 of COORD name, none where ROPE is above 47. -/
def coreOfCoord (w : BitVec 11) : Option Nat :=
  let r := (w.toNat / 8) % 64
  if r < 48 then some (w.toNat / 512 * 384 + r * 8 + w.toNat % 8) else none
/-- COORD of a context (R86). -/
def State.coord (s : State) (n k : Nat) : W64 :=
  BitVec.ofNat 64 (k * 2 ^ 28 + (s.regs.fabid.toNat % 1024) * 2 ^ 16 + (coord11 n).toNat)
/-- `b` lies within the scope of `a` (R265, R366). -/
def within (sc : Scope) (a b : Nat) : Bool :=
  match sc with
  | .device => a != Config.fabricAgent && b != Config.fabricAgent
  | .system => true
  | .core => a != Config.deviceAgent && a == b
  | .rope => a != Config.deviceAgent && b != Config.deviceAgent && a / 8 == b / 8
  | .die => a != Config.deviceAgent && b != Config.deviceAgent && a / 384 == b / 384

/-! ### Events to come (DESIGN CHOICE: log entry 6) -/

/-- The place of an event in its cycle: the start of an engine command sees what takes effect in its own cycle (R245) (DEDUCED: log entry
70); the end of a bound comes last, after the words of the cycle, so that a condition that holds in it wins (R189, R282). -/
def Ev.rank (e : Ev) : Nat :=
  match e with
  | .engineCommandStart _ _ => 1
  | .boundedWaitExpiry _ _ _ => 2
  | .wfeTimeout _ _ _ => 2
  | _ => 0
/-- Put an event into the list, after every event of an earlier cycle, and after those of its own that rank no later. -/
def evInsert (c : Nat) (i : Ev) : List (Nat × Ev) → List (Nat × Ev)
  | [] => [(c, i)]
  | (d, j) :: t => if c < d || (c == d && Ev.rank i < Ev.rank j) then (c, i) :: (d, j) :: t else (d, j) :: evInsert c i t
def State.at' (s : State) (c : Nat) (i : Ev) : State := { s with queue := evInsert c i s.queue }
/-- An event to come, after a delay (timing at arbiters is not modelled: DESIGN CHOICE: log entry 75). -/
def State.after (s : State) (d : Nat) (i : Ev) : State := s.at' (s.now + d) i
/-- Put an event before every event of the same or a later cycle. -/
def evFirst (c : Nat) (i : Ev) : List (Nat × Ev) → List (Nat × Ev)
  | [] => [(c, i)]
  | (d, j) :: t => if d < c then (d, j) :: evFirst c i t else (c, i) :: (d, j) :: t
def State.firstAt (s : State) (c : Nat) (i : Ev) : State := { s with queue := evFirst c i s.queue }
def State.newId (s : State) : Nat × State := (s.next, { s with next := s.next + 1 })
/-- A free number, and the counter advanced. -/
def State.freshen (s : State) : Nat × State := (s.fresh, { s with fresh := s.fresh + 1 })

/-! ### Registers (R88, R112, R132, R133, R163, R308) -/

/-- In handler mode; a delegated trap is being handled (R309). -/
def Ctx.hm (c : Ctx) : Bool := c.xstat.getLsbD 63
def Ctx.ut (c : Ctx) : Bool := c.xstat.getLsbD 62
def regIdx (r : BitVec 5) : Fin 32 := ⟨r.toNat, r.isLt⟩
def bankIdx (r : BitVec 5) : Fin 8 := ⟨(r.toNat - 24) % 8, Nat.mod_lt _ (by decide)⟩
def predIdx (p : BitVec 3) : Fin 8 := ⟨p.toNat, p.isLt⟩
/-- A general register: g0 reads zero (DEDUCED: log entry 4), g24–g31 name the bank in handler mode (R308). -/
def Ctx.gget (c : Ctx) (r : Reg) : W64 :=
  if r = 0 then 0 else if c.hm && 24 ≤ r.toNat then c.hg.get (bankIdx r) else c.g.get (regIdx r)
/-- Write a general register at once. -/
def Ctx.gsetIn (c : Ctx) (h : Bool) (r : Reg) (x : W64) : Ctx :=
  if r = 0 then c
  else if h && 24 ≤ r.toNat then { c with hg := c.hg.set (bankIdx r) x } else { c with g := c.g.set (regIdx r) x }
def Ctx.gset (c : Ctx) (r : Reg) (x : W64) : Ctx := c.gsetIn c.hm r x
def Ctx.vget (c : Ctx) (r : VReg) : Lanes := c.v.get (regIdx r)
/-- A predicate register: p0 reads all ones (R163). -/
def Ctx.pget (c : Ctx) (r : PReg) : W64 := if r = 0 then 0xFFFFFFFFFFFFFFFF else c.p.get (predIdx r)
/-- Lanes of a vector register whose bit is set. -/
def Ctx.vsetLanes (c : Ctx) (r : VReg) (m : BitVec 16) (x : Lanes) : Ctx :=
  { c with v := c.v.set (regIdx r) (Vector.ofFn fun i => if m.getLsbD i.val then x.get i else (c.vget r).get i) }
def Ctx.pset (c : Ctx) (r : PReg) (x : W64) : Ctx := if r = 0 then c else { c with p := c.p.set (predIdx r) (x &&& 0xFFFF) }

/-- A fault's report reaches a context (R167): the one with the earliest issue is kept. A context parked on a condition, in
`BELAY` after its arrival or by `DLY` is woken. -/
def Ctx.reported (c : Ctx) (now : Nat) (f : ImpFault) : Ctx :=
  let parked := match c.park with | .cond _ => true | .belay _ _ _ => true | _ => false
  { c with
    fault := match c.fault with | some o => if f.at' < o.at' then some f else some o | none => some f
    park := if parked then .no else c.park
    readyAt := if !parked && c.dly then now else c.readyAt
    dly := parked && c.dly }
/-- A reported fault is taken before the next word (R167); one that the task met waits until handler mode is left. -/
def Ctx.faulted (c : Ctx) : Bool := match c.fault with | some f => f.hm || !c.hm | none => false
/-- The word at the PC has taken effect in part and waits for its home's answer, or for the record of its cairn: a report is taken
after it (R167, R317). -/
def Ctx.midway (c : Ctx) : Bool := c.park == .drain && c.answer.isSome

def Pend.time : Pend → Nat
  | .g t _ _ _ => t | .v t _ _ _ => t | .p t _ _ => t | .report t _ => t
/-- A result lands, or its report arrives. -/
def Pend.land (c : Ctx) : Pend → Ctx
  | .g _ h r x => c.gsetIn h r x
  | .v _ r m x => c.vsetLanes r m x
  | .p _ r x => c.pset r x
  | .report t f => c.reported t f
/-- A pending result among others in the order in which they land, those of one cycle in the order of issue (R133). -/
def Pend.insert (p : Pend) : List Pend → List Pend
  | [] => [p]
  | q :: t => if p.time < q.time then p :: q :: t else q :: p.insert t
def inTime (l : List Pend) : List Pend := l.foldl (fun a p => p.insert a) []
/-- Every result due by `now` lands (R133). -/
def Ctx.landAll (c : Ctx) (now : Nat) : Ctx :=
  (inTime (c.pend.filter fun p => p.time ≤ now)).foldl Pend.land { c with pend := c.pend.filter fun p => now < p.time }
/-- Every result lands, each as it would have. -/
def Ctx.landRest (c : Ctx) : Ctx := (inTime c.pend).foldl Pend.land { c with pend := [] }
/-- The cycle by which every report of a flag has arrived. -/
def Ctx.reportsBy (c : Ctx) : Nat := c.pend.foldl (fun a p => match p with | .report t _ => max a t | _ => a) 0
/-- Two names of one general register, each outside (`false`) or in handler mode (`true`), where g24–g31 are the bank (R308). -/
def sameReg (h h' : Bool) (q r : Reg) : Bool := decide (q = r) && (h == h' || decide (q.toNat < 24))
/-- Whether a pending result names the same register and lands by cycle `t`. -/
def Pend.overG (h : Bool) (r : Reg) (t : Nat) : Pend → Bool
  | .g u h' r' _ => sameReg h' h r' r && decide (u ≤ t)
  | .v _ _ _ _ => false
  | .p _ _ _ => false
  | .report _ _ => false
/-- A fixed-latency result in a general register (R132, R133): with latency 1 it is in the register before the next
cycle, and an earlier result that lands with it is lost; otherwise it lands L cycles after `now`. -/
def Ctx.gput (c : Ctx) (now L : Nat) (r : Reg) (x : W64) : Ctx :=
  if r = 0 then c
  else if L ≤ 1 then { c.gset r x with pend := c.pend.filter fun p => !p.overG c.hm r (now + 1) }
  else { c with pend := c.pend ++ [.g (now + L) c.hm r x] }
/-- A fixed-latency result in the lanes of a vector register. -/
def Ctx.vput (c : Ctx) (now L : Nat) (r : VReg) (m : BitVec 16) (x : Lanes) : Ctx :=
  if L ≤ 1 then
    { c.vsetLanes r m x with pend := c.pend.map fun p => match p with
        | .v t r' m' y => if r' = r && t ≤ now + 1 then .v t r' (m' &&& ~~~m) y else p
        | .g _ _ _ _ => p
        | .p _ _ _ => p
        | .report _ _ => p }
  else { c with pend := c.pend ++ [.v (now + L) r m x] }
/-- A fixed-latency result in a predicate; a write of p0 is discarded (R163). -/
def Ctx.pput (c : Ctx) (now L : Nat) (r : PReg) (x : W64) : Ctx := if r = 0 then c else { c with pend := c.pend ++ [.p (now + L) r x] }

/-- Reads and writes of the acting context. -/
def State.g (s : State) (r : Reg) : W64 := s.me.gget r
def State.v (s : State) (r : VReg) : Lanes := s.me.vget r
def State.p (s : State) (r : PReg) : W64 := s.me.pget r
def State.gput (s : State) (L : Nat) (r : Reg) (x : W64) : State := s.onMe fun c => c.gput s.now L r x
/-- A result of variable latency that is there when the instruction completes (R135). -/
def State.gset (s : State) (r : Reg) (x : W64) : State := s.onMe fun c => c.gset r x
def State.vput (s : State) (L : Nat) (r : VReg) (m : BitVec 16) (x : Lanes) : State := s.onMe fun c => c.vput s.now L r m x
def State.pput (s : State) (L : Nat) (r : PReg) (x : W64) : State := s.onMe fun c => c.pput s.now L r x
/-- MODE of the acting context (R43). -/
def State.mode (s : State) : RM := RM.ofMode (s.me.rmode.extractLsb' 0 2)

/-! ### Program counter and transfers (R113, R117, R130, R368) -/

def resLo : Nat := 0x00FFFFFFFFFF0000
def resHi : Nat := 0x00FFFFFFFFFF2000
/-- In the core-local aperture (R95). -/
def inLocal (va : VA) : Bool := 0x00FFFFFFFFF00000 ≤ va.toNat
/-- In the rope aperture (R238). -/
def inRope (va : VA) : Bool := 0x00FFFFFFFF800000 ≤ va.toNat && va.toNat < 0x00FFFFFFFFC00000
def inHandler (va : VA) : Bool := resLo ≤ va.toNat && va.toNat < resHi
/-- The address bits of a register. -/
def addr (x : W64) : VA := x.extractLsb' 0 56
def tagOf (x : W64) : Byte := x.extractLsb' 56 8
def ofVA (va : VA) : W64 := va.zeroExtend 64

/-! ### Taking an exception (R305–R313) -/

/-- What a trap reports: the cause, FADDR, FINFO. -/
structure Trap where
  cause : Nat
  faddr : W64
  finfo : W64
  deriving DecidableEq, Repr

/-- The causes R306 marks delegable. -/
def delegable (c : Nat) : Bool :=
  [0x01, 0x02, 0x03, 0x06, 0x07, 0x08, 0x09, 0x0D, 0x0E, 0x0F, 0x10, 0x11, 0x12, 0x13, 0x14, 0x15, 0x18, 0x20].contains c
/-- The mask of UTMASK bits that may be set (R311). -/
def delegableMask : W64 :=
  (codesBelow 64).foldl (fun m c => if delegable c then m ||| ((1 : W64) <<< c) else m) 0

/-- CAUSE of R305. -/
def causeWord (c : Nat) (imp dfr crn : Bool) : W64 :=
  BitVec.ofNat 64 (c + (if imp then 512 else 0) + (if crn then 1024 else 0) + (if dfr then 2048 else 0))

/-- Entry of the resident handler by a context (R308): XSTAT.HM and ENT, the handler bank, the vector, and the first
handler word 12 cycles later. -/
def Ctx.enter (c : Ctx) (now : Nat) (ent : BitVec 3) : Ctx :=
  { c with
    xstat := (c.xstat &&& 0x4000000000000000) ||| 0x8000000000000000 ||| (ent.zeroExtend 64 <<< 8)
    pc := BitVec.ofNat 56 (resLo + 0x100 * ent.toNat), readyAt := now + 12, park := .no, dly := false, fbuf := [], answer := none }

/-- A core that fails the task for REASON: no word outside handler mode issues, and TASK_FAILURE follows (R306, R310, DEDUCED: log entry 8). -/
def State.fail (s : State) (n reason : Nat) : State :=
  if (s.core n).failing.isSome then s
  else (s.onCore n fun c => { c with failing := some reason }).after s.lat.fail (.taskFailure n)

/-- A failure that no trap brought: outside handler mode its drain begins at once (R308, R310, R332). -/
def State.failTask (s : State) (n reason : Nat) : State :=
  if (s.core n).inHM || (s.core n).halted.isSome then s.fail n reason
  else if (s.core n).failing.isSome then s
  else (s.onCore n fun c => { c with failing := some reason }).after 1 (.taskFailure n)
/-- Halted-fault (R313): the core stops, and the task fails with the cause met, also while the handler fails it for another. -/
def State.haltFault (s : State) (n cause : Nat) : State :=
  (s.onCore n fun c => { c with halted := some cause, failing := c.failing.map fun _ => cause }).fail n cause

/-- The trap registers written (R305). -/
def Ctx.report (c : Ctx) (t : Trap) (epc : VA) (imp dfr crn : Bool) : Ctx :=
  { c with cause := causeWord t.cause imp dfr crn, epc := ofVA epc &&& 0xFFFFFFFFFFFFFFFC, faddr := t.faddr, finfo := t.finfo }

/-- A trap is delivered to the task's own handler (R311). -/
def State.delegates (s : State) (n k : Nat) (t : Trap) (imp : Bool) : Bool :=
  let c := s.ctx n k
  !imp && delegable t.cause && !c.ut && t.cause < 64 && (s.core n).utmask.getLsbD t.cause

/-- Taking an exception (R305–R311, R313): in handler mode the core enters halted-fault; a delegable precise or
deferred cause of UTMASK goes to UTVEC with UT set and V clear; otherwise the resident handler is entered, and every
cause but a software trap of code 32–63 fails the task (R306). -/
def State.takeTrap (s : State) (n k : Nat) (t : Trap) (epc : VA) (imp dfr crn : Bool) : State :=
  let c := s.ctx n k
  if c.hm then s.haltFault n t.cause
  else if s.delegates n k t imp then
    let vec := addr (s.core n).utvec
    if inLocal vec || inRope vec then
      let s1 := s.onCtx n k fun c =>
        ({ c with xstat := c.xstat ||| 0x4000000000000000 }.report ⟨0x06, ofVA vec, 0⟩ epc false false false).enter s.now 0
      s1.fail n 0x06
    else s.onCtx n k fun c =>
      { c.report t epc imp dfr crn with
        xstat := c.xstat ||| 0x4000000000000000, cairnpc := c.cairnpc &&& 0x7FFFFFFFFFFFFFFF, pc := vec, readyAt := s.now + 3,
        park := .no, fbuf := [], answer := none }
  else
    let s1 := s.onCtx n k fun c => (c.report t epc imp dfr crn).enter s.now (if imp then 1 else 0)
    if t.cause = 0x20 && 32 ≤ t.finfo.toNat && !c.ut then s1.after s.lat.trap (.handlerEntry n k 0)
    else s1.fail n t.cause

/-- A precise trap at the acting context's present word. -/
def State.trap (s : State) (t : Trap) : State := s.takeTrap s.act.1 s.act.2 t s.me.pc false false false
/-- A precise trap with no address and no information. -/
def State.trap0 (s : State) (cause : Nat) : State := s.trap ⟨cause, 0, 0⟩
/-- The illegal-instruction trap for a word: EPC and FADDR hold its address, FINFO the word (R118) (DEDUCED: log entry 13). -/
def State.illegal (s : State) (w : W32) : State := s.trap ⟨0x01, ofVA s.me.pc, w.zeroExtend 64⟩
/-- A deferred trap (R307). -/
def State.deferred (s : State) (t : Trap) : State := s.takeTrap s.act.1 s.act.2 t s.me.pc false true false
/-- The word of an instruction, zero for a step of the device. -/
def wordOf (i : Instr) : W32 := (encode i).getD 0

/-- The return from a trap (R312): out of handler mode, or out of the task's handler; the PC becomes EPC. The stall count of the word
counts beside the three cycles (R109). -/
def Ctx.leaveTrap (c : Ctx) (now : Nat) (st : Stall) : Ctx :=
  { c with xstat := if c.hm then c.xstat &&& 0x7FFFFFFFFFFFFFFF else c.xstat &&& 0xBFFFFFFFFFFFFFFF,
           pc := addr c.epc, readyAt := max (now + 3) (now + 1 + st.toNat), fbuf := [] }

/-- The entry FSEQ names (R315). -/
def Core.ringAt (c : Core) (seq : BitVec 6) : Option RingEnt := c.ring.find? fun e => e.seq == seq
/-- What was met, with when its instruction issued. -/
def Core.impFault (c : Core) (m : Met) : ImpFault :=
  match c.ringAt m.seq with | some e => ⟨m, e.at', e.hm⟩ | none => ⟨m, 0, false⟩
/-- A ring entry is marked as having faulted (R315). -/
def Core.ringFaulted (c : Core) (seq : BitVec 6) : Core :=
  { c with ring := c.ring.map fun e => if e.seq = seq then { e with fl := true } else e }
/-- A context waits for the lease of its rope: in `LEASE` or `LEASEB`, or at a retry (R103, R140). -/
def Ctx.asksLease (c : Ctx) : Bool :=
  match c.park with
  | .cond w => (match w.instr with | .lease _ => true | .leaseb _ _ => true | _ => false)
  | .retry _ l => l
  | _ => false
/-- The requests of contexts that wait no longer are withdrawn (R167, R189). -/
def State.unaskGone (s : State) : State :=
  { s with ropes := s.ropes.map fun e =>
      (e.1, { e.2 with waiting := e.2.waiting.filter fun w => (s.ctx (w.1 / 16) (w.1 % 16)).asksLease }) }
/-- What is met is noted for the context's next release or acquire (R285); the first one stays. -/
def Ctx.defers (c : Ctx) (m : Nat × W64) : Ctx := { c with defer := c.defer.orElse fun _ => some m }
/-- A context of an image. -/
def Image.onCtx (i : Image) (k : Nat) (f : Ctx → Ctx) : Image :=
  { i with ctxs := i.ctxs.map fun e => if e.idx = k then { e with ctx := f e.ctx } else e }
/-- The task of a bind is on the core. -/
def Core.runs (c : Core) (bind : Nat) : Bool := c.on.isSome && c.task.bind == bind
/-- What a context of a bind is told of a command or a transfer that outlives its run on the core (R251, R302, R367): the context where
it stands, stopped or running, and its set in every image of the task. -/
def Core.tell (c : Core) (bind k : Nat) (f : Ctx → Ctx) : Core :=
  let img := fun (i : Image) => if (c.slot i.slot).bind = bind then i.onCtx k f else i
  let c1 := { c with
    save := c.save.map img, biv := c.biv.map img, restored := c.restored.map img
    slots := c.slots.map fun e => (e.1, if e.2.bind = bind then { e.2 with hbm := e.2.hbm.map fun i => i.onCtx k f } else e.2) }
  if !c.runs bind then c1
  else match c.stopped with
    | some t => if k = 0 then { c1 with stopped := some (f t) } else c1.setCtx k (f (c1.ctx k))
    | none => c1.setCtx k (f (c1.ctx k))
/-- Report an imprecise fault to a context (R167): its ring entry is marked (R315), and a wait for the lease is withdrawn. -/
def State.reportImprecise (s : State) (n k : Nat) (m : Met) : State :=
  ((s.onCore n fun c => c.ringFaulted m.seq).onCtx n k fun c => c.reported s.now ((s.core n).impFault m)).unaskGone

/-! ### Transfers -/

/-- A target a task context may not go to (R117, R368). -/
def badTarget (c : Ctx) (va : VA) : Bool := !c.hm && (inLocal va || inRope va)
/-- A taken transfer: the target issues no earlier than b + 3 + S (R130). -/
def Ctx.redirect (c : Ctx) (now : Nat) (st : Stall) (va : VA) : Ctx :=
  { c with pc := va, readyAt := now + 3 + st.toNat, fbuf := [] }
/-- A transfer of the acting context, with R117's and R368's check against the word at `pc`. -/
def State.goTo (s : State) (pc : VA) (st : Stall) (va : VA) (link : State → State) : State :=
  if badTarget s.me va then s.takeTrap s.act.1 s.act.2 ⟨0x06, ofVA va, 0⟩ pc false false false
  else (link s).onMe fun c => c.redirect s.now st va
/-- A register target (R113): the trap it raises, or none. -/
def badRegTarget (x : W64) : Option Trap :=
  if x.extractLsb' 0 2 ≠ 0 then some ⟨0x03, x, 0⟩ else if tagOf x ≠ 0 then some ⟨0x07, x, 0⟩ else none

/-- The count kept for the word at the PC (R282). -/
def Ctx.leftHere (c : Ctx) : Option Nat := match c.left with | some (p, n) => if p = c.pc.toNat then some n else none | none => none

/-! ### Cairns (R131, R137) -/

def Ctx.cairnV (c : Ctx) : Bool := c.cairnpc.getLsbD 63
def Ctx.nfx (c : Ctx) : Nat := (c.cairnpc.extractLsb' 56 6).toNat
def Ctx.rcnt (c : Ctx) : Nat := (c.cairnpc.extractLsb' 0 2).toNat
def Ctx.imageNow (c : Ctx) : CairnImage := ⟨c.g, c.v, c.p, c.mshape⟩
/-- CAIRNPC of given fields (R131). -/
def cairnWord (v l : Bool) (nfx : Nat) (pc : VA) (rcnt : Nat) : W64 :=
  (if v then 0x8000000000000000 else 0) ||| (if l then 0x4000000000000000 else 0) |||
    BitVec.ofNat 64 (nfx % 64 * 2 ^ 56) ||| (ofVA pc &&& 0x00FFFFFFFFFFFFFC) ||| BitVec.ofNat 64 (rcnt % 4)
/-- Record a cairn at the next word (R137): NFX and RCNT 0, and CairnImage. -/
def Ctx.recordCairn (c : Ctx) (lease : Bool) (pc : VA) : Ctx :=
  { c with cairnpc := cairnWord true lease 0 pc 0, image := some c.imageNow, issued := 0, suppress := 0 }
/-- The core holds its rope's lease (R103). -/
def State.holdsLease (s : State) (n : Nat) : Bool :=
  match (s.rope (ropeOf n)).lease with | some l => l.core == n | none => false
/-- A context's request is withdrawn. -/
def State.unaskLease (s : State) (n k : Nat) : State :=
  s.onRope (ropeOf n) fun x => { x with waiting := x.waiting.filter fun w => w.1 != 16 * n + k }
/-- The commands of a context that have issued and not started (R137, R182). -/
def State.unstarted (s : State) (n k : Nat) : List Cmd := s.cmds.filter fun c => c.core == n && c.ctx == k && c.phase == .waiting
def State.coreUnstarted (s : State) (n : Nat) : List Cmd := s.cmds.filter fun c => c.core == n && c.phase == .waiting

end Sys2Proof.Machine
end

