-- ==== Sys2Proof/Machine/Mem.lean ====
section
/-! DEFINITION. Memory: physical bytes, the hashed page table, classes and permissions, home orders with floors,
publication by release and acquire (spec/11 R210–R222, R232; spec/13 R263–R281; spec/12 R233, R246). -/

namespace Sys2Proof.Machine

/-! ### Bytes in canonical form (DESIGN CHOICE: log entry 1: an unlisted byte reads 0) -/

/-- Read one byte of a sparse byte list. -/
def cellGet (m : List Host.Cell) (a : Nat) : Byte := (Table.find? a m).getD 0
/-- Write one byte; a zero byte is not listed. -/
def cellPut (m : List Host.Cell) (a : Nat) (b : Byte) : List Host.Cell := if b = 0 then Table.del a m else Table.put a b m
/-- Little-endian value of `n` bytes (R37, R234). -/
def cellsLE (m : List Host.Cell) (a : Nat) : Nat → Nat
  | 0 => 0
  | n + 1 => (cellGet m a).toNat + 256 * cellsLE m (a + 1) n
/-- Store `n` bytes of a value, little-endian. -/
def cellsPutLE (m : List Host.Cell) (a : Nat) : Nat → Nat → List Host.Cell
  | 0, _ => m
  | n + 1, x => cellsPutLE (cellPut m a (BitVec.ofNat 8 x)) (a + 1) n (x / 256)
/-- Store a list of bytes. -/
def cellsPut (m : List Host.Cell) (a : Nat) : List Byte → List Host.Cell
  | [] => m
  | b :: bs => cellsPut (cellPut m a b) (a + 1) bs

/-- A byte of physical memory. -/
def State.byte (s : State) (pa : Nat) : Byte := cellGet s.mem pa
/-- `n` bytes of physical memory, little-endian. -/
def State.phys (s : State) (pa n : Nat) : Nat := cellsLE s.mem pa n
def State.phys64 (s : State) (pa : Nat) : W64 := BitVec.ofNat 64 (s.phys pa 8)
def State.setPhys (s : State) (pa n x : Nat) : State := { s with mem := cellsPutLE s.mem pa n x }

/-! ### Physical ranges (R211) -/

inductive PRange | hbm | device | cxl (p : Nat) | expander | remote (pkg : Nat) | none
  deriving DecidableEq, Repr

def physRange (pa : Nat) : PRange :=
  if pa < 2 ^ 39 then .hbm
  else if pa < 2 ^ 40 then .device
  else if pa < 5 * 2 ^ 40 then .cxl (pa / 2 ^ 40 - 1)
  else if pa < 2 ^ 43 then .none
  else if pa < 2 ^ 44 then .expander
  else if pa < 2 ^ 51 then .none
  else if pa < 2 ^ 52 then .remote (pa / 2 ^ 41 % 1024)
  else .none

/-- HomeDie of R211 within a package. -/
def localDie (pa : Nat) : Nat :=
  match physRange pa with
  | .hbm => pa / 2 ^ 16 % 4
  | .device => pa / 2 ^ 37 % 4
  | .cxl p => p
  | .expander => pa / 2 ^ 16 % 4
  | .remote _ => 0
  | .none => 0
def isRemote (pa : Nat) : Bool := match physRange pa with | .remote _ => true | _ => false
/-- The die of an address's home, on the package that holds it: a remote one by that package's rule at PA[40:0] (R211, R212). -/
def homeDie (pa : Nat) : Nat := localDie (if isRemote pa then pa % 2 ^ 41 else pa)
/-- The package that holds an address (R211). -/
def State.homePackage (s : State) (pa : Nat) : Nat :=
  match physRange pa with | .remote p => p | _ => s.regs.fabid.toNat % 1024
/-- An access may go there: within a range, and not the issuing package by its remote address (R211). -/
def State.physOk (s : State) (pa : Nat) : Bool :=
  match physRange pa with
  | .none => false
  | .remote p => p != s.regs.fabid.toNat % 1024
  | .hbm | .device | .cxl _ | .expander => true
/-- HomeSlice (R212). -/
def foldHash (x : Nat) : Nat := x ^^^ (x / 2 ^ 16) ^^^ (x / 2 ^ 32)
def homeSlice (va : VA) : Nat := foldHash (va.toNat / 128) % 48

/-! ### Translation (R213–R216) -/

inductive PClass | normal | vitrine | future | device
  deriving DecidableEq, Repr

/-- A page table entry as it was found: its location and its two words. -/
structure Pte where
  at' : Nat
  w0  : W64
  w8  : W64
  deriving DecidableEq, Repr

def Pte.valid (e : Pte) : Bool := e.w0.getLsbD 63
def Pte.sz (e : Pte) : Nat := (e.w0.extractLsb' 61 2).toNat
def Pte.vpn (e : Pte) : Nat := (e.w0.extractLsb' 0 40).toNat
def Pte.cls (e : Pte) : PClass :=
  match (e.w8.extractLsb' 62 2).toNat with | 0 => .normal | 1 => .vitrine | 2 => .future | _ => .device
def Pte.uc (e : Pte) : Bool := e.w8.getLsbD 61
def Pte.grain (e : Pte) : Nat := (e.w8.extractLsb' 59 2).toNat
def Pte.rd (e : Pte) : Bool := e.w8.getLsbD 58
def Pte.wr (e : Pte) : Bool := e.w8.getLsbD 57
def Pte.ex (e : Pte) : Bool := e.w8.getLsbD 56
def Pte.mig (e : Pte) : Nat := (e.w8.extractLsb' 54 2).toNat
def Pte.sh (e : Pte) : Bool := e.w8.getLsbD 53
def Pte.owner (e : Pte) : Nat := (e.w8.extractLsb' 42 11).toNat
def Pte.ppn (e : Pte) : Nat := (e.w8.extractLsb' 0 36).toNat
/-- Low bits of VPN and PPN that the page size requires to be zero (R213). -/
def szBits (z : Nat) : Nat := if z = 0 then 0 else if z = 1 then 5 else 14
/-- A malformed entry (R214). -/
def Pte.malformed (e : Pte) : Bool :=
  e.sz = 3 || e.grain = 3 || 2 ≤ e.mig || e.vpn % 2 ^ szBits e.sz != 0 || e.ppn % 2 ^ szBits e.sz != 0 ||
    (e.cls = .vitrine && e.sz != 0) || e.w0.extractLsb' 40 21 != 0 || e.w8.extractLsb' 36 6 != 0
/-- The entry names the page of an address at its own size. -/
def Pte.covers (e : Pte) (va : VA) : Bool :=
  let k := szBits e.sz
  e.vpn / 2 ^ k == va.toNat / 2 ^ 16 / 2 ^ k
/-- The physical address. -/
def Pte.pa (e : Pte) (va : VA) : Nat :=
  let k := 16 + szBits e.sz
  e.ppn * 2 ^ 16 / 2 ^ k * 2 ^ k + va.toNat % 2 ^ k

/-- The identifier table entry's words (R69). -/
def State.idWord (s : State) (asid : Asid) (off : Nat) : W64 := s.phys64 (s.regs.idtbase.toNat + 32 * asid.toNat + off)
def State.ptLog (s : State) (asid : Asid) : Nat := ((s.idWord asid 8).extractLsb' 32 8).toNat
def State.ptBase (s : State) (asid : Asid) : Nat := (s.idWord asid 0).toNat
/-- NREC of an identifier; an NRLOG outside 8 to 24 is taken as it stands (R52, R69, DESIGN CHOICE: log entry 91). -/
def State.nrec (s : State) (asid : Asid) : Nat := 2 ^ ((s.idWord asid 8).extractLsb' 40 5).toNat
def State.pvBase (s : State) (asid : Asid) : VA := addr (s.idWord asid 16)

/-- The first of the eight entries of a bucket from entry `8 − n` on that matches. -/
def State.bucketScan (s : State) (base z : Nat) (va : VA) : Nat → Option Pte
  | 0 => none
  | n + 1 =>
    let a := base + 16 * (7 - n)
    let e : Pte := ⟨a, s.phys64 a, s.phys64 (a + 8)⟩
    if e.valid && e.sz == z && (let k := szBits z; e.vpn / 2 ^ k == va.toNat / 2 ^ 16 / 2 ^ k) then some e
    else s.bucketScan base z va n
/-- The eight buckets of one key, from the j-th on. -/
def State.keyScan (s : State) (base log z b : Nat) (va : VA) : Nat → Option Pte
  | 0 => none
  | n + 1 =>
    match s.bucketScan (base + 128 * ((b + (7 - n)) % 2 ^ log)) z va 8 with
    | some e => some e
    | none => s.keyScan base log z b va n
/-- The hash of a key (R214). -/
def bucketOf (log z : Nat) (va : VA) : Nat :=
  let key := z * 2 ^ 62 + va.toNat / 2 ^ (16 + szBits z)
  key * 0x9E3779B97F4A7C15 % 2 ^ 64 / 2 ^ (64 - log)
/-- Walk (R214). -/
def State.walk (s : State) (asid : Asid) (va : VA) : Option Pte :=
  let log := s.ptLog asid
  let base := s.ptBase asid
  if log < 6 || 28 < log then none
  else (s.keyScan base log 0 (bucketOf log 0 va) va 8).orElse fun _ =>
    (s.keyScan base log 1 (bucketOf log 1 va) va 8).orElse fun _ => s.keyScan base log 2 (bucketOf log 2 va) va 8

/-- The cached translation of an address, if a slice holds one (R215). -/
def State.cached (s : State) (asid : Asid) (va : VA) : Option Pte :=
  (s.tlb.find? fun t => t.asid == asid && (Pte.mk t.pte t.w0 t.w8).covers va).map fun t => ⟨t.pte, t.w0, t.w8⟩
/-- The entry an access uses (R214, R215): where a cached one differs from the table, which of the two is a free
choice (DESIGN CHOICE: log entry 14). -/
def State.xlate (s : State) (asid : Asid) (va : VA) : Option Pte :=
  match s.cached asid va with
  | none => s.walk asid va
  | some e =>
    match s.walk asid va with
    | some e' => if e = e' then some e else if Config.oldTranslation s.fresh then some e else some e'
    | none => if Config.oldTranslation s.fresh then some e else none
/-- A slice keeps the translation it used. -/
def State.keepXlat (s : State) (asid : Asid) (va : VA) (e : Pte) : State :=
  match s.cached asid va with
  | none => { s with tlb := ⟨asid, e.w0, e.w8, e.at'⟩ :: s.tlb }
  | some e' => if e = e' then s else { s with fresh := s.fresh + 1 }
/-- Drop the cached translations of a page, or of an identifier (R215, R220). -/
def State.dropXlat (s : State) (asid : Asid) (va : Option VA) : State :=
  { s with tlb := s.tlb.filter fun t => !(t.asid == asid && match va with
      | none => true
      | some a => (Pte.mk t.pte t.w0 t.w8).covers a) }

/-- HomeOf (R212): the package, the die and the slice that perform an address's stores, none where it does not translate. -/
def State.homeOf (s : State) (asid : Asid) (va : VA) : Option (Nat × Nat × Nat) :=
  (s.xlate asid va).map fun e =>
    (s.homePackage (e.pa va), homeDie (e.pa va), homeSlice (if e.cls = .vitrine then va &&& 0xFFFFFFFFFF0000 else va))

/-! ### Checks of an access to memory (R216, R232, R233) -/

/-- What an access is. -/
inductive Kind
  | read | write | atomic | fetch | futRead | futWrite
  | vitRead | vitWrite
  deriving DecidableEq, Repr
def Kind.writes : Kind → Bool
  | .write | .atomic | .futWrite | .vitWrite => true
  | .read | .fetch | .futRead | .vitRead => false

/-- The result of the checks: the entry and physical address, a trap, or a page fault. -/
inductive Checked
  | ok (e : Pte) (pa : Nat)
  | trap (t : Trap)
  | page (va : VA) (write : Bool)
  deriving DecidableEq, Repr

/-- Vitrine records are keyed by identifier and page. -/
def vitKey (asid : Asid) (va : VA) : Nat := asid.toNat * 2 ^ 40 + va.toNat / 2 ^ 16
def State.vrec (s : State) (asid : Asid) (va : VA) : Option VRec := Table.find? (vitKey asid va) s.vit

/-- No fabric port is up, so no route exists to another package, or no answer of it comes (R342) (DESIGN CHOICE: log entry 27). -/
def State.noRoute (s : State) (pa : Nat) : Bool :=
  isRemote pa && (!(s.regs.link.any fun e => e.2.getLsbD 63) || Config.noAnswer s.now (pa / 128))
/-- A poisoned line, a retired page, or a remote address without a route (R230, R232, R342). -/
def State.poisoned (s : State) (pa : Nat) : Bool :=
  s.poison.contains (pa / 128) || s.retired.contains (pa / 2 ^ 16) || s.noRoute pa

/-- The class check of R216 (DEDUCED: log entry 26). -/
def State.classCheck (s : State) (k : Kind) (asid : Asid) (va : VA) (size : Nat) (e : Pte) : Option Nat :=
  match k, e.cls with
  | .read, .normal => none
  | .read, .device => none
  | .read, .future => some 0x06
  | .read, .vitrine =>
    match s.vrec asid va with
    | some r => if r.state = .recalling then some 0x11
        else if va.toNat % 2 ^ 16 + size ≤ r.ptail then none else some 0x11
    | none => some 0x11
  | .write, .normal => none
  | .write, .vitrine => some 0x10
  | .write, .future => some 0x06
  | .write, .device => some 0x06
  | .atomic, .normal => none
  | .atomic, .vitrine => some 0x10
  | .atomic, .future => some 0x06
  | .atomic, .device => some 0x06
  | .fetch, .normal => none
  | .fetch, .vitrine => match s.vrec asid va with | some r => if r.state = .sealed then none else some 0x06 | none => some 0x06
  | .fetch, .future => some 0x06
  | .fetch, .device => some 0x06
  | .futRead, .future => none
  | .futRead, _ => some 0x06
  | .futWrite, .future => none
  | .futWrite, _ => some 0x06
  | .vitRead, .vitrine => none
  | .vitRead, _ => some 0x06
  | .vitWrite, .vitrine => none
  | .vitWrite, _ => some 0x06

/-- The permission an access needs (R216, R284, R296, R261). -/
def Kind.permitted (k : Kind) (e : Pte) : Bool :=
  match k with
  | .read | .futRead | .vitRead => e.rd
  | .write | .futWrite | .vitWrite => e.wr
  | .atomic => e.rd && e.wr
  | .fetch => e.ex

/-- The first byte that the class check refuses (R233): where a read runs past the published tail, the byte at the tail (R216). -/
def State.refusedAt (s : State) (k : Kind) (asid : Asid) (va : VA) (e : Pte) : VA :=
  match k, e.cls, s.vrec asid va with
  | .read, .vitrine, some r =>
    if r.state = .recalling || r.ptail ≤ va.toNat % 2 ^ 16 then va else va + BitVec.ofNat 56 (r.ptail - va.toNat % 2 ^ 16)
  | _, _, _ => va
/-- Translation, range, permission, class and poison, in the order of R214, R216 and R233; a store or an atomic without a route is
dropped later (R342). -/
def State.check (s : State) (k : Kind) (asid : Asid) (va : VA) (size : Nat) : Checked :=
  match s.xlate asid va with
  | none => .page va k.writes
  | some e =>
    if e.malformed || !s.physOk (e.pa va) || !k.permitted e then .trap ⟨0x06, ofVA va, 0⟩
    else match s.classCheck k asid va size e with
      | some c => .trap ⟨c, ofVA (s.refusedAt k asid va e), 0⟩
      | none =>
        if s.poisoned (e.pa va) && !(s.noRoute (e.pa va) && (k = .write || k = .atomic || k = .futWrite)) then .trap ⟨0x13, ofVA va, 0⟩ else .ok e (e.pa va)

/-! ### Home orders and floors (R263–R270) -/

/-- The key of an aligned 8-byte word, and of one byte. -/
def wordKey (asid : Asid) (va : VA) : Nat := asid.toNat * 2 ^ 53 + va.toNat / 8
def byteKey (asid : Asid) (va : VA) : Nat := asid.toNat * 2 ^ 56 + va.toNat
/-- A location is kept by home order: a write-back NORMAL page of this package. Every other page is read and written in
memory itself (R217, R223, R269). -/
def hasOrder (e : Pte) (pa : Nat) : Bool := e.cls = .normal && !e.uc && !isRemote pa

/-- The mask of bytes of a word. -/
def byteBits (m : BitVec 8) : W64 :=
  (if m.getLsbD 0 then 0xFF else 0) ||| (if m.getLsbD 1 then 0xFF00 else 0) ||| (if m.getLsbD 2 then 0xFF0000 else 0) |||
  (if m.getLsbD 3 then 0xFF000000 else 0) ||| (if m.getLsbD 4 then 0xFF00000000 else 0) |||
  (if m.getLsbD 5 then 0xFF0000000000 else 0) ||| (if m.getLsbD 6 then 0xFF000000000000 else 0) |||
  (if m.getLsbD 7 then 0xFF00000000000000 else 0)
/-- The bytes a bit mask touches. -/
def touched (m : W64) : BitVec 8 :=
  BitVec.ofNat 8 ((codesBelow 8).foldl (fun a i => a * 2 + (if m.extractLsb' (8 * i) 8 = 0 then 0 else 1)) 0)
/-- The bit mask of `n` bytes from byte `o` of a word. -/
def spanBits (o n : Nat) : W64 := BitVec.ofNat 64 ((2 ^ (8 * n) - 1) * 2 ^ (8 * o))

def Loc.latest (l : Loc) : W64 := match l.vers with | v :: _ => v.val | [] => 0
/-- The position of the latest store: 0 is the initial value. -/
def Loc.top (l : Loc) : Nat := l.vers.length - 1
/-- The value at a position, counted from the initial value. -/
def Loc.val (l : Loc) (k : Nat) : W64 := match l.vers[l.top - k]? with | some v => v.val | none => l.latest
/-- The position of the latest store performed by a cycle. -/
def Loc.posAt (l : Loc) (t : Nat) : Nat := (l.vers.filter fun v => v.at' ≤ t).length - 1

/-- The home order of a word; a word nobody holds starts from memory. -/
def State.loc (s : State) (key pa : Nat) : Loc :=
  (Table.find? key s.locs).getD ⟨pa / 8 * 8, [⟨s.phys64 (pa / 8 * 8), 0⟩], 0, 0⟩
def State.setLoc (s : State) (key : Nat) (l : Loc) : State := { s with locs := Table.put key l s.locs }
/-- The bytes of memory seen through the bytes a location has not written back. -/
def State.overlay (s : State) (l : Loc) : W64 :=
  let m := byteBits l.dirty
  (l.latest &&& m) ||| (s.phys64 l.pa &&& ~~~m)
/-- A location brought up to date with memory that changed through another mapping or from outside (R25, R217). -/
def State.synced (s : State) (l : Loc) : Loc :=
  let x := s.overlay l
  if x = l.latest then l else { l with vers := ⟨x, s.now⟩ :: l.vers }

/-- The key of the floor of a nibble: of each byte the low one, then the high one (R263). -/
def nibKey (asid : Asid) (va : VA) (high : Bool) : Nat := 2 * byteKey asid va + (if high then 1 else 0)
/-- The nibbles of an access of `n` bytes that a bit mask counted from its first byte touches. -/
def nibsOf (asid : Asid) (va : VA) (mask : W64) : Nat → List Nat
  | 0 => []
  | n + 1 =>
    (if mask.extractLsb' 0 4 = 0 then [] else [nibKey asid va false]) ++
      (if mask.extractLsb' 4 4 = 0 then [] else [nibKey asid va true]) ++ nibsOf asid (va + 1) (mask >>> 8) n
/-- The greatest floor of some nibbles. -/
def floorOf (f : Table Nat) (ks : List Nat) : Nat := ks.foldl (fun m k => max m ((Table.find? k f).getD 0)) 0
/-- Raise the floors of some nibbles to a position. -/
def raiseFloors (f : Table Nat) (ks : List Nat) (k : Nat) : Table Nat :=
  ks.foldl (fun f i => if (Table.find? i f).getD 0 < k then Table.put i k f else f) f
/-- The least position a stale-tolerant load on a die may return besides its floor: a store performed 2,000 cycles ago
for the home die (R269), and what stood when the die last dropped its remote lines (R221). -/
def State.staleBound (s : State) (core : Nat) (pa : Nat) (l : Loc) : Nat :=
  if dieOf core = homeDie pa then l.posAt (s.now - 2000)
  else l.posAt ((Table.find? (dieOf core) s.dropAt).getD 0)

/-- The value of an access read from memory itself. -/
def State.readRaw (s : State) (pa size : Nat) : W64 := BitVec.ofNat 64 (s.phys pa size)

/-- The heat counter of a physical page (R227). -/
def heatIndex (pa : Nat) : Option Nat :=
  match physRange pa with
  | .hbm => some (pa / 2 ^ 16)
  | .cxl _ => some (2 ^ 23 + (pa - 2 ^ 40) / 2 ^ 16)
  | .device | .expander | .remote _ | .none => none
def State.heatUp (s : State) (pa : Nat) (write : Bool) : State :=
  if !s.regs.heatctl.getLsbD 63 then s
  else match heatIndex pa with
    | none => s
    | some i =>
      let (r, w) := (Table.find? i s.heat).getD (0, 0)
      { s with heat := Table.put i (if write then (r, min 0xFFFF (w + 1)) else (min 0xFFFF (r + 1), w)) s.heat }

/-- A request that a slice may answer: whether it reaches the memory-side cache is a free choice (R226, R227). -/
def State.fillHeat (s : State) (pa : Nat) : State :=
  if !s.regs.heatctl.getLsbD 63 then s
  else
    let s1 : State := { s with fresh := s.fresh + 1 }
    if Config.sliceHit s.fresh then s1 else s1.heatUp pa false
/-- A location's dirty bytes reach memory. -/
def State.writeBack (s : State) (key : Nat) (l : Loc) : State :=
  if l.dirty = 0 then s
  else (s.setPhys l.pa 8 (s.overlay l).toNat).setLoc key { l with dirty := 0 }
/-- Dirty bytes that other mappings hold for a word of memory may have been evicted to it (R217, R279): a free choice. -/
def State.mayEvict (s : State) (own : Option Nat) (pa : Nat) : State :=
  (s.locs.filter fun e => some e.1 != own && e.2.pa == pa / 8 * 8 && e.2.dirty != 0).foldl (fun s e =>
    let s1 := if Config.evicted s.fresh then s.writeBack e.1 e.2 else s
    { s1 with fresh := s.fresh + 1 }) s
/-- The core's data cache holds the sector of an address (R94, R218). -/
def Core.holds (c : Core) (asid : Asid) (va : VA) : Bool :=
  c.lines.any fun l => l.asid == asid && l.line == va.toNat / 128 && l.sect.getLsbD (va.toNat / 32 % 4)

/-- One load of at most 8 aligned bytes by a context with floors `f` (R222, R266), whose bits `mask` count: the value, the
floors after it, and the state (dirty bytes of other mappings, and a clean copy that memory has overtaken, may have been
evicted; free values used). Where the core holds no copy of its own, what memory holds reaches it (R279). -/
def State.loadBits (s : State) (core : Nat) (f : Table Nat) (fresh : Bool) (asid : Asid) (va : VA) (size : Nat) (mask : W64)
    (e : Pte) (pa : Nat) : W64 × Table Nat × State :=
  if !hasOrder e pa then
    let s := s.mayEvict none pa
    (s.readRaw pa size, f, s)
  else
    let key := wordKey asid va
    let s := s.mayEvict (some key) pa
    let l0 := s.loc key pa
    let s0 : State := { s with fresh := s.fresh + 1 }
    let behind := s.overlay l0 != l0.latest
    let absent := !(s.core core).holds asid va
    let l := if behind && (absent || Config.evicted s.fresh) then s.synced l0 else l0
    let top := l.top
    let own := !e.sh && e.owner = core
    let ks := nibsOf asid va mask size
    let lo := if fresh || own || (behind && absent && dieOf core == homeDie pa) then top
      else max (floorOf f ks) (max l.least (s.staleBound core pa l))
    let k := if top ≤ lo then top else lo + Config.staleChoice s.fresh (top - lo) % (top - lo + 1)
    let x := (l.val k >>> (8 * (va.toNat % 8))) &&& spanBits 0 size
    (x, raiseFloors f ks k, s0.setLoc key l)
/-- The same of whole bytes. -/
def State.loadAt (s : State) (core : Nat) (f : Table Nat) (fresh : Bool) (asid : Asid) (va : VA) (size : Nat) (e : Pte)
    (pa : Nat) : W64 × Table Nat × State := s.loadBits core f fresh asid va size (spanBits 0 size) e pa

/-- One store of masked bits of an aligned word at `va`'s word (R218, R263, R266): the floors after it and the state. -/
def State.storeAt (s : State) (f : Table Nat) (asid : Asid) (va : VA) (size : Nat) (x mask : W64) (e : Pte) (pa : Nat) :
    Table Nat × State :=
  let sh := 8 * (va.toNat % 8)
  let m := mask <<< sh
  let v := x <<< sh
  if !hasOrder e pa then
    let w := pa / 8 * 8
    let old := s.phys64 w
    (f, s.setPhys w 8 ((old &&& ~~~m) ||| (v &&& m)).toNat)
  else
    let key := wordKey asid va
    let l := s.loc key pa
    let new := (l.latest &&& ~~~m) ||| (v &&& m)
    let l' : Loc := { l with vers := ⟨new, s.now⟩ :: l.vers, dirty := l.dirty ||| touched m }
    (raiseFloors f (nibsOf asid va mask size) l'.top, s.setLoc key l')

/-! ### Write-back and invalidation (R215, R218, R220, R246) -/

/-- Locations chosen by their key are written back. -/
def State.writeBackLocs (s : State) (p : Nat → Bool) : State :=
  (s.locs.filter fun e => p e.1 && e.2.dirty != 0).foldl (fun s e => s.writeBack e.1 e.2) s
/-- The same; each 128-byte line of memory that takes dirty bytes counts once (R227). -/
def State.writeBackAll (s : State) (p : Nat → Bool) : State :=
  let lines := (s.locs.filter fun e => p e.1 && e.2.dirty != 0).foldl
    (fun a e => if a.contains (e.2.pa / 128) then a else e.2.pa / 128 :: a) []
  lines.foldl (fun s n => s.heatUp (128 * n) true) (s.writeBackLocs p)
/-- Held copies of chosen locations are dropped: what follows starts from memory, with floors forgotten (R215, R246). -/
def State.dropLocs (s : State) (p : Nat → Bool) : State :=
  let byWord := fun (k : Nat) => p (k / 16)
  { s with locs := s.locs.filter fun e => !p e.1,
           pubs := s.pubs.map fun b => { b with seen := b.seen.filter fun e => !byWord e.1 },
           cores := s.cores.map fun c => (c.1, { c.2 with
             ctxs := c.2.ctxs.map fun x => (x.1, { x.2 with floors := x.2.floors.filter fun e => !byWord e.1 }) }) }
/-- Word keys of a page of 64 KiB · 2^k, and of an identifier. -/
def pageKeys (asid : Asid) (va : VA) (k : Nat) (key : Nat) : Bool :=
  key / 2 ^ (13 + k) == asid.toNat * 2 ^ (40 - k) + va.toNat / 2 ^ (16 + k)
def asidKeys (asid : Asid) (key : Nat) : Bool := key / 2 ^ 53 == asid.toNat
/-- Lines of the data caches dropped. -/
def State.dropLines (s : State) (p : Asid → Nat → Bool) : State :=
  { s with cores := s.cores.map fun c => (c.1, { c.2 with lines := c.2.lines.filter fun l => !p l.asid l.line }) }
/-- Lines marked clean. -/
def State.cleanLines (s : State) (p : Asid → Nat → Bool) : State :=
  { s with cores := s.cores.map fun c => (c.1, { c.2 with
      lines := c.2.lines.map fun l => if p l.asid l.line then { l with dirty := false } else l }) }
/-- Word keys of the bytes of a line. -/
def lineKeys (asid : Asid) (ln key : Nat) : Bool := key / 2 ^ 53 == asid.toNat && key % 2 ^ 53 / 16 == ln
/-- A line leaves the core's data cache, its dirty bytes written back (R94, R218). -/
def State.evictLine (s : State) (core : Nat) (l : Line) : State :=
  let s1 := if l.dirty then s.writeBackAll (lineKeys l.asid l.line) else s
  s1.onCore core fun c => { c with lines := c.lines.filter fun x => !(x.asid == l.asid && x.line == l.line) }
/-- The role of bank k: 0 cache way, 1 scratch, 2 FIFO, 3 save (R91). -/
def Banks.role (b : Banks) (k : Nat) : Nat := (b.spcfg.extractLsb' (2 * k) 2).toNat
/-- The cache-way banks (R91). -/
def Banks.ways (b : Banks) : List Nat := (codesBelow 19).filter fun k => b.role k == 0
/-- The set of the data cache that holds a line: 128 sets (R94, DESIGN CHOICE: log entry 7). -/
def setOfLine (ln : Nat) : Nat := ln % 128
/-- Sectors of a line become valid in the core's data cache, by a fill or by a store; a full set loses a line (R94, R101, R218). -/
def State.touchLine (s : State) (core : Nat) (asid : Asid) (ln : Nat) (sect : BitVec 4) (store dirty : Bool) (home : Nat) : State :=
  let c := s.core core
  match c.lines.find? fun l => l.asid == asid && l.line == ln with
  | some l =>
    let l' := { l with sect := l.sect ||| sect, dirty := l.dirty || dirty,
                       stamp := if store || l.sect ||| sect != l.sect then s.tick else l.stamp }
    s.onCore core fun c => { c with lines := c.lines.map fun x => if x.asid == asid && x.line == ln then l' else x }
  | none =>
    let inSet := c.lines.filter fun l => setOfLine l.line == setOfLine ln
    let put := fun (s : State) (w : Nat) => s.onCore core fun c => { c with lines := ⟨asid, ln, s.tick, dirty, sect, w, home⟩ :: c.lines }
    match c.banks.ways.find? fun w => !inSet.any fun l => l.way == w with
    | some w => put s w
    | none =>
      match inSet[Config.victim s.fresh % inSet.length]? with
      | some v => put (({ s with fresh := s.fresh + 1 } : State).evictLine core v) v.way
      | none => s
/-- The lines and sectors that a fill of an address brings in and tracks (R218). -/
def Pte.grainLines (e : Pte) (va : VA) : List (Nat × BitVec 4) :=
  let ln := va.toNat / 128
  if e.grain = 0 then [(ln, (1 : BitVec 4) <<< (va.toNat / 32 % 4))]
  else if e.grain = 1 then [(ln, 0xF)]
  else (codesBelow 4).map fun k => (ln / 4 * 4 + k, 0xF)
/-- The core's copy of the grain of an address is dropped (R218, R236). -/
def State.dropGrain (s : State) (core : Nat) (asid : Asid) (va : VA) (e : Pte) : State :=
  let gone := fun (l : Line) => (e.grainLines va).foldl (fun (x : BitVec 4) g => if l.asid == asid && l.line == g.1 then x &&& ~~~g.2 else x) l.sect
  s.onCore core fun c => { c with lines := (c.lines.map fun l => { l with sect := gone l }).filter fun l => l.sect != 0 }

/-- Reclassification of a page to SHARED (R220): SH is set by one swap, the owner's dirty bytes are written back, the
cached translations are dropped. -/
def State.reclassify (s : State) (asid : Asid) (va : VA) (e : Pte) : State :=
  let w8 := e.w8 ||| 0x0020000000000000
  let keys := pageKeys asid va (szBits e.sz)
  let s0 := s.writeBackAll keys
  let s1 := if s0.phys64 (e.at' + 8) = e.w8 then s0.setPhys (e.at' + 8) 8 w8.toNat else s0
  (s1.dropXlat asid (some va)).dropLines fun a l => a == asid && e.owner < 2047 && l / 2 ^ (9 + szBits e.sz) == va.toNat / 2 ^ (16 + szBits e.sz)
/-- The transition of R219 that a miss, store or atomic makes. -/
def State.classify (s : State) (core : Nat) (atomic : Bool) (asid : Asid) (va : VA) (e : Pte) (pa : Nat) : State :=
  if e.cls ≠ .normal || e.uc || e.sh then s
  else if e.owner = 2047 then
    if !atomic && dieOf core = homeDie pa && !isRemote pa then
      let w8 := (e.w8 &&& ~~~(0x1FFC0000000000 : W64)) ||| (BitVec.ofNat 64 core <<< 42)
      if s.phys64 (e.at' + 8) = e.w8 then (s.setPhys (e.at' + 8) 8 w8.toNat).dropXlat asid (some va) else s
    else s.reclassify asid va e
  else if e.owner = core then s
  else s.reclassify asid va e

/-- The entry with the classification that its word now holds. -/
def State.classed (s : State) (e : Pte) : Pte :=
  let m : W64 := 0x003FFC0000000000
  { e with w8 := (e.w8 &&& ~~~m) ||| (s.phys64 (e.at' + 8) &&& m) }

/-! ### Release and acquire (R267, R268) -/

/-- The greater position of each location. -/
def mergeFloors (a b : Table Nat) : Table Nat :=
  b.foldl (fun f e => if (Table.find? e.1 f).getD 0 < e.2 then Table.put e.1 e.2 f else f) a
/-- What an agent has observed becomes visible at a scope (R267). -/
def State.publish (s : State) (agent : Nat) (sc : Scope) (f : Table Nat) : State :=
  match s.pubs.find? fun b => b.agent == agent && b.scope == sc with
  | some _ => { s with pubs := s.pubs.map fun b =>
      if b.agent == agent && b.scope == sc then { b with seen := mergeFloors b.seen f } else b }
  | none => { s with pubs := ⟨agent, sc, f⟩ :: s.pubs }
/-- The floors of an acquire of scope `sc` by an agent (R268). -/
def State.acquireFloors (s : State) (agent : Nat) (sc : Scope) (f : Table Nat) : Table Nat :=
  s.pubs.foldl (fun f b =>
    if within b.scope b.agent agent && within sc agent b.agent then mergeFloors f b.seen else f) f
/-- Every remote line of a die is dropped, in L1s and slices (R221). -/
def State.dropRemote (s : State) (die : Nat) : State :=
  { s with dropAt := Table.put die s.now s.dropAt,
           cores := s.cores.map fun e => (e.1, if dieOf e.1 = die then { e.2 with lines := e.2.lines.filter fun l => l.home == die } else e.2) }
/-- An acquire completes (R221, R268). -/
def State.acquire (s : State) (n k : Nat) (sc : Scope) : State :=
  let s1 := s.onCtx n k fun c => { c with floors := s.acquireFloors n sc c.floors }
  match sc with
  | .device | .system => s1.dropRemote (dieOf n)
  | .core | .rope | .die => s1
/-- A release completes, every earlier access performed (R267). -/
def State.release (s : State) (n k : Nat) (sc : Scope) : State := s.publish n sc (s.ctx n k).floors

/-! ### The device agent's accesses (R11, R25, R366) -/

/-- The device reads `size` bytes within an aligned word at home, memory from outside included. -/
def State.devRead (s : State) (asid : Asid) (va : VA) (size : Nat) (e : Pte) : W64 :=
  let pa := e.pa va
  let w := if hasOrder e pa then s.overlay (s.loc (wordKey asid va) pa) else s.phys64 (pa / 8 * 8)
  (w >>> (8 * (va.toNat % 8))) &&& spanBits 0 size
/-- A word's dirty bytes reach memory, where the host sees them. -/
def State.through (s : State) (key : Nat) : State :=
  match Table.find? key s.locs with | some l => if l.dirty = 0 then s else (s.writeBack key l).heatUp l.pa true | none => s
/-- An agent outside the cores stores at home, visible at system scope. -/
def State.agentWrite (s : State) (agent : Nat) (asid : Asid) (va : VA) (size : Nat) (x : W64) (e : Pte) : State :=
  let pa := e.pa va
  if hasOrder e pa then
    let key := wordKey asid va
    let s1 := s.setLoc key (s.synced (s.loc key pa))
    let (f, s2) := s1.storeAt [] asid va size x (spanBits 0 size) e pa
    (s2.through key).publish agent .system f
  else (s.storeAt [] asid va size x (spanBits 0 size) e pa).2.heatUp pa true
/-- The device stores at home: the store is the device agent's (R366). -/
def State.devWrite (s : State) (asid : Asid) (va : VA) (size : Nat) (x : W64) (e : Pte) : State :=
  s.agentWrite Config.deviceAgent asid va size x e
/-- A read by the device reaches the memory-side cache: of a page that slices hold, perhaps (R227, DESIGN CHOICE: log entry 102). -/
def State.devSeen (s : State) (asid : Asid) (va : VA) : State :=
  match s.walk asid va with
  | some e => if hasOrder e (e.pa va) then s.fillHeat (e.pa va) else s.heatUp (e.pa va) false
  | none => s
/-- A device read of 8 bytes at an address, none where it does not translate, may not be read or is poisoned. -/
def State.devGet (s : State) (asid : Asid) (va : VA) (size : Nat) : Option W64 :=
  match s.walk asid va with
  | none => none
  | some e =>
    if e.malformed || !s.physOk (e.pa va) || !e.rd || s.poisoned (e.pa va) then none else some (s.devRead asid va size e)
/-- Such a store, none where it faults (R24, R334). -/
def State.agentPut (s : State) (agent : Nat) (asid : Asid) (va : VA) (size : Nat) (x : W64) : Option State :=
  match s.walk asid va with
  | none => none
  | some e =>
    if e.malformed || !s.physOk (e.pa va) || !e.wr || s.poisoned (e.pa va) || e.cls ≠ .normal then none
    else some (s.agentWrite agent asid va size x e)
/-- A device write, none where it faults. -/
def State.devPut (s : State) (asid : Asid) (va : VA) (size : Nat) (x : W64) : Option State := s.agentPut Config.deviceAgent asid va size x

end Sys2Proof.Machine
end

