-- ==== Sys2Proof/Machine/Scratch.lean ====
section
/-! DEFINITION. The unified array: scratch, guards, granules, slot tags, the two apertures, FIFO banks and messages
(spec/05 R91–R102; spec/12 R238, R243–R245; spec/14 R293, R298; spec/15 R326). -/

namespace Sys2Proof.Machine

def scrBase : Nat := 0x00FFFFFFFFF01000
def ropeBase : Nat := 0x00FFFFFFFF800000

/-- Where bank 19, the save bank, begins among the bytes of the unified array (R91, R318). -/
def saveBase : Nat := 19 * 16384
/-- S in bytes (R91). -/
def Banks.slen (b : Banks) : Nat := (b.spcfg.extractLsb' 40 13).toNat * 64
/-- SPCFG of S bytes of scratch and f FIFO banks (R91, R92, R243). -/
def spcfgWord (s f : Nat) : W64 :=
  let n := (s + 16383) / 16384
  let role := fun k => if k = 19 then 3 else if k < n then 1 else if 19 - f ≤ k then 2 else 0
  BitVec.ofNat 64 ((codesBelow 20).foldl (fun a k => a + role k * 4 ^ k) 0 + s / 64 * 2 ^ 40)
/-- The number of FIFO banks. -/
def Banks.fifos (b : Banks) : Nat := ((codesBelow 19).filter fun k => b.role k == 2).length

def Banks.granAt (b : Banks) (g : Nat) : Gran := (Table.find? g b.gran).getD b.base
def Banks.setGran (b : Banks) (g : Nat) (x : Gran) : Banks := { b with gran := Table.put g x b.gran }
/-- Age in ticks (R98). -/
def Gran.age (g : Gran) (tick : BitVec 16) : Nat := (tick - g.stamp).toNat
def Gran.stale (g : Gran) (tick : BitVec 16) : Bool := g.exp || 60 < g.age tick
def Banks.tagAt (b : Banks) (j : Nat) : BitVec 16 := (Table.find? j b.tags).getD 0
def Banks.setTag (b : Banks) (j : Nat) (t : BitVec 16) : Banks := { b with tags := Table.put j t b.tags }

/-- The granules whose rewrite by `RENEW` falls in a cycle take TICK as it stands then; one that has become stale before stays stale
(R244, DEDUCED: log entry 23). -/
def Core.renewed (c : Core) (now : Nat) (tick : BitVec 16) : Core :=
  { c with
    renewing := c.renewing.filter fun e => now < e.2
    banks := (c.renewing.filter fun e => e.2 ≤ now).foldl (fun b e =>
      if (b.granAt e.1).stale tick then b else b.setGran e.1 { b.granAt e.1 with stamp := tick }) c.banks }
/-- Granules, or slots, that a range overlaps: `n` of them from the first. -/
def upFrom (a : Nat) : Nat → List Nat
  | 0 => []
  | n + 1 => a :: upFrom (a + 1) n
def unitsOf (unit off len : Nat) : List Nat :=
  if len = 0 then [] else upFrom (off / unit) ((off + len - 1) / unit + 1 - off / unit)

/-- Write scratch: bytes, the tag of every slot written, and the stamp of every granule written whole (R99, R187). -/
def Banks.write (b : Banks) (off : Nat) (data : List Byte) (tag : Option (BitVec 16)) (stamp : Option (BitVec 16)) : Banks :=
  let n := data.length
  let b1 := { b with bytes := cellsPut b.bytes off data }
  let b2 := match tag with | some t => (unitsOf 2048 off n).foldl (fun b j => b.setTag j t) b1 | none => b1
  match stamp with
  | some t => ((unitsOf 512 off n).filter fun g => off ≤ 512 * g && 512 * g + 512 ≤ off + n).foldl (fun b g => b.setGran g ⟨t, false, false⟩) b2
  | none => b2
/-- Masked bits of at most 8 bytes written; no stamp, no tag (R99, R236). -/
def Banks.store (b : Banks) (off size : Nat) (x mask : W64) : Banks :=
  let old := BitVec.ofNat 64 (cellsLE b.bytes off size)
  { b with bytes := cellsPutLE b.bytes off size ((old &&& ~~~mask) ||| (x &&& mask)).toNat }
def Banks.read (b : Banks) (off size : Nat) : W64 := BitVec.ofNat 64 (cellsLE b.bytes off size)
def Banks.readBytes (b : Banks) (off : Nat) : Nat → List Byte
  | 0 => []
  | n + 1 => cellGet b.bytes off :: b.readBytes (off + 1) n

/-- The same; bytes of a poisoned granule read zero (R251, R302). -/
def Banks.cleanBytes (b : Banks) (off : Nat) : Nat → List Byte
  | 0 => []
  | n + 1 => (if (b.granAt (off / 512)).poison then 0 else cellGet b.bytes off) :: b.cleanBytes (off + 1) n
/-- The task that a rope-net write was checked against is on the core. -/
def Core.stillOn (c : Core) (bind : Nat) : Bool := c.on.isSome && c.task.bind == bind
/-- A byte of a rope-net store. -/
def Banks.putByte (b : Banks) (w : WByte) : Banks :=
  if b.slen ≤ w.addr then b
  else { b with bytes := cellPut b.bytes w.addr ((cellGet b.bytes w.addr &&& ~~~w.mask) ||| (w.val &&& w.mask)) }
/-- The banks of core k with the rope-net stores of core n that are still on their way: a command observes those that its context
issued before it (R188, DEDUCED: log entry 86). -/
def State.banksAhead (s : State) (n k : Nat) : Banks :=
  s.queue.foldl (fun b e => match e.2 with
    | .ropeNetStoreArrival c e bytes =>
      if c = k && e.src / 16 = n && (s.core k).stillOn e.task then bytes.foldl Banks.putByte b else b
    | _ => b) (s.core k).banks

/-- GUARDREC of a touch, with its offset from −64 (R96). -/
def guardWord (ctx : Nat) (write : Bool) (o : Int) : W64 :=
  let bank := (o / 16384) % 32
  let off := o % 16384
  BitVec.ofNat 64 (2 ^ 63 + ctx * 2 ^ 32 + (if write then 2 ^ 31 else 0) + bank.toNat * 2 ^ 19 + off.toNat)
/-- Record a guard touch (R96). -/
def Core.touchGuard (c : Core) (ctx : Nat) (write : Bool) (o : Int) : Core :=
  { c with guardrec := if c.guardrec.getLsbD 63 then c.guardrec ||| 0x4000000000000000 else guardWord ctx write o }
/-- SCRBASE + o of the recorded touch: FADDR of the guard fault (R96). -/
def guardAddr (g : W64) : W64 :=
  let b := (g.extractLsb' 19 5).toNat
  let bank : Int := if b = 31 then -1 else b
  BitVec.ofInt 64 ((scrBase : Int) + bank * 16384 + ((g.extractLsb' 0 14).toNat : Int))

/-- Where an access goes (R95, R233, R238). -/
inductive Place
  | scratch (off : Nat)
  | guard (off : Int)
  | rope (core off : Nat)
  | memory (e : Pte) (pa : Nat)
  | trap (t : Trap)
  | page (va : VA) (write : Bool)
  deriving DecidableEq, Repr

/-- An access to the core-local aperture (R95, R96, R100, R326): poison before staleness for a read. -/
def State.placeLocal (s : State) (n : Nat) (va : VA) (size : Nat) (read : Bool) : Place :=
  let b := (s.core n).banks
  let o : Int := (va.toNat : Int) - scrBase
  if 0 ≤ o && o + size ≤ b.slen then
    let g := b.granAt (o.toNat / 512)
    if read && g.poison then .trap ⟨0x13, ofVA va, 0⟩
    else if read && g.stale s.tick then .trap ⟨0x08, ofVA va, 0⟩
    else .scratch o.toNat
  else if (-64 ≤ o && o < 0) || ((b.slen : Int) ≤ o && o < b.slen + 64) then .guard o
  else .trap ⟨0x06, ofVA va, 0⟩
/-- A store to the rope aperture (R238): the target core's task must be on it, in the issuer's address space. -/
def State.placeRope (s : State) (n : Nat) (asid : Asid) (va : VA) (size : Nat) : Place :=
  let r := va.toNat - ropeBase
  let k := n / 8 * 8 + r / 0x80000
  let o : Int := ((r % 0x80000 : Nat) : Int) - 0x1000
  let c := s.core k
  if c.on.isSome && c.asid == asid && 0 ≤ o && o + size ≤ c.banks.slen then .rope k o.toNat else .trap ⟨0x06, ofVA va, 0⟩
/-- A load within the published tail of a recalled page that still meets a replica on its die: one of the two outcomes is free
(R224, R226, DESIGN CHOICE: log entry 18). -/
def State.replicaHit (s : State) (n : Nat) (asid : Asid) (va : VA) (size : Nat) : Bool :=
  match s.vrec asid va with
  | some r => r.state == .recalling && r.pres.contains (dieOf n) && va.toNat % 2 ^ 16 + size ≤ r.ptail && Config.replicaRace s.fresh
  | none => false
/-- The place of an access of `size` bytes by a context of core n, with the checks of R233 from order 2 on. -/
def State.place (s : State) (n : Nat) (k : Kind) (va : VA) (size : Nat) : Place :=
  let asid := (s.core n).asid
  if inLocal va then
    if k = .read || k = .write then s.placeLocal n va size (k = .read)
    else if k = .atomic then match s.placeLocal n va size true with
      | .guard _ => .trap ⟨0x06, ofVA va, 0⟩
      | p => p
    else .trap ⟨0x06, ofVA va, 0⟩
  else if inRope va then
    if k = .write then s.placeRope n asid va size else .trap ⟨0x06, ofVA va, 0⟩
  else match s.check k asid va size with
    | .ok e pa => .memory e pa
    | .trap t =>
      match s.xlate asid va with
      | some e =>
        if k = .read && t.cause = 0x11 && s.replicaHit n asid va size then
          (if s.poisoned (e.pa va) then .trap ⟨0x13, ofVA va, 0⟩ else .memory e (e.pa va))
        else .trap t
      | none => .trap t
    | .page va w => .page va w

/-- When the rope-net stores of a context to bytes of its own core that are on their way arrive (R178, R238). -/
def State.ownNetBy (s : State) (n k off size : Nat) : Nat :=
  s.queue.foldl (fun a e => match e.2 with
    | .ropeNetStoreArrival c x bytes =>
      if c = n && x.src = 16 * n + k && bytes.any fun b => off ≤ b.addr && b.addr < off + size then max a e.1 else a
    | _ => a) 0

/-! ### FIFO banks and messages (R293, R298) -/

/-- The entries of a FIFO bank. -/
def Banks.fifoAt (b : Banks) (k : Nat) : List FifoEnt := (Table.find? k b.fifo).getD []
def Banks.setFifo (b : Banks) (k : Nat) (l : List FifoEnt) : Banks := { b with fifo := Table.put k l b.fifo }
/-- The bank of rope queue q (R293). -/
def queueBank (q : Nat) : Nat := 17 - q
/-- Rope queue q exists (R294). -/
def Banks.hasQueue (b : Banks) (q : Nat) : Bool := q + 2 ≤ b.fifos
/-- The oldest entry of a rope queue: spilled entries come before those in the bank (R101, R293). -/
def Core.queueHead (c : Core) (q : Nat) : Option FifoEnt :=
  match (Table.find? q c.task.spilled).getD [] with
  | x :: _ => some x
  | [] => (c.banks.fifoAt (queueBank q)).head?
/-- Remove it. -/
def Core.queueDrop (c : Core) (q : Nat) : Core :=
  match (Table.find? q c.task.spilled).getD [] with
  | _ :: t => c.onTask fun j => { j with spilled := Table.put q t j.spilled }
  | [] => { c with banks := c.banks.setFifo (queueBank q) ((c.banks.fifoAt (queueBank q)).drop 1) }
/-- The oldest message, inbox and spill area merged in arrival order (R298). -/
def Core.msgHead (c : Core) : Option FifoEnt :=
  match c.task.msgs, c.banks.fifoAt 18 with
  | [], [] => none
  | d :: _, [] => some d
  | [], e :: _ => some e
  | d :: _, e :: _ => if d.n < e.n then some d else some e
/-- Remove the message of a number. -/
def Core.msgDrop (c : Core) (n : Nat) : Core :=
  let c1 := c.onTask fun j => { j with msgs := j.msgs.filter fun m => m.n != n }
  { c1 with banks := c1.banks.setFifo 18 ((c1.banks.fifoAt 18).filter fun e => e.n != n) }
/-- Two lists of messages in arrival order become one. -/
def FifoEnt.insert (e : FifoEnt) : List FifoEnt → List FifoEnt
  | [] => [e]
  | x :: t => if e.n < x.n then e :: x :: t else x :: e.insert t
/-- Unread entries of the inbox bank moved to the spill area in arrival order, as far as it has room (R101, R319). -/
def Core.spillInbox (c : Core) (p : FifoEnt → Bool) : Core :=
  let all := c.banks.fifoAt 18
  let go := (all.takeWhile p).take (2048 - c.task.msgs.length)
  if go.isEmpty then c
  else { c.onTask fun j => { j with msgs := go.foldl (fun l e => e.insert l) j.msgs } with
         banks := c.banks.setFifo 18 (all.drop go.length) }
/-- Unread entries of a rope-queue bank moved to the spill area (R101, R243). -/
def Core.spillQueue (c : Core) (q : Nat) (p : FifoEnt → Bool) : Core :=
  let all := c.banks.fifoAt (queueBank q)
  let go := all.takeWhile p
  if go.isEmpty then c
  else { c.onTask fun j => { j with spilled := Table.put q ((Table.find? q j.spilled).getD [] ++ go) j.spilled } with
         banks := c.banks.setFifo (queueBank q) (all.drop go.length) }
/-- The slot of a core whose task has an identity, bound and not ended (R298). -/
def Core.slotOf (c : Core) (asid : Asid) (task : W32) : Option Nat :=
  (List.find? (fun (e : Nat × Slot) => e.2.v && e.2.asid == asid && e.2.taskid == task) c.slots).map (·.1)
/-- A message of arrival number `n` reaches its core (R298): the inbox, else the spill area; none where the spill area
is full. The flag says that there is no such task and the message is dropped. -/
def Core.deliver (c : Core) (n : Nat) (tick : BitVec 16) (asid : Asid) (task : W32) (x : W64) : Option (Core × Bool) :=
  match c.slotOf asid task with
  | none => some (c, true)
  | some j =>
    let inbox := c.banks.fifoAt 18
    if c.on = some j && c.banks.role 18 = 2 && inbox.length < 2048 then
      some ({ c with banks := c.banks.setFifo 18 (inbox ++ [⟨n, x, tick, false⟩]) }, false)
    else if (c.slot j).msgs.length < 2048 then
      some (c.onSlot j fun t => { t with msgs := t.msgs ++ [⟨n, x, tick, false⟩] }, false)
    else none

end Sys2Proof.Machine
end

