-- ==== Sys2Proof/Machine/Operands.lean ====
section
/-! DEFINITION. The operands of a word: which registers it reads and writes and with which latency (spec/07 R126;
spec/08 R132–R135; spec/09 R165), the operand forms of the scalar and vector units, tagged pointers and scaled
elements (spec/02 R29–R31, R40, R41; spec/09 R164, R176, R177; spec/12 R241). -/

namespace Sys2Proof.Machine

inductive RegName
  | g (r : Reg) | v (r : VReg) | p (r : PReg)
  deriving DecidableEq, Repr

/-- What a word reads and writes, and the fixed latency of what it writes (none: interlocked or nothing). -/
structure Uses where
  reads  : List RegName
  writes : List RegName
  lat    : Option Nat
  deriving DecidableEq, Repr

/-- Latency of major 0x18's op (R132). -/
def fpLat (op : Nat) : Nat :=
  if op = 3 || op = 4 then 16 else if op < 8 then 4 else if op < 12 then 2 else if op = 12 then 8 else 1
/-- Latency of the FP32 vector functions (R165). -/
def vfLat (fn : Nat) : Nat := if fn < 4 then 4 else if fn < 6 then 16 else if fn < 8 then 4 else if fn = 8 then 8 else 1

/-- Registers of a word, from its fields (R110, R126). A field that an instruction does not use is zero and names g0. -/
def usesOf (p : Parts) : Uses :=
  let x := RegName.g p.x
  let y := RegName.g p.y
  let z := RegName.g p.z
  let vx := RegName.v p.x
  let vy := RegName.v p.y
  let vz := RegName.v p.z
  let m := RegName.p p.p
  let f := p.f.toNat
  match p.op.toNat with
  | 0x00 => ⟨[y, z], [x], some (if f % 256 = 3 then 3 else if f % 256 = 4 then 4 else if f % 256 = 5 || f % 256 = 6 then 24 else 1)⟩
  | 0x01 => ⟨[y, z], [x], some 1⟩
  | 0x02 => ⟨[y, z], [x], some 1⟩
  | 0x03 => ⟨[y], [x], some 1⟩
  | 0x04 => ⟨[y], [x], some 1⟩
  | 0x05 => ⟨[y], [x], some 1⟩
  | 0x06 => ⟨[y], [x], some 1⟩
  | 0x07 => ⟨[y], [x], some 1⟩
  | 0x08 => ⟨[y], [x], some 1⟩
  | 0x09 => ⟨[y], [x], some 1⟩
  | 0x0A => ⟨[y], [x], some 1⟩
  | 0x0B => ⟨[], [x], some 1⟩
  | 0x0C => ⟨[x], [x], some 1⟩
  | 0x0D => ⟨[], [x], some 1⟩
  | 0x0E => ⟨[y, z], [x], some 1⟩
  | 0x0F => ⟨[y], [x], some 1⟩
  | 0x10 => ⟨[x, y], [], none⟩
  | 0x11 => ⟨[x, y], [], none⟩
  | 0x12 => ⟨[x, y], [], none⟩
  | 0x13 => ⟨[x, y], [], none⟩
  | 0x15 => ⟨[], [.g 31], some 1⟩
  | 0x16 => ⟨[y], [x], some 1⟩
  | 0x17 => ⟨[y], [x], if f = 0 then some 4 else if f = 6 then some 1 else none⟩
  | 0x18 => ⟨if f / 32 = 5 then [y, z, x] else [y, z], [x], some (fpLat (f / 32))⟩
  | 0x19 => ⟨[y], [x], some 3⟩
  | 0x20 => ⟨[y], [x], none⟩
  | 0x21 => ⟨[y], [x], none⟩
  | 0x22 => ⟨[y, x], [], none⟩
  | 0x23 => ⟨[y], [x], none⟩
  | 0x24 => ⟨[y, x], [], none⟩
  | 0x25 => if f < 7 then ⟨[z], [x], none⟩ else if f < 0x12 then ⟨[y, z], [x], none⟩ else ⟨[y, z, x], [], none⟩
  | 0x26 => ⟨[y, z], [x], none⟩
  | 0x28 => ⟨if f / 16 = 7 then [y, z, x] else [y, z], [x], none⟩
  | 0x29 => ⟨[y, z], [], none⟩
  | 0x2B => ⟨[y, z], [x], none⟩
  | 0x2C => ⟨if f = 3 then [y, z, x] else [y, z], [x], none⟩
  | 0x2D => ⟨if f = 1 then [y, z] else [y, z, x], [x], none⟩
  | 0x2E => ⟨if f = 1 then [y, z, x] else [y, z], [x], none⟩
  | 0x30 => ⟨let fn := p.fn6.toNat; if fn = 3 then [vy, vz, vx, m] else if fn = 5 || 8 ≤ fn then [vy, m] else [vy, vz, m], [vx], some (vfLat p.fn6.toNat)⟩
  | 0x31 => ⟨[vy, vz, m], [vx], some (if p.fn6.toNat = 2 then 3 else 1)⟩
  | 0x32 =>
    let fn := p.fn6.toNat
    if fn < 6 || fn = 7 then ⟨if fn = 7 then [vy, m] else [vy, vz, m], [.p (p.x.extractLsb' 0 3)], some 2⟩
    else if fn = 8 then ⟨[.p (p.y.extractLsb' 0 3), m], [vx], some 2⟩
    else ⟨[vy, vz, m], [vx], some 2⟩
  | 0x33 => ⟨[vy, m], [vx], some 3⟩
  | 0x34 => ⟨[vy, m], [vx], some (let fn := p.fn6.toNat; if fn < 3 then 12 else 6)⟩
  | 0x35 =>
    let d := RegName.g p.z
    let a := RegName.g p.xa
    match p.x.toNat with
    | 0 => ⟨[d, a], [vy], none⟩
    | 1 => ⟨[d, a, vy], [], none⟩
    | 2 => ⟨[d, a], [vy], none⟩
    | 3 => ⟨[d, a, vy], [], none⟩
    | 4 => ⟨[d, a, vy], [vy], none⟩
    | 5 => ⟨[d, a, vy, .v (p.y + 1)], [], none⟩
    | 6 => ⟨[a], [vy], some 1⟩
    | 7 => ⟨[d, a], [vy], some 1⟩
    | _ => ⟨[a, vy], [d], some 2⟩
  | 0x38 => ⟨[x, y, z], [], none⟩
  | 0x39 => ⟨[y], [x], none⟩
  | 0x3A => ⟨[x, y, z], [], none⟩
  | 0x3B => ⟨[x, y, z], [], none⟩
  | 0x3C => ⟨if f < 4 then [y, z, x] else [y, z], if f = 2 || f = 3 || f = 5 || f = 6 || f = 0x11 || f = 0x15 then [x] else [], none⟩
  | 0x3D => ⟨[y, z], [], none⟩
  | 0x3E =>
    let a := RegName.g p.xa
    if p.x.extractLsb' 1 4 = 0 then ⟨[], [z], if p.arg = 7 then none else some 2⟩ else ⟨[a], [], none⟩
  | _ => ⟨[], [], none⟩

def uses (i : Instr) : Uses := match encodeParts i with | some p => usesOf p | none => ⟨[], [], none⟩

/-- A register a helper does not have (R89). -/
def RegName.leadOnly : RegName → Bool
  | .g _ => false
  | .v r => 8 ≤ r.toNat
  | .p r => 4 ≤ r.toNat
def namesLeadOnly (u : Uses) : Bool := (u.reads ++ u.writes).any RegName.leadOnly

/-- Two names of one register, each of a word outside (`false`) or in handler mode (R308). -/
def RegName.same (h h' : Bool) : RegName → RegName → Bool
  | .g q, .g r => sameReg h h' q r
  | a, b => decide (a = b)
/-- A pending result is of the register that a word outside or in handler mode names so. -/
def Pend.isOf (h : Bool) (n : RegName) : Pend → Bool
  | .g _ h' r _ => n.same h h' (.g r) | .v _ r _ _ => n == .v r | .p _ r _ => n == .p r | .report _ _ => false
/-- FINFO of the stall-count trap (R134). -/
def stallInfo (r : RegName) (cycles : Nat) : W64 :=
  let (n, cl) : Nat × Nat := match r with | .g r => (r.toNat, 0) | .v r => (r.toNat, 1) | .p r => (r.toNat, 2)
  BitVec.ofNat 64 (n + cl * 32 + min 255 cycles * 256)
/-- The latest landing of a pending result in a register after a cycle. -/
def lastLanding (h : Bool) (l : List Pend) (r : RegName) (t : Nat) : Option Nat :=
  match (l.filter fun p => p.isOf h r && t < p.time).map Pend.time with
  | [] => none
  | ts => some (ts.foldl max 0)
/-- The first register read too early, or overtaken by a result that lands after `L` cycles (R134). -/
def scoreboard (c : Ctx) (now : Nat) (u : Uses) (L : Nat) : Option W64 :=
  (u.reads.findSome? fun r => (lastLanding c.hm c.pend r now).map fun t => stallInfo r (t - now)).orElse fun _ =>
    u.writes.findSome? fun r => (lastLanding c.hm c.pend r (now + L)).map fun t => stallInfo r (t - (now + L))

/-! ### Interlocked results (R135) -/

def Dest.names : Dest → List RegName
  | .none => [] | .gz r _ => [.g r] | .gs r _ => [.g r]
def Flight.names (f : Flight) : List RegName :=
  match f.kind with
  | .load _ d => d.names
  | .store => []
  | .atomic _ _ _ ret => match ret with | some r => [.g r] | none => []
  | .vload r _ _ _ _ => [.v r]
  | .vstore _ _ _ _ _ _ => []
/-- The accesses of a context in flight. -/
def State.flightsOf (s : State) (n k : Nat) : List Flight := s.flights.filter fun f => f.core == n && f.ctx == k
/-- A word waits on a register whose interlocked result is pending; `VEXT` issues and waits by itself (R165). -/
def State.interlocked (s : State) (n k : Nat) (i : Instr) : Bool :=
  let u := uses i
  let rs : List RegName := match i with | .vext _ _ d a => [.g d, .g a] | _ => u.reads ++ u.writes
  (s.flightsOf n k).any fun f => f.names.any fun r => r != .g 0 && rs.any fun q => q.same (s.ctx n k).hm f.hm r
/-- The bytes a load takes, and the effective address of the M format (R233, R234). -/
def ldSize (t : LdTy) : Nat := match t with | .z8 | .s8 => 1 | .z16 | .s16 => 2 | .z32 | .s32 => 4 | .z64 => 8
def State.mAddr (s : State) (b : Reg) (off : BitVec 11) (size : Nat) : VA := addr (s.g b) + off.signExtend 56 * BitVec.ofNat 56 size
/-- The address of a word whose result comes with an access in flight, where it lies outside the apertures. -/
def State.flightVA (s : State) (i : Instr) : Option VA :=
  match i with
  | .ld _ t _ b off | .ldFresh _ t _ b off => some (s.mAddr b off (ldSize t))
  | .ldw _ _ _ w b => some (addr (s.myCore.wins.get ⟨w.toNat, w.isLt⟩).1 + BitVec.ofNat 56 (s.g b).toNat)
  | .atom _ _ _ _ a _ => some (addr (s.g a))
  | .vld _ _ d a => some (addr (s.g d) + addr (s.g a))
  | .vldx _ _ d _ | .vgather _ _ d _ => some (addr (s.g d))
  | _ => none
/-- The cycles after which a word's result is in its register: its fixed latency; of an interlocked one the planning latency of its
access in flight, else the next cycle (R132, R135, R210, DESIGN CHOICE: log entry 101). -/
def State.landsIn (s : State) (i : Instr) : Nat :=
  match (uses i).lat with
  | some L => L
  | none => match s.flightVA i with
    | some va => if inLocal va || inRope va then 1 else s.lat.load
    | none => 1
/-- The checking scoreboard over a word (R134). -/
def State.board (s : State) (i : Instr) : Option W64 := scoreboard s.me s.now (uses i) (s.landsIn i)

/-! ### Lanes (R162–R164) -/

/-- The active lanes of a mask predicate. -/
def State.mask (s : State) (p : PReg) : BitVec 16 := (s.p p).extractLsb' 0 16
/-- Lane results with flags: values by lane, and the flags of the active lanes ORed. -/
def laneMap (m : BitVec 16) (f : Fin 16 → W32 × FFlags) : Lanes × FFlags :=
  (Vector.ofFn fun i => (f i).1,
   (List.finRange 16).foldl (fun a i => if m.getLsbD i.val then a ||| (f i).2 else a) 0)

/-! ### Tagged pointers (R29–R31, R40) -/

/-- A decoded tag; none where R31 raises the tag fault. -/
structure Tagged where
  fmt  : Fmt
  blog : Nat
  va   : VA
  deriving DecidableEq, Repr
def tagged (x : W64) : Option Tagged :=
  match Fmt.ofCode (x.extractLsb' 60 4) with
  | none => none
  | some f =>
    let n := (x.extractLsb' 56 4).toNat
    if n ≠ 0 && !f.scalable then none else some ⟨f, n, addr x⟩

def ceilDiv (a b : Nat) : Nat := (a + b - 1) / b
/-- BlockBytes (R40). -/
def blockBytes (f : Fmt) (n : Nat) : Nat := 16 * ceilDiv (2 + ceilDiv (2 ^ n * f.bits) 8) 16
/-- Byte offset of element i from the pointer, and whether a 4-bit element lies in the high nibble; unscaled elements
are packed from the pointer itself (R40, R41, R54). -/
def elemOff (f : Fmt) (n i : Nat) : Nat :=
  if n = 0 then i * f.bits / 8 else i / 2 ^ n * blockBytes f n + 2 + i % 2 ^ n * f.bits / 8
def elemHigh (f : Fmt) (i : Nat) : Bool := f.bits = 4 && i % 2 = 1
/-- Byte offset of the scale slot of element i (R40). -/
def scaleOff (f : Fmt) (n i : Nat) : Nat := i / 2 ^ n * blockBytes f n
/-- Bytes of a row of K elements (R196). -/
def rowBytes (f : Fmt) (n K : Nat) : Nat :=
  if n = 0 then 16 * ceilDiv (ceilDiv (K * f.bits) 8) 16 else ceilDiv K (2 ^ n) * blockBytes f n
/-- Bytes an element takes: a 4-bit one counts as 1. -/
def elemSize (f : Fmt) : Nat := max 1 (f.bits / 8)
/-- The alignment the base must have (R176, R241). -/
def tagAligned (t : Tagged) : Bool := t.va.toNat % elemSize t.fmt == 0 && (t.blog = 0 || t.va.toNat % 16 == 0)

/-- The element's code out of its bytes. -/
def codeOf (f : Fmt) (high : Bool) (bytes : Nat) : Nat := if f.bits = 4 then (if high then bytes / 16 % 16 else bytes % 16) else bytes % 2 ^ f.bits
/-- Delivered into FP32 (R41, R176, R241): the product rounded with nearest-even; invalid for a malformed scale,
overflow where the rounding overflows. -/
def decodeF32 (f : Fmt) (blog : Nat) (slot : BitVec 16) (code : Nat) : W32 × FFlags :=
  let x := f.dec code
  if blog = 0 then
    match f with
    | .fp32 => (BitVec.ofNat 32 code, 0)
    | _ => let (c, g) := fp32.enc .ieee .rne (match x with | .nan _ => .nan false | y => y); (BitVec.ofNat 32 c, g &&& flagOF)
  else
    let sc := Scale.ofSlot slot
    let y := match scaledVal x sc with | .nan _ => FVal.nan false | y => y
    let (c, g) := fp32.enc .ieee .rne y
    (BitVec.ofNat 32 c, sc.fl ||| (g &&& flagOF))
/-- Delivered into INT32 unscaled (R41, R176): under the NaN scale 0 with invalid, under the zero scale 0. -/
def decodeS32 (f : Fmt) (blog : Nat) (slot : BitVec 16) (code : Nat) : W32 × FFlags :=
  let v : W32 := match f.dec code with | .fin m e => BitVec.ofInt 32 (m * 2 ^ e.toNat) | .zero _ => 0 | .inf _ => 0 | .nan _ => 0
  if blog = 0 then (v, 0)
  else match Scale.ofSlot slot with
    | .nan _ => (0, flagNV)
    | .zero => (0, 0)
    | .val _ _ => (v, 0)
/-- What a lane receives (R176). -/
def decodeLane (f : Fmt) (blog : Nat) (slot : BitVec 16) (code : Nat) : W32 × FFlags :=
  match f with
  | .raw => (BitVec.ofNat 32 (code % 256), 0)
  | .int8 | .int32 | .int4 => decodeS32 f blog slot code
  | .fp32 | .bf16 | .fp16 | .e4m3 | .e5m2 | .e2m1 | .dp8 => decodeF32 f blog slot code
/-- The element written from a lane (R177); `nsat` selects R45's other column (R241). -/
def encodeLane (f : Fmt) (blog : Nat) (slot : BitVec 16) (mode : RM) (nsat : Bool) (x : W32) : Nat × FFlags :=
  match f with
  | .raw => (x.toNat % 256, 0)
  | .int8 | .int32 | .int4 =>
    let v := x.toInt
    let c := clampInt f.bits v
    (codeInt f.bits c, if c = v then 0 else flagNV)
  | .fp32 | .bf16 | .fp16 => convert (f32 x) f mode nsat
  | .e4m3 | .e5m2 | .e2m1 | .dp8 =>
    if blog = 0 then convert (f32 x) f mode (nsat && f != .dp8)
    else
      let sc := Scale.ofSlot slot
      match sc with
      | .val m e => convert (match f32 x with | .nan s => .nan s | y => (divExact y (.fin m e)).1) f mode (nsat && f != .dp8)
      | .zero | .nan _ => (if f = .dp8 then 0x77 else 0, flagNV)

/-! ### Flags of an instruction (R43, R44, R168) -/

/-- Flags raised into RMODE. -/
def Ctx.raise (c : Ctx) (f : FFlags) : Ctx := { c with rmode := c.rmode ||| (f.zeroExtend 64 <<< 8) }
/-- The raised flags whose trap is enabled. -/
def Ctx.enabledFlags (c : Ctx) (f : FFlags) : FFlags := f &&& c.rmode.extractLsb' 16 5

end Sys2Proof.Machine
end

