-- ==== Sys2Proof/Machine/Issue.lean ====
section
/-! DEFINITION. What every word does when it issues (spec/06 R109, R119; spec/08 R129–R135; spec/09 R166, R167), and
the parks of waiting words (spec/08 R130; spec/14 R282; spec/15 R314, R317). -/

namespace Sys2Proof.Machine

/-- A context that resumes is anchored at the cycle of its first issue (R75, R136). -/
def Ctx.anchored (c : Ctx) (now : Nat) : Ctx :=
  { c with tbase := if c.anchor then BitVec.ofNat 64 now else c.tbase, anchor := false, dly := false }
/-- The word takes the core's issue slot of this cycle (R129), and a context that resumes is anchored, also where the word traps (DESIGN
CHOICE: log entry 110). -/
def State.begin (s : State) : State :=
  s.onMyCore fun c => { c.setCtx s.act.2 ((c.ctx s.act.2).anchored s.now) with last := s.act.2, slotAt := s.now + 1 }
/-- The word is issued and done: the next word is at PC + 4, no earlier than c + 1 + S (R109, R113). -/
def Ctx.advance (c : Ctx) (now : Nat) (st : Stall) : Ctx :=
  { c with pc := c.pc + 4, readyAt := now + 1 + st.toNat, park := .no, left := if c.leftHere.isSome then none else c.left, answer := none,
           fbuf := Table.del c.pc.toNat c.fbuf }
def State.done (s : State) (st : Stall) : State := s.onMe fun c => c.advance s.now st

/-- A pending imprecise fault is taken before the context's next word (R167): FSEQ names the ring entry. -/
def State.takeImprecise (s : State) (n k : Nat) : State :=
  match (s.ctx n k).fault with
  | none => s
  | some f =>
    let s1 := s.onCtx n k fun c => { c with fault := none, fseq := 0x8000000000000000 ||| f.met.seq.zeroExtend 64 }
    s1.takeTrap n k ⟨f.met.cause, f.met.faddr, f.met.finfo⟩ (s1.ctx n k).pc true false false

/-- The checks before any instruction's own (R89, R119, R134): a pending imprecise fault, a lead-only register named by a
helper, the checking scoreboard, which comes before the privilege check of the instruction itself (DESIGN CHOICE: log entry 109). Then the
instruction. -/
def State.issue (s : State) (i : Instr) (body : State → State) : State :=
  let s := s.begin
  let u := uses i
  if s.me.faulted && !s.me.midway then s.takeImprecise s.act.1 s.act.2
  else if s.act.2 != 0 && namesLeadOnly u then s.illegal (wordOf i)
  else
    match (if s.myCore.check.getLsbD 0 then s.board i else none) with
    | some info => s.trap ⟨0x0A, 0, info⟩
    | none => body s

/-- An instruction's outcome: always a next state. -/
abbrev Out := Host.Outcome State Fault Refusal

/-- Only a lead may go on; a helper takes cause 0x02. -/
def State.leadOnly (s : State) (body : State → State) : State := if s.act.2 != 0 then s.trap0 0x02 else body s
/-- Only handler mode may go on (R308). -/
def State.handlerOnly (s : State) (body : State → State) : State := if s.me.hm then body s else s.trap0 0x02
/-- What an earlier `ATOMNR`, a store or a transfer met is reported here (R100, R285, R302, R342). -/
def State.deferredPoison (s : State) (body : State → State) : State :=
  match s.me.defer with
  | some (x, a) => (s.onMe fun c => { c with defer := none }).deferred ⟨x, a, 0⟩
  | none => body s

/-! ### Parks -/

/-- A wait inside an instruction for issued commands or a home: carried out again when nothing blocks it. -/
def State.parkDrain (s : State) : State := s.onMe fun c => { c with park := .drain }
/-- The same until a cycle. -/
def State.parkTill (s : State) (t : Nat) : State := s.onMe fun c => { c with park := .drain, readyAt := max c.readyAt t }
/-- The instruction is done and its context waits for a home's answer until a cycle (R317). -/
def State.parkHome (s : State) (d : Nat) : State := s.onMe fun c => { c with park := .home (s.now + d), readyAt := max c.readyAt (s.now + d) }
/-- A page fault: the context stays at the word (R314). -/
def State.parkPage (s : State) (va : VA) (write : Bool) : State :=
  s.onMe fun c => { c with park := .pageFault s.asid (ofVA va) write }
/-- The bind of the task that a `QPUSH` is about to wait for (R294). -/
def State.watchedBind (s : State) (i : Instr) : Nat :=
  match i with
  | .qpush _ a _ => (s.core (s.act.1 / 8 * 8 + ((s.g a).extractLsb' 0 3).toNat)).task.bind
  | _ => 0
/-- A wait of a word on a condition; a bounded one has its expiry to come (R282). -/
def State.parkCond (s : State) (i : Instr) (limit : Option Nat) (expiry : Nat → Ev) : State :=
  match s.me.park with
  | .cond _ => s
  | _ =>
    let lim := s.me.leftHere.orElse fun _ => limit
    let (id, s1) := s.newId
    let s2 := s1.onMe fun c => { c with
      park := .cond ⟨s.now, lim, id, i, s.watchedBind i⟩, left := if c.leftHere.isSome then none else c.left }
    match lim with
    | some d => s2.after d (expiry id)
    | none => s2
/-- The bound that still counts: what was left at a withdrawal, else the operand (R282). -/
def State.boundLeft (s : State) (d : Nat) : Nat :=
  match s.me.park with
  | .cond w => match w.limit with
    | some l => l - (s.now - w.since)
    | none => s.me.leftHere.getD d
  | _ => s.me.leftHere.getD d
/-- The trap of a bounded wait that expires (R282, R300); FINFO of cause 0x15 is the word too (DEDUCED: log entry 116). -/
def boundTrap (i : Instr) : Trap := ⟨match i with | .sendb _ _ _ _ => 0x15 | _ => 0x12, 0, (wordOf i).zeroExtend 64⟩
/-- A bounded wait (R282): the body when the condition holds, the trap when nothing is left of the bound, else a park. -/
def State.boundedWait (s : State) (i : Instr) (holds : Bool) (bound : Nat) (body : State → State) : State :=
  if holds then body s
  else if s.boundLeft bound = 0 then
    (s.onMe fun c => { c with left := none }).trap (boundTrap i)
  else s.parkCond i (some bound) fun id => .boundedWaitExpiry s.act.1 s.act.2 id
/-- An unbounded wait. -/
def State.wait (s : State) (i : Instr) (holds : Bool) (body : State → State) : State :=
  if holds then body s else s.parkCond i none fun id => .boundedWaitExpiry s.act.1 s.act.2 id
/-- An access to the core's scratch follows the context's own rope-net stores to its bytes: it waits until they have arrived (R178,
R238). -/
def State.afterNet (s : State) (off size : Nat) (body : State) : State :=
  let t := s.ownNetBy s.act.1 s.act.2 off size
  if s.now < t then s.parkTill t else body
/-- A place's trap or page fault taken by the acting context, else the body (R233). -/
def State.withPlace (s : State) (k : Kind) (va : VA) (size : Nat) (body : Place → State) : State :=
  match s.place s.act.1 k va size with
  | .trap t => s.trap t
  | .page va w => s.parkPage va w
  | .scratch o => s.afterNet o size (body (.scratch o))
  | p => body p

/-! ### The dispatch ring (R166, R315) -/

/-- A ring entry is still in use by a command or a vector access that has not completed. -/
def State.ringBusy (s : State) (n : Nat) (seq : BitVec 6) : Bool :=
  (s.cmds.any fun c => c.core == n && c.seq == seq) || (s.flights.any fun f => f.core == n && f.seq == seq && match f.kind with
    | .vload _ _ _ _ _ => true | .vstore _ _ _ _ _ _ => true | _ => false)
/-- Take the next entry: its sequence number. -/
def State.takeRing (s : State) (w : W32) (st cp : Bool) : BitVec 6 × State :=
  let c := s.myCore
  let e : RingEnt := ⟨c.ringCtr, w, s.act.2, st, cp, false, s.me.pc, s.now, s.me.hm⟩
  (c.ringCtr, s.onMyCore fun c => { c with ring := (e :: c.ring.filter fun x => x.seq != c.ringCtr).take 64, ringCtr := c.ringCtr + 1 })
/-- Mark an entry started or completed. -/
def State.ringMark (s : State) (n : Nat) (seq : BitVec 6) (f : RingEnt → RingEnt) : State :=
  s.onCore n fun c => { c with ring := c.ring.map fun e => if e.seq = seq then f e else e }
def RingEnt.dring (e : RingEnt) : W64 :=
  BitVec.ofNat 64 (e.word.toNat * 2 ^ 32 + e.ctx * 2 ^ 28 + (if e.st then 2 ^ 27 else 0) + (if e.cp then 2 ^ 26 else 0) +
    (if e.fl then 2 ^ 25 else 0) + e.seq.toNat)

/-- A vector word: the ring entry is free, else the context parks until the command that holds it completes (R315). A
word that traps precisely takes no entry, so the body takes it. -/
def State.issueV (s : State) (i : Instr) (body : State → State) : State :=
  s.issue i fun s => if s.ringBusy s.act.1 s.myCore.ringCtr then s.parkDrain else body s

/-! ### Floating-point reporting (R44, R168) -/

/-- A scalar result with flags: written, the flags raised, and an enabled one traps precisely after the write (R44). -/
def State.fpDone (s : State) (st : Stall) (L : Nat) (d : Reg) (r : W64 × FFlags) : State :=
  let en := s.me.enabledFlags r.2
  if en = 0 then ((s.gput L d r.1).onMe fun c => c.raise r.2).done st
  else ((s.gput 1 d r.1).onMe fun c => c.raise r.2).trap ⟨0x18, 0, en.zeroExtend 64⟩
/-- The flags of a vector result of latency L: raised, and an enabled one reported once the result is written (R168). -/
def State.vpFlags (s : State) (L : Nat) (seq : BitVec 6) (w : W32) (f : FFlags) : State :=
  let en := s.me.enabledFlags f
  let s1 := s.onMe fun c => c.raise f
  if en = 0 then s1
  else (s1.onMyCore fun c => c.ringFaulted seq).onMe fun c => { c with
    pend := c.pend ++ [.report (s.now + L) ⟨⟨0x18, 0, BitVec.ofNat 64 (en.toNat * 2 ^ 32 + w.toNat), seq⟩, s.now, c.hm⟩] }
/-- A masked vector result (R164–R166). -/
def State.vpDone (s : State) (i : Instr) (st : Stall) (L : Nat) (d : VReg) (m : BitVec 16) (r : Lanes × FFlags) : State :=
  let (seq, s1) := s.takeRing (wordOf i) true true
  ((s1.vput L d m r.1).vpFlags L seq (wordOf i) r.2).done st
/-- A predicate result: bits of active lanes, zero elsewhere (R163, R170). -/
def State.ppDone (s : State) (i : Instr) (st : Stall) (d : PReg) (m : BitVec 16) (f : Fin 16 → Bool × FFlags) : State :=
  let (seq, s1) := s.takeRing (wordOf i) true true
  let bits := (List.finRange 16).foldl (fun (a : Nat) j => if m.getLsbD j.val && (f j).1 then a + 2 ^ j.val else a) 0
  let fl := (List.finRange 16).foldl (fun (a : FFlags) j => if m.getLsbD j.val then a ||| (f j).2 else a) 0
  ((s1.pput 2 d (BitVec.ofNat 64 bits)).vpFlags 2 seq (wordOf i) fl).done st

end Sys2Proof.Machine
end

