-- ==== Sys2Proof/Machine/Flight.lean ====
section
/-! DEFINITION. Performing accesses (spec/13 R263–R270; spec/12 R233–R236, R241; spec/14 R283–R285; spec/09
R175–R180): at once, or as an access in flight that a later step performs. Every access to a byte is performed after
the context's earlier accesses to it (R178). -/

namespace Sys2Proof.Machine

/-! ### One access at its performing point -/

/-- The entry an access uses when it is performed: its translation, or the cached one until GO clears (R215). -/
def State.entry (s : State) (asid : Asid) (va : VA) : Option Pte := (s.xlate asid va).orElse fun _ => s.cached asid va
/-- The bits of an access of a size. -/
def sizeMask (size : Nat) : W64 := spanBits 0 size
/-- A sealed vitrine page: its lines may be held anywhere (R226). -/
def State.sealedPage (s : State) (asid : Asid) (va : VA) (e : Pte) : Bool :=
  e.cls = .vitrine && match s.vrec asid va with | some r => r.state = .sealed | none => false
/-- The die of a home, or 4 for another package. -/
def homeOfLine (pa : Nat) : Nat := if isRemote pa then 4 else homeDie pa
/-- The grain of an address comes into the core's data cache (R218). -/
def State.fillGrain (s : State) (core : Nat) (asid : Asid) (va : VA) (e : Pte) (pa : Nat) (write : Bool) : State :=
  (e.grainLines va).foldl (fun s g =>
    s.touchLine core asid g.1 g.2 (write && g.1 == va.toNat / 128) (write && g.1 == va.toNat / 128) (homeOfLine pa)) s
/-- A read that no copy of the core answers reaches the memory-side cache: one that a slice or a replica on the die may answer, perhaps
(R226, R227). -/
def State.readHeat (s : State) (core : Nat) (asid : Asid) (va : VA) (e : Pte) (pa : Nat) : State :=
  if hasOrder e pa then s.fillHeat pa
  else match (if e.cls = .vitrine then s.vrec asid va else none) with
    | some r => if r.state != .open' && r.pres.contains (dieOf core) then s.fillHeat pa else s.heatUp pa false
    | none => s.heatUp pa false
/-- A read or a store meets the core's data cache (R218, R221, R226, R227): a miss fills the grain and counts; a store to a page
of another die updates a held copy only; what no cache may hold goes to memory and counts. -/
def State.fill (s : State) (core : Nat) (asid : Asid) (va : VA) (e : Pte) (pa : Nat) (write : Bool) : State :=
  if hasOrder e pa then
    let held := (s.core core).holds asid va
    let s1 := if held then s else s.fillHeat pa
    if write && dieOf core != homeDie pa then
      if held then s1.touchLine core asid (va.toNat / 128) 0 true false (homeDie pa) else s1
    else s1.fillGrain core asid va e pa write
  else if s.sealedPage asid va e then
    if (s.core core).holds asid va then s else (s.readHeat core asid va e pa).fillGrain core asid va e pa false
  else if write then s.heatUp pa true
  else s.readHeat core asid va e pa
/-- The die of a reader becomes a holder of a sealed page (R226). -/
def State.present (s : State) (core : Nat) (asid : Asid) (va : VA) (e : Pte) : State :=
  if e.cls = .vitrine then
    match s.vrec asid va with
    | some r => if r.state = .sealed && !r.pres.contains (dieOf core) then
        { s with vit := Table.put (vitKey asid va) { r with pres := r.pres ++ [dieOf core] } s.vit } else s
    | none => s
  else s
/-- A read of memory performed for a context, of the bits of a mask (R263): value and state. -/
def State.readMem (s : State) (n k : Nat) (fresh : Bool) (asid : Asid) (va : VA) (size : Nat) (mask : W64) (e : Pte) (pa : Nat) :
    W64 × State :=
  let s1 := (s.keepXlat asid va e).classify n false asid va e pa
  let (x, f, s2) := s1.loadBits n (s1.ctx n k).floors (fresh || e.cls = .device) asid va size mask (s1.classed e) pa
  (x, ((s2.fill n asid va e pa false).present n asid va e).onCtx n k fun c => { c with floors := f })
/-- Bits that are one nibble of a byte. -/
def oneNibble (mask : W64) : Bool := mask == 0x0F || mask == 0xF0
/-- A poison that a store or an atomic met is reported later (R285, R342); the first one stays. -/
def State.deferAt (s : State) (n k : Nat) (va : VA) : State :=
  s.onCtx n k fun c => c.defers (0x13, ofVA va)
/-- A write of memory performed for a context; without a route it is dropped (R342); a nibble stored at home drops the core's copy of its grain (R236). -/
def State.writeMem (s : State) (n k : Nat) (asid : Asid) (va : VA) (size : Nat) (x mask : W64) (e : Pte) (pa : Nat) : State :=
  if s.noRoute pa then s.deferAt n k va
  else
  let s1 := (s.keepXlat asid va e).classify n false asid va e pa
  let (f, s2) := s1.storeAt (s1.ctx n k).floors asid va size x mask (s1.classed e) pa
  let e1 := s1.classed e
  let s3 := s2.fill n asid va e pa true
  (if oneNibble mask && hasOrder e pa && (e1.sh || e1.owner != n) then s3.dropGrain n asid va e else s3).onCtx n k fun c => { c with floors := f }

/-- The bytes of a rope-net store (R238). -/
def wbytes (off : Nat) (x mask : W64) : Nat → List WByte
  | 0 => []
  | n + 1 => ⟨off, x.extractLsb' 0 8, mask.extractLsb' 0 8⟩ :: wbytes (off + 1) (x >>> 8) (mask >>> 8) n

/-- Read bits of the place of a context's access, at once. A guard byte reads zero and is recorded (R96). -/
def State.readBits (s : State) (n k : Nat) (fresh : Bool) (p : Place) (va : VA) (size : Nat) (mask : W64) : W64 × State :=
  match p with
  | .scratch o => ((s.core n).banks.read o size, s)
  | .guard o => (0, s.onCore n fun c => c.touchGuard k false o)
  | .memory e pa => s.readMem n k fresh (s.core n).asid va size mask e pa
  | .rope _ _ => (0, s)
  | .trap _ => (0, s)
  | .page _ _ => (0, s)
/-- Read the whole place. -/
def State.readPlace (s : State) (n k : Nat) (fresh : Bool) (p : Place) (va : VA) (size : Nat) : W64 × State :=
  s.readBits n k fresh p va size (sizeMask size)
/-- Write the place of a context's access, at once; a rope-net store arrives 10 cycles later (R238). -/
def State.writePlace (s : State) (n k : Nat) (p : Place) (va : VA) (size : Nat) (x mask : W64) : State :=
  match p with
  | .scratch o => s.onCore n fun c => { c with banks := c.banks.store o size x mask }
  | .guard o => s.onCore n fun c => c.touchGuard k true o
  | .memory e pa => s.writeMem n k (s.core n).asid va size x mask e pa
  | .rope c o => s.after 10 (.ropeNetStoreArrival c ⟨(s.core c).task.bind, 16 * n + k⟩ (wbytes o x mask size))
  | .trap _ => s
  | .page _ _ => s

/-! ### Objects that contexts wait for (R292) -/

/-- `M[A]` has reached the value (R292). -/
def reached (x v : W64) : Bool := !(x - v).getLsbD 63
/-- A completion object's value seen by a fresh read, none where its place stops the access. -/
def State.object (s : State) (n k : Nat) (va : VA) : Option W64 :=
  match s.place n .read va 8 with
  | .trap _ => none
  | .page _ _ => none
  | p => some (s.readPlace n k true p va 8).1
/-- The object a context waits for in `CWAIT` or `CWAITB` has reached its value, though the context has not gone on yet: what it
read (R292). -/
def State.observed (s : State) (n k : Nat) : Option W64 :=
  let c := s.ctx n k
  let look := fun (a b : Reg) => match s.object n k (addr (c.gget a)) with
    | some x => if reached x (c.gget b) then some x else none
    | none => none
  match c.park with
  | .cond w => if c.answer.isSome then none else match w.instr with
    | .cwait _ a b => look a b
    | .cwaitb _ _ a b => look a b
    | _ => none
  | _ => none
/-- Every step is followed by a test of the objects that contexts wait for: a store, an atomic or a Bump that reaches the value is
seen even if another follows (R292). -/
def State.watched (s : State) : State :=
  s.cores.foldl (fun s e => e.2.ctxs.foldl (fun s x => match s.observed e.1 x.1 with
    | some v => s.onCtx e.1 x.1 fun c => { c with answer := some (v, 0, 0) }
    | none => s) s) s

/-! ### Atomics (R283, R284) -/

end Sys2Proof.Machine
namespace Sys2Proof
open Sys2Proof.Machine

def ATy.bits : ATy → Nat | .z32 | .s32 | .f32 => 32 | .z64 | .s64 => 64
def ATy.signed : ATy → Bool | .s32 | .s64 => true | .z32 | .z64 | .f32 => false
/-- The value of `n` low bits, zero- or sign-extended to 64. -/
def zext (n : Nat) (x : W64) : W64 := x &&& spanBits 0 (n / 8)
def sext (n : Nat) (x : W64) : W64 := BitVec.ofInt 64 (decInt n x.toNat)
/-- The new value of R283, none where nothing is written. Operands and result have the type's low bits only. -/
def AOp.new (op : AOp) (ty : ATy) (old x cmp : W64) : Option W64 :=
  let n := ty.bits
  let a := zext n old
  let b := zext n x
  let less := if ty.signed then (sext n a).slt (sext n b) else a.ult b
  match op with
  | .add => some (zext n (a + b))
  | .and => some (a &&& b)
  | .or => some (a ||| b)
  | .xor => some (a ^^^ b)
  | .min => some (if less then a else b)
  | .max => some (if less then b else a)
  | .swap => some b
  | .cas => if a = zext n cmp then some b else none
  | .fadd => some ((f32Add .rne (a.extractLsb' 0 32) (b.extractLsb' 0 32)).1.zeroExtend 64)
  | .fmax => some ((f32Max (a.extractLsb' 0 32) (b.extractLsb' 0 32)).1.zeroExtend 64)
  | .fmin => some ((f32Min (a.extractLsb' 0 32) (b.extractLsb' 0 32)).1.zeroExtend 64)
/-- What gd receives (R284). -/
def ATy.result (ty : ATy) (old : W64) : W64 :=
  match ty with
  | .z32 | .f32 => zext 32 old
  | .s32 => sext 32 old
  | .z64 | .s64 => old
end Sys2Proof
namespace Sys2Proof.Machine

/-- An atomic on memory at its home (R219, R270, R284): the old value and the state. -/
def State.atomicMem (s : State) (n k : Nat) (asid : Asid) (va : VA) (op : AOp) (ty : ATy) (x cmp : W64) (e : Pte) (pa : Nat) :
    W64 × State :=
  let size := ty.bits / 8
  let s1 := (s.keepXlat asid va e).classify n true asid va e pa
  let e1 := s1.classed e
  let (old, f, s2) := s1.loadAt n (s1.ctx n k).floors true asid va size e1 pa
  let (g, s3) := match op.new ty old x cmp with
    | some v => s2.storeAt f asid va size v (sizeMask size) e1 pa
    | none => (f, s2)
  (old, (if hasOrder e1 pa then s3.fillHeat pa else s3.heatUp pa true).onCtx n k fun c => { c with floors := g })
/-- An atomic in the issuer's own bank. -/
def State.atomicScratch (s : State) (n off : Nat) (op : AOp) (ty : ATy) (x cmp : W64) : W64 × State :=
  let size := ty.bits / 8
  let old := (s.core n).banks.read off size
  (old, match op.new ty old x cmp with
    | some v => s.onCore n fun c => { c with banks := c.banks.store off size v (sizeMask size) }
    | none => s)

/-! ### Vector lanes (R175–R179) -/

/-- One lane of a vector access: element and scale slot. -/
structure LaneAt where
  i    : Fin 16
  va   : VA
  size : Nat
  high : Bool
  slot : Option VA
  deriving DecidableEq, Repr

/-- The lanes of an access: of the plain forms at A + 4i, of the scaled forms by element index (R175, R176). -/
def lanesOf (ptr : W64) (scaled : Bool) (idx : List Nat) (m : BitVec 16) : List LaneAt :=
  (List.finRange 16).filterMap fun i =>
    if !m.getLsbD i.val then none
    else if scaled then
      match tagged ptr with
      | none => none
      | some t =>
        let e := idx.getD i.val 0
        some ⟨i, t.va + BitVec.ofNat 56 (elemOff t.fmt t.blog e), elemSize t.fmt, elemHigh t.fmt e,
          if t.blog = 0 then none else some (t.va + BitVec.ofNat 56 (scaleOff t.fmt t.blog e))⟩
    else some ⟨i, addr ptr + BitVec.ofNat 56 (4 * i.val), 4, false, none⟩

/-- The bits of its bytes that a lane's element takes. -/
def LaneAt.bits (l : LaneAt) (f : Fmt) : W64 := if f.bits = 4 then (if l.high then 0xF0 else 0x0F) else sizeMask l.size
/-- A store reads the scale slot of a scaled floating-point element only (R177). -/
def LaneAt.forStore (l : LaneAt) (f : Fmt) : LaneAt := if f.isInt then { l with slot := none } else l
/-- A lane whose place stops the access: its trap or page fault, the element before the scale slot; a DEVICE page is cause 0x06
(R179, DEDUCED: log entry 26). A fault of the slot alone names the slot's address (DESIGN CHOICE: log entry 112). -/
def State.laneStop (s : State) (n : Nat) (k : Kind) (l : LaneAt) : Option (Trap ⊕ (VA × Bool)) :=
  let one := fun (k : Kind) (va : VA) (size : Nat) => match s.place n k va size with
    | .trap t => some (Sum.inl t)
    | .page va w => some (Sum.inr (va, w))
    | .memory e _ => if e.cls = PClass.device then some (Sum.inl ⟨0x06, ofVA va, 0⟩) else none
    | _ => none
  (one k l.va l.size).orElse fun _ => l.slot.bind fun a => one .read a 2
/-- The lowest faulting lane. -/
def State.lanesStop (s : State) (n : Nat) (k : Kind) (ls : List LaneAt) : Option (Trap ⊕ (VA × Bool)) :=
  ls.findSome? (s.laneStop n k)
/-- The scale slot of a lane. -/
def State.laneSlot (s : State) (n k : Nat) (l : LaneAt) : BitVec 16 × State :=
  match l.slot with
  | none => (0, s)
  | some a => let (x, s1) := s.readPlace n k false (s.place n .read a 2) a 2; (x.extractLsb' 0 16, s1)
def vfmt (ptr : W64) : Fmt × Nat := match tagged ptr with | some t => (t.fmt, t.blog) | none => (.raw, 0)
/-- Load one lane: value and flags. -/
def State.loadLane (s : State) (n k : Nat) (ptr : W64) (scaled : Bool) (l : LaneAt) : (W32 × FFlags) × State :=
  let bits := if scaled then l.bits (vfmt ptr).1 else sizeMask l.size
  let (x, s1) := s.readBits n k false (s.place n .read l.va l.size) l.va l.size bits
  if !scaled then ((x.extractLsb' 0 32, 0), s1)
  else
    let (slot, s2) := s1.laneSlot n k l
    let (f, b) := vfmt ptr
    (decodeLane f b slot (codeOf f l.high x.toNat), s2)
/-- Store one lane: flags and state. -/
def State.storeLane (s : State) (n k : Nat) (ptr : W64) (scaled : Bool) (mode : BitVec 2) (x : W32) (l : LaneAt) : FFlags × State :=
  if !scaled then (0, s.writePlace n k (s.place n .write l.va l.size) l.va l.size (x.zeroExtend 64) (sizeMask 4))
  else
    let (slot, s1) := s.laneSlot n k l
    let (f, b) := vfmt ptr
    let (c, fl) := encodeLane f b slot (RM.ofMode mode) false x
    let (v, m) : W64 × W64 := if f.bits = 4 then (if l.high then (BitVec.ofNat 64 (16 * c), 0xF0) else (BitVec.ofNat 64 c, 0x0F))
      else (BitVec.ofNat 64 c, sizeMask l.size)
    (fl, s1.writePlace n k (s1.place n .write l.va l.size) l.va l.size v m)

/-! ### Accesses in flight -/

/-- Vector flags of a context other than the acting one (R168). -/
def State.vFlagsOf (s : State) (n k : Nat) (seq : BitVec 6) (w : W32) (f : FFlags) : State :=
  let en := (s.ctx n k).enabledFlags f
  let s1 := s.onCtx n k fun c => c.raise f
  if en = 0 then s1 else s1.reportImprecise n k ⟨0x18, 0, BitVec.ofNat 64 (en.toNat * 2 ^ 32 + w.toNat), seq⟩
/-- A vector access is over: its ring entry completes. -/
def State.vectorDone (s : State) (f : Flight) : State := s.ringMark f.core f.seq fun e => { e with cp := true }
/-- The lanes of a vector access that nothing stops, and their mask. -/
def State.lanesFree (s : State) (n : Nat) (k : Kind) (ls : List LaneAt) : List LaneAt := ls.filter fun l => (s.laneStop n k l).isNone
def laneMask (ls : List LaneAt) : BitVec 16 := ls.foldl (fun m l => m ||| ((1 : BitVec 16) <<< l.i.val)) 0
/-- The fault of the lowest faulting lane is reported before the lanes that meet none are performed (R167, R179). -/
def State.laneFault (s : State) (f : Flight) (o : Option (Trap ⊕ (VA × Bool))) : State :=
  match o with
  | some (.inl t) => s.reportImprecise f.core f.ctx ⟨t.cause, t.faddr, f.word.zeroExtend 64, f.seq⟩
  | _ => s
/-- A lane reads a stale granule: nothing is delivered (R100, R179). -/
def State.laneStale (s : State) (n : Nat) (ls : List LaneAt) : Bool :=
  ls.any fun l => match s.laneStop n .read l with | some (.inl t) => t.cause == 0x08 | _ => false
/-- A vector load performed: its lanes are checked first, and those that meet no fault are delivered (R167, R179, DESIGN CHOICE: log
entry 103). -/
def State.performVload (s : State) (f : Flight) (r : VReg) (ptr : W64) (scaled : Bool) (idx : List Nat) (m : BitVec 16) : Option State :=
  let ls := lanesOf ptr scaled idx m
  match s.lanesStop f.core .read ls with
  | some (.inr _) => none
  | stop =>
    let free := s.lanesFree f.core .read ls
    let (xs, fl, s1) := free.foldl (fun (a : List (Fin 16 × W32) × FFlags × State) l =>
      let (r, s) := a.2.2.loadLane f.core f.ctx ptr scaled l
      ((l.i, r.1) :: a.1, a.2.1 ||| r.2, s)) ([], (0 : FFlags), s.laneFault f stop)
    let v : Lanes := Vector.ofFn fun i => ((xs.find? fun e => e.1 == i).map (·.2)).getD 0
    let got := if s.laneStale f.core ls then 0 else laneMask free
    some (((s1.onCtx f.core f.ctx fun c => c.vsetLanes r got v).vFlagsOf f.core f.ctx f.seq f.word fl).vectorDone f)
/-- A vector store performed, duplicates in ascending lane order (R178). -/
def State.performVstore (s : State) (f : Flight) (x : Lanes) (ptr : W64) (scaled : Bool) (idx : List Nat) (m : BitVec 16)
    (mode : BitVec 2) : Option State :=
  let ls := (lanesOf ptr scaled idx m).map fun l => if scaled then l.forStore (vfmt ptr).1 else l
  match s.lanesStop f.core .write ls with
  | some (.inr _) => none
  | stop =>
    let (fl, s1) := (s.lanesFree f.core .write ls).foldl (fun (a : FFlags × State) l =>
      let (g, s) := a.2.storeLane f.core f.ctx ptr scaled mode (x.get l.i) l
      (a.1 ||| g, s.watched)) ((0 : FFlags), s.laneFault f stop)
    some ((s1.vFlagsOf f.core f.ctx f.seq f.word fl).vectorDone f)

/-- An `ATOM` that no answer comes for: dropped, its result free (R342, DESIGN CHOICE: log entry 27). -/
def State.lostAtomic (s : State) (f : Flight) (r : Reg) : State :=
  let (n, s1) := s.freshen
  (s1.deferAt f.core f.ctx f.acc.va).onCtx f.core f.ctx fun c => c.gsetIn f.hm r (Config.lostAnswer n)
/-- One access in flight performed; none where a page fault holds it (R180). -/
def State.performOne (s : State) (f : Flight) : Option State :=
  match f.kind with
  | .load fresh d =>
    match s.entry f.asid f.acc.va with
    | none => some s
    | some e =>
      let (x, s1) := s.readMem f.core f.ctx fresh f.asid f.acc.va f.acc.size (sizeMask f.acc.size) e (e.pa f.acc.va)
      some (match d with
        | .none => s1
        | .gz r b => s1.onCtx f.core f.ctx fun c => c.gsetIn f.hm r (zext b x)
        | .gs r b => s1.onCtx f.core f.ctx fun c => c.gsetIn f.hm r (sext b x))
  | .store =>
    match s.entry f.asid f.acc.va with
    | none => some s
    | some e => some (s.writeMem f.core f.ctx f.asid f.acc.va f.acc.size f.acc.val f.acc.mask e (e.pa f.acc.va))
  | .atomic op ty cmp ret =>
    match s.entry f.asid f.acc.va with
    | none => some s
    | some e =>
      let pa := e.pa f.acc.va
      match ret with
      | none =>
        if s.poisoned pa then some (s.deferAt f.core f.ctx f.acc.va)
        else some (s.atomicMem f.core f.ctx f.asid f.acc.va op ty f.acc.val cmp e pa).2
      | some r =>
        if s.noRoute pa then some (s.lostAtomic f r)
        else
        let (old, s1) := s.atomicMem f.core f.ctx f.asid f.acc.va op ty f.acc.val cmp e pa
        some (s1.onCtx f.core f.ctx fun c => c.gsetIn f.hm r (ty.result old))
  | .vload r ptr scaled idx m => s.performVload f r ptr scaled idx m
  | .vstore x ptr scaled idx m mode => s.performVstore f x ptr scaled idx m mode

def FlightKind.vector : FlightKind → Bool
  | .load _ _ => false | .store => false | .atomic _ _ _ _ => false
  | .vload _ _ _ _ _ => true | .vstore _ _ _ _ _ _ => true
/-- Two accesses of one context may touch the same byte; a vector access is taken to touch every byte. -/
def Flight.meets (f g : Flight) : Bool :=
  f.kind.vector || g.kind.vector ||
    (f.acc.va.toNat < g.acc.va.toNat + g.acc.size && g.acc.va.toNat < f.acc.va.toNat + f.acc.size)
/-- Perform the given accesses, oldest first, and stop at one that a page fault holds. -/
def State.performAll (s : State) : List Flight → State
  | [] => s
  | f :: fs =>
    match s.performOne f with
    | some s1 => State.performAll (State.watched { s1 with flights := s1.flights.filter fun g => g.id != f.id }) fs
    | none => { s with flights := s.flights.map fun g => if g.id = f.id then { g with stuck := true } else g }
/-- The accesses that must be performed before `f` (R178), oldest first. -/
def State.before (s : State) (f : Flight) : List Flight :=
  ((s.flightsOf f.core f.ctx).filter fun g => g.id < f.id).foldr (fun g need =>
    if need.any fun h => h.meets g then g :: need else need) [f]
/-- A flight's turn: earlier accesses to its bytes, then itself. It waits while an earlier one is held (R178, R180). -/
def State.performId (s : State) (id : Nat) (again : Ev) : State :=
  match s.flights.find? fun f => f.id == id with
  | none => s
  | some f => if (s.before f).any fun g => g.stuck then s.after 1 again else s.performAll (s.before f)
/-- Every access of a context performed, oldest first, up to one that is held (R267, DESIGN CHOICE: log entry 6). -/
def State.settle (s : State) (n k : Nat) : State :=
  if (s.flightsOf n k).any fun f => f.stuck then s else s.performAll (s.flightsOf n k)
/-- A page fault holds a vector access of the context (R180). -/
def State.held (s : State) (n k : Nat) : Bool := (s.flightsOf n k).any fun f => f.stuck
/-- A new access in flight, and the step that will perform it. -/
def State.fly (s : State) (kind : FlightKind) (acc : Acc) (seq : BitVec 6) (w : W32) (d : Nat) (ev : Nat → Ev) : State :=
  let (id, s1) := s.newId
  let f : Flight := ⟨id, s.act.1, s.act.2, s.asid, kind, acc, seq, w, s.me.hm, false, s.me.pc⟩
  ({ s1 with flights := s1.flights ++ [f] }).after d (ev id)
/-- The planning latency of an access (R210). -/
def State.memLat (s : State) (pa : Nat) : Nat := if isRemote pa then s.lat.remote else s.lat.load

/-! ### Releases and acquires of the acting context (R267, R268, R285) -/

/-- When the last rope-net store of a context that is on its way arrives (R238). -/
def State.netBy (s : State) (n k : Nat) : Nat :=
  s.queue.foldl (fun a e => match e.2 with
    | .ropeNetStoreArrival _ x _ => if x.src = 16 * n + k then max a e.1 else a
    | _ => a) 0
/-- A release: earlier accesses performed, rope-net stores among them, a poison met by one reported, then what was observed is
published. -/
def State.releasing (s : State) (sc : Scope) (body : State → State) : State :=
  let s1 := s.settle s.act.1 s.act.2
  if s1.held s.act.1 s.act.2 then s1.parkDrain
  else if s1.now < s1.netBy s.act.1 s.act.2 then s1.parkTill (s1.netBy s.act.1 s.act.2)
  else s1.deferredPoison fun s => body (s.release s.act.1 s.act.2 sc)
/-- Earlier loads answered before an acquire (R268); one that a page fault holds leaves the word where it is. -/
def State.afterLoads (s : State) (body : State → State) : State :=
  let s1 := s.settle s.act.1 s.act.2
  if s1.held s.act.1 s.act.2 then s1 else body s1
/-- An acquire, earlier loads answered (R268), with the deferred poison it reports. -/
def State.acquiring (s : State) (sc : Scope) (body : State → State) : State :=
  let s1 := s.settle s.act.1 s.act.2
  if s1.held s.act.1 s.act.2 then s1.parkDrain
  else s1.deferredPoison fun s => body (s.acquire s.act.1 s.act.2 sc)

/-- Checked places of a list of byte ranges, each with its kind, in order: the first trap or page fault is taken. -/
def State.withRanges (s : State) : List (Kind × VA × Nat) → (State → State) → State
  | [], body => body s
  | (k, va, size) :: rs, body => s.withPlace k va size fun _ => s.withRanges rs body

end Sys2Proof.Machine
end

