-- ==== Sys2Proof/Machine/Waits.lean ====
section
/-! DEFINITION. When a waiting word may go on (spec/08 R130, R137, R154–R156, R182; spec/10 R189; spec/12 R243, R261;
spec/14 R282, R289–R302; spec/15 R315): the conditions are read off the state, and a context that waits carries its
word out again when its condition holds. -/

namespace Sys2Proof.Machine

/-- A counter of the belay tree (R288). -/
def findBelay (k : BKey) : List (BKey × BCount) → Option BCount
  | [] => none
  | (j, c) :: t => if j = k then some c else findBelay k t
def State.belayAt (s : State) (k : BKey) : BCount := (findBelay k s.belays).getD BCount.init
def State.setBelay (s : State) (k : BKey) (c : BCount) : State :=
  match findBelay k s.belays with
  | some _ => { s with belays := s.belays.map fun e => if e.1 = k then (k, c) else e }
  | none => { s with belays := s.belays ++ [(k, c)] }
/-- GEN of the rope-level counter of a core for a scope and identifier. -/
def State.genOf (s : State) (n : Nat) (sc : Scope) (id : Nat) : BitVec 16 := (s.belayAt ⟨0, ropeOf n, sc, id⟩).gen
/-- ID of a belay word (R287). -/
def belayId (w : W64) : Nat := (w.extractLsb' 24 6).toNat

/-- A target of QPUSH (R294): the core of the rope, with the issuer's identifier and the queue. -/
def State.pushTarget (s : State) (n : Nat) (a : W64) : Option Nat :=
  let k := n / 8 * 8 + (a.extractLsb' 0 3).toNat
  let c := s.core k
  if c.on.isSome && c.asid == (s.core n).asid && c.banks.hasQueue (a.extractLsb' 4 3).toNat then some k else none
/-- A `QPUSH` that waits for another task's space than the one now on the target core (R294). -/
def Ctx.pushGone (c : Ctx) (bind : Nat) : Bool := match c.park with | .cond w => w.bind != bind | _ => false
/-- Free entries of a queue, pushes under way counted (R293, R294). -/
def State.queueRoom (s : State) (k q : Nat) : Bool :=
  let under := s.queue.filter fun e => match e.2 with | .queueEntryArrival k' _ q' _ => k' == k && q' == q | _ => false
  ((s.core k).banks.fifoAt (queueBank q)).length + under.length < 2048

/-- VALUE and GEN of a future cell (R295). -/
def State.cell (s : State) (n : Nat) (k : Kind) (va : VA) : Option (W64 × W64 × Nat) :=
  match s.place n k va 16 with
  | .memory _ pa => some (s.phys64 pa, s.phys64 (pa + 8), pa)
  | _ => none
/-- Fabric work of a context's task that FSYNC waits for (R302). -/
def State.fabricBusy (s : State) (n k : Nat) : Bool :=
  let b := (s.core n).task.bind
  (s.xfers.any fun x => x.bind == b && x.ctx == k) || s.rounds.any fun r => r.members.any fun m => m.bind == b && m.ctx == k
/-- A context of the core is live. -/
def Core.isLive (c : Core) (k : Nat) : Bool := (c.ctx k).live

/-- The condition of a wait (R317's row "on a condition"). -/
def State.waitHolds (s : State) (n k : Nat) (i : Instr) : Bool :=
  let c := s.ctx n k
  let core := s.core n
  match i with
  | .hwait _ a => let h := (c.gget a).toNat; h = 0 || 10 < h || h == k || !core.isLive h
  | .lease _ | .leaseb _ _ => s.holdsLease n
  | .cwait _ a b | .cwaitb _ _ a b =>
    c.answer.isSome || (match s.object n k (addr (c.gget a)) with | some x => reached x (c.gget b) | none => true)
  | .wfe _ _ _ => core.task.event || c.answer.isSome
  | .qpop _ _ a | .qpopb _ _ a _ =>
    let q := ((c.gget a).extractLsb' 4 3).toNat
    !core.banks.hasQueue q || (core.queueHead q).isSome
  | .qpush _ a _ =>
    match s.pushTarget n (c.gget a) with
    | none => true
    | some t => c.pushGone (s.core t).task.bind || s.queueRoom t ((c.gget a).extractLsb' 4 3).toNat
  | .futwait _ d a | .futwaitb _ d a _ =>
    match s.cell n .futRead (addr (c.gget a)) with | some (_, g, _) => reached g (c.gget d) | none => true
  | .send _ _ _ _ | .sendb _ _ _ _ => c.answer.isSome
  | .recv _ _ | .recvb _ _ _ => core.msgHead.isSome
  | .bwait _ sc a b => s.genOf n sc (belayId (c.gget a)) != (c.gget b).extractLsb' 0 16
  | .fsync _ => !s.fabricBusy n k
  | _ => true

/-- The name under which the completed engine threads of a context are kept until it joins them (R271), by the bind of its
task. -/
def engineAgent (bind k : Nat) : Nat := 2000 + 16 * bind + k
/-- A context joins its completed engine threads (R271). -/
def State.joinEngine (s : State) (n k : Nat) : State :=
  let me := engineAgent (s.core n).task.bind k
  let f := (s.pubs.filter fun p => p.agent == me).foldl (fun f p => mergeFloors f p.seen) []
  let s1 : State := { s with pubs := s.pubs.filter fun p => p.agent != me }
  s1.onCtx n k fun c => { c with floors := mergeFloors c.floors f }
/-- Major opcode of a word. -/
def majorOf (i : Instr) : Nat := match encodeParts i with | some p => p.op.toNat | none => 64
def isVector (i : Instr) : Bool := 0x30 ≤ majorOf i && majorOf i ≤ 0x35
def isEngine (i : Instr) : Bool := majorOf i == 0x38 || majorOf i == 0x3A || majorOf i == 0x3B
/-- Commands of the array and the ladder. -/
def isArray (i : Instr) : Bool := majorOf i == 0x38 || majorOf i == 0x3A
/-- A COPY.apnd that has not made its claim. -/
def Cmd.unclaimed (c : Cmd) : Bool :=
  (match c.instr with | .copyApnd _ _ _ _ => true | _ => false) && c.claim.isNone

/-- A page event waits for its context's claims to be made (R261). -/
def State.unclaimed (s : State) (n k : Nat) : Bool := s.cmds.any fun c => c.core == n && c.ctx == k && c.unclaimed
/-- The marks of a page event that waits at its home: for INFL = 0, and for the recall (R224, R226). -/
def waitsForClaims : W64 × Nat × W64 := (1, 0, 0)
def waitsForRecall : W64 × Nat × W64 := (0, 0, 0)
/-- A page event waits at its home: for the claims in flight, and a `VFREE` for the recall (R224, R226). -/
def State.vitrineBusy (s : State) (n k : Nat) (va : VA) : Bool :=
  match s.vrec (s.core n).asid va with
  | none => false
  | some r => if (s.ctx n k).answer = some waitsForRecall then r.state == .recalling else r.state == .open' && !r.claims.isEmpty

/-- What still blocks a word that waits for commands or for a home. -/
def State.blocked (s : State) (n k : Nat) (i : Instr) : Bool :=
  let mine := s.cmds.any fun c => c.core == n && c.ctx == k
  let unstarted := !(s.unstarted n k).isEmpty
  match i with
  | .cairn _ | .tdec _ _ | .tcancel _ _ _ | .belay _ _ _ | .barr _ _ _ _ => unstarted
  | .qpush _ _ _ | .qpop _ _ _ | .qpopb _ _ _ _ | .recv _ _ | .recvb _ _ _ | .vclaim _ _ => unstarted
  | .hexit _ => mine
  | .tdone _ => ((s.core n).live.any fun j => j != 0) || s.cmds.any fun c => c.core == n
  | .leasend _ => (s.coreUnstarted n).any fun c => isArray c.instr
  | .spresize _ _ => s.cmds.any fun c => c.core == n
  | .seal _ a | .vfree _ a => s.unclaimed n k || s.vitrineBusy n k (addr ((s.ctx n k).gget a))
  | _ =>
    if isVector i then s.ringBusy n (s.core n).ringCtr
    else if isEngine i then s.ringBusy n (s.core n).ringCtr || 16 ≤ (s.coreUnstarted n).length
    else false

/-- The park lets the word at the PC issue. -/
def State.unparked (s : State) (n k : Nat) (i : Instr) : Bool :=
  match (s.ctx n k).park with
  | .no => true
  | .drain => !s.blocked n k i
  | .cond _ => s.waitHolds n k i
  | .home t => t ≤ s.now
  | .belay sc id g => s.genOf n sc id != g
  | .pageFault _ _ _ => false
  | .retry _ _ => false

/-- A cairn is recorded (R137) once every pending load is in its register (R135). -/
def State.cairned (s : State) (st : Stall) : State :=
  let s1 := s.settle s.act.1 s.act.2
  if s1.held s.act.1 s.act.2 then s1.parkDrain
  else (s1.onMe fun c => c.recordCairn (s1.holdsLease s1.act.1) (c.pc + 4)).done st
/-- A word that records a cairn after its own effect (R137): the wait for earlier commands, then the cairn. The mark in
`answer` says that the effect is done. -/
def State.cairnAfter (s : State) (st : Stall) : State :=
  if (s.unstarted s.act.1 s.act.2).isEmpty then (s.onMe fun c => { c with answer := some (0, 0, 0) }).cairned st
  else (s.onMe fun c => { c with answer := some (0, 0, 0) }).parkDrain
/-- The second part of such a word, else the body. -/
def State.onceThenCairn (s : State) (st : Stall) (body : State → State) : State :=
  match s.me.park, s.me.answer with
  | .drain, some _ => s.cairnAfter st
  | _, _ => body s

end Sys2Proof.Machine
end

