-- ==== Sys2Proof/Machine/Vector.lean ====
section
/-! DEFINITION. The vector instructions (spec/09 R162–R178). -/

namespace Sys2Proof.Machine

/-! ### Lane arithmetic (R168, R169) -/

/-- A masked lane operation: what lane i computes, with its flags. -/
def State.vOp (s : State) (i : Instr) (st : Stall) (L : Nat) (d : VReg) (p : PReg) (f : State → Fin 16 → W32 × FFlags) : Out :=
  .next (s.issueV i fun s => s.vpDone i st L d (s.mask p) (laneMap (s.mask p) (f s)))
/-- Lane i of a vector register. -/
def State.lane (s : State) (r : VReg) (i : Fin 16) : W32 := (s.v r).get i

def execVadd (st : Stall) (d a b : VReg) (p : PReg) (s : State) : Out :=
  s.vOp (.vadd st d a b p) st 4 d p fun s i => f32Add s.mode (s.lane a i) (s.lane b i)
def execVsub (st : Stall) (d a b : VReg) (p : PReg) (s : State) : Out :=
  s.vOp (.vsub st d a b p) st 4 d p fun s i => f32Sub s.mode (s.lane a i) (s.lane b i)
def execVmul (st : Stall) (d a b : VReg) (p : PReg) (s : State) : Out :=
  s.vOp (.vmul st d a b p) st 4 d p fun s i => f32Mul s.mode (s.lane a i) (s.lane b i)
def execVfma (st : Stall) (d a b : VReg) (p : PReg) (s : State) : Out :=
  s.vOp (.vfma st d a b p) st 4 d p fun s i => f32Fma s.mode (s.lane a i) (s.lane b i) (s.lane d i)
def execVdiv (st : Stall) (d a b : VReg) (p : PReg) (s : State) : Out :=
  s.vOp (.vdiv st d a b p) st 16 d p fun s i => f32Div s.mode (s.lane a i) (s.lane b i)
def execVsqrt (st : Stall) (d a : VReg) (p : PReg) (s : State) : Out :=
  s.vOp (.vsqrt st d a p) st 16 d p fun s i => f32Sqrt s.mode (s.lane a i)
def execVmin (st : Stall) (d a b : VReg) (p : PReg) (s : State) : Out :=
  s.vOp (.vmin st d a b p) st 4 d p fun s i => f32Min (s.lane a i) (s.lane b i)
def execVmax (st : Stall) (d a b : VReg) (p : PReg) (s : State) : Out :=
  s.vOp (.vmax st d a b p) st 4 d p fun s i => f32Max (s.lane a i) (s.lane b i)
def execVexp2 (st : Stall) (d a : VReg) (p : PReg) (s : State) : Out :=
  s.vOp (.vexp2 st d a p) st 8 d p fun s i => f32Exp2 (s.lane a i)
def execVabs (st : Stall) (d a : VReg) (p : PReg) (s : State) : Out :=
  s.vOp (.vabs st d a p) st 1 d p fun s i => (s.lane a i &&& 0x7FFFFFFF, 0)
def execVneg (st : Stall) (d a : VReg) (p : PReg) (s : State) : Out :=
  s.vOp (.vneg st d a p) st 1 d p fun s i => (s.lane a i ^^^ 0x80000000, 0)

/-- An integer lane operation of two operands. -/
def State.viOp (s : State) (i : Instr) (st : Stall) (L : Nat) (d a b : VReg) (p : PReg) (f : W32 → W32 → W32) : Out :=
  s.vOp i st L d p fun s j => (f (s.lane a j) (s.lane b j), 0)
def min32s (x y : W32) : W32 := if y.slt x then y else x
def max32s (x y : W32) : W32 := if x.slt y then y else x
def min32z (x y : W32) : W32 := if y.ult x then y else x
def max32z (x y : W32) : W32 := if x.ult y then y else x
def shift32 (y : W32) : Nat := (y.extractLsb' 0 5).toNat
def execViadd (st : Stall) (d a b : VReg) (p : PReg) (s : State) : Out := s.viOp (.viadd st d a b p) st 1 d a b p fun x y => x + y
def execVisub (st : Stall) (d a b : VReg) (p : PReg) (s : State) : Out := s.viOp (.visub st d a b p) st 1 d a b p fun x y => x - y
def execVimul (st : Stall) (d a b : VReg) (p : PReg) (s : State) : Out := s.viOp (.vimul st d a b p) st 3 d a b p fun x y => x * y
def execViminS32 (st : Stall) (d a b : VReg) (p : PReg) (s : State) : Out := s.viOp (.viminS32 st d a b p) st 1 d a b p min32s
def execViminZ32 (st : Stall) (d a b : VReg) (p : PReg) (s : State) : Out := s.viOp (.viminZ32 st d a b p) st 1 d a b p min32z
def execVimaxS32 (st : Stall) (d a b : VReg) (p : PReg) (s : State) : Out := s.viOp (.vimaxS32 st d a b p) st 1 d a b p max32s
def execVimaxZ32 (st : Stall) (d a b : VReg) (p : PReg) (s : State) : Out := s.viOp (.vimaxZ32 st d a b p) st 1 d a b p max32z
def execVand (st : Stall) (d a b : VReg) (p : PReg) (s : State) : Out := s.viOp (.vand st d a b p) st 1 d a b p fun x y => x &&& y
def execVor (st : Stall) (d a b : VReg) (p : PReg) (s : State) : Out := s.viOp (.vor st d a b p) st 1 d a b p fun x y => x ||| y
def execVxor (st : Stall) (d a b : VReg) (p : PReg) (s : State) : Out := s.viOp (.vxor st d a b p) st 1 d a b p fun x y => x ^^^ y
def execVshl (st : Stall) (d a b : VReg) (p : PReg) (s : State) : Out :=
  s.viOp (.vshl st d a b p) st 1 d a b p fun x y => x <<< shift32 y
def execVshr (st : Stall) (d a b : VReg) (p : PReg) (s : State) : Out :=
  s.viOp (.vshr st d a b p) st 1 d a b p fun x y => x >>> shift32 y
def execVsra (st : Stall) (d a b : VReg) (p : PReg) (s : State) : Out :=
  s.viOp (.vsra st d a b p) st 1 d a b p fun x y => x.sshiftRight (shift32 y)

/-! ### Comparison, selection, permutation (R170, R171) -/

/-- A masked test into a predicate. -/
def State.pOp (s : State) (i : Instr) (st : Stall) (d : PReg) (p : PReg) (f : State → Fin 16 → Bool × FFlags) : Out :=
  .next (s.issueV i fun s => s.ppDone i st d (s.mask p) (f s))
def execVfcmpEq (st : Stall) (d : PReg) (a b : VReg) (p : PReg) (s : State) : Out :=
  s.pOp (.vfcmpEq st d a b p) st d p fun s i => fEq (f32 (s.lane a i)) (f32 (s.lane b i))
def execVfcmpLt (st : Stall) (d : PReg) (a b : VReg) (p : PReg) (s : State) : Out :=
  s.pOp (.vfcmpLt st d a b p) st d p fun s i => fLt (f32 (s.lane a i)) (f32 (s.lane b i))
def execVfcmpLe (st : Stall) (d : PReg) (a b : VReg) (p : PReg) (s : State) : Out :=
  s.pOp (.vfcmpLe st d a b p) st d p fun s i => fLe (f32 (s.lane a i)) (f32 (s.lane b i))
def execVicmpEq (st : Stall) (d : PReg) (a b : VReg) (p : PReg) (s : State) : Out :=
  s.pOp (.vicmpEq st d a b p) st d p fun s i => (s.lane a i == s.lane b i, 0)
def execVicmpLtS32 (st : Stall) (d : PReg) (a b : VReg) (p : PReg) (s : State) : Out :=
  s.pOp (.vicmpLtS32 st d a b p) st d p fun s i => ((s.lane a i).slt (s.lane b i), 0)
def execVicmpLtZ32 (st : Stall) (d : PReg) (a b : VReg) (p : PReg) (s : State) : Out :=
  s.pOp (.vicmpLtZ32 st d a b p) st d p fun s i => ((s.lane a i).ult (s.lane b i), 0)
def execVpset (st : Stall) (d : PReg) (a : VReg) (p : PReg) (s : State) : Out :=
  s.pOp (.vpset st d a p) st d p fun s i => (s.lane a i != 0, 0)
/-- `VSEL`: the p field is the selector and no lane is masked. -/
def execVsel (st : Stall) (d a b : VReg) (p : PReg) (s : State) : Out :=
  .next (s.issueV (.vsel st d a b p) fun s =>
    s.vpDone (.vsel st d a b p) st 2 d 0xFFFF
      (Vector.ofFn fun i => if (s.mask p).getLsbD i.val then s.lane a i else s.lane b i, 0))
def execVpget (st : Stall) (d : VReg) (a : PReg) (p : PReg) (s : State) : Out :=
  s.vOp (.vpget st d a p) st 2 d p fun s i => (if (s.p a).getLsbD i.val then 0xFFFFFFFF else 0, 0)
/-- The lane that the low four bits of a value name. -/
def laneIdx (x : BitVec 4) : Fin 16 := ⟨x.toNat, x.isLt⟩
def execVperm (st : Stall) (d a b : VReg) (p : PReg) (s : State) : Out :=
  s.vOp (.vperm st d a b p) st 2 d p fun s i => (s.lane a (laneIdx ((s.lane b i).extractLsb' 0 4)), 0)

/-! ### Conversion and reductions (R172, R173, R47) -/

def execVcvt (st : Stall) (tgt : Fmt) (src : VSrc) (nsat : Bool) (d a : VReg) (p : PReg) (s : State) : Out :=
  s.vOp (.vcvt st tgt src nsat d a p) st 3 d p fun s i =>
    let x := match src with | .f32 => f32 (s.lane a i) | .s32 => FVal.ofInt (s.lane a i).toInt 0
    let (c, f) := convert x tgt s.mode nsat
    (if tgt.isInt then BitVec.ofInt 32 (decInt tgt.bits c) else BitVec.ofNat 32 c, f)

/-- One level of the tree of R47. -/
def pairUp (op : W32 → W32 → W32 × FFlags) : List W32 → List W32 × FFlags
  | x :: y :: t =>
    let (z, f) := op x y
    let (zs, g) := pairUp op t
    (z :: zs, f ||| g)
  | l => (l, 0)
/-- The tree over sixteen lanes (R47). -/
def laneTree (op : W32 → W32 → W32 × FFlags) (xs : List W32) : W32 × FFlags :=
  let (a, f) := pairUp op xs
  let (b, g) := pairUp op a
  let (c, h) := pairUp op b
  let (d, i) := pairUp op c
  (d.headD 0, f ||| g ||| h ||| i)
/-- A reduction into every lane; inactive lanes enter as the identity (R173). -/
def State.vReduce (s : State) (i : Instr) (st : Stall) (L : Nat) (d a : VReg) (p : PReg) (ident : W32)
    (op : State → W32 → W32 → W32 × FFlags) : Out :=
  .next (s.issueV i fun s =>
    let m := s.mask p
    let xs := (List.finRange 16).map fun j => if m.getLsbD j.val then s.lane a j else ident
    let (x, f) := laneTree (op s) xs
    s.vpDone i st L d 0xFFFF (Vector.ofFn fun _ => x, f))
def execVradd (st : Stall) (d a : VReg) (p : PReg) (s : State) : Out :=
  s.vReduce (.vradd st d a p) st 12 d a p 0x80000000 fun s => f32Add s.mode
def execVrmax (st : Stall) (d a : VReg) (p : PReg) (s : State) : Out := s.vReduce (.vrmax st d a p) st 12 d a p nan32 fun _ => f32Max
def execVrmin (st : Stall) (d a : VReg) (p : PReg) (s : State) : Out := s.vReduce (.vrmin st d a p) st 12 d a p nan32 fun _ => f32Min
def plain (op : W32 → W32 → W32) (x y : W32) : W32 × FFlags := (op x y, 0)
def execVriadd (st : Stall) (d a : VReg) (p : PReg) (s : State) : Out :=
  s.vReduce (.vriadd st d a p) st 6 d a p 0 fun _ => plain fun x y => x + y
def execVrimaxS32 (st : Stall) (d a : VReg) (p : PReg) (s : State) : Out :=
  s.vReduce (.vrimaxS32 st d a p) st 6 d a p 0x80000000 fun _ => plain max32s
def execVrimaxZ32 (st : Stall) (d a : VReg) (p : PReg) (s : State) : Out :=
  s.vReduce (.vrimaxZ32 st d a p) st 6 d a p 0 fun _ => plain max32z
def execVriminS32 (st : Stall) (d a : VReg) (p : PReg) (s : State) : Out :=
  s.vReduce (.vriminS32 st d a p) st 6 d a p 0x7FFFFFFF fun _ => plain min32s
def execVriminZ32 (st : Stall) (d a : VReg) (p : PReg) (s : State) : Out :=
  s.vReduce (.vriminZ32 st d a p) st 6 d a p 0xFFFFFFFF fun _ => plain min32z

/-! ### Vector memory (R175–R178) and lane moves -/

/-- A page whose stores are performed in the core's own L1, in program order (R219, R235, note 2 of R273). -/
def State.ownPage (_s : State) (n : Nat) (e : Pte) (pa : Nat) : Bool :=
  hasOrder e pa && !e.sh && (e.owner == n || (e.owner == 2047 && dieOf n == homeDie pa))
/-- An active lane lies in an aperture, or is stored to a page of the core's own L1, or to one that does not translate and may come to
be such: these accesses are performed, or held, in program order (R178, R180, R273). -/
def State.atOnce (s : State) (kind : FlightKind) (ptr : W64) (scaled : Bool) (idx : List Nat) (m : BitVec 16) : Bool :=
  let store := match kind with | .vstore _ _ _ _ _ _ => true | _ => false
  let ls := lanesOf ptr scaled idx m
  ls.isEmpty || ls.any fun l => inLocal l.va || inRope l.va || (store && match s.place s.act.1 .write l.va l.size with
    | .memory e pa => s.ownPage s.act.1 e pa
    | .page _ _ => true
    | _ => false)
/-- A vector memory word past its checks at issue: it takes a ring entry; its lanes are performed at once where one of them is
in program order, and as an access in flight elsewhere. -/
def State.vAccess (s : State) (i : Instr) (st : Stall) (kind : FlightKind) (ptr : W64) (scaled : Bool) (idx : List Nat)
    (m : BitVec 16) (ev : Nat → Ev) : State :=
  let reads := fun (l : LaneAt) => match kind with | .vstore _ _ true _ _ _ => l.forStore (vfmt ptr).1 | _ => l
  let net := ((lanesOf ptr scaled idx m).map reads).foldl (fun t l => if inLocal l.va then
    (l.slot.toList.map fun a => (a, 2)).foldl (fun t x => max t (s.ownNetBy s.act.1 s.act.2 (x.1.toNat - scrBase) x.2))
      (max t (s.ownNetBy s.act.1 s.act.2 (l.va.toNat - scrBase) l.size)) else t) 0
  if s.now < net then s.parkTill net
  else
  let (seq, s1) := s.takeRing (wordOf i) true false
  let s2 := s1.fly kind ⟨addr ptr, 64, 0, 0⟩ seq (wordOf i) s1.lat.load ev
  (if s.atOnce kind ptr scaled idx m then s2.settle s2.act.1 s2.act.2 else s2).done st
def execVld (st : Stall) (v : VReg) (d a : Reg) (s : State) : Out :=
  .next (s.issueV (.vld st v d a) fun s =>
    let p := ofVA (addr (s.g d) + addr (s.g a))
    if p.extractLsb' 0 2 ≠ 0 then s.trap ⟨0x03, p, 0⟩
    else s.vAccess (.vld st v d a) st (.vload v p false [] 0xFFFF) p false [] 0xFFFF .loadAnswered)
def execVst (st : Stall) (v : VReg) (d a : Reg) (s : State) : Out :=
  .next (s.issueV (.vst st v d a) fun s =>
    let p := ofVA (addr (s.g d) + addr (s.g a))
    if p.extractLsb' 0 2 ≠ 0 then s.trap ⟨0x03, p, 0⟩
    else s.vAccess (.vst st v d a) st (.vstore (s.v v) p false [] 0xFFFF 0) p false [] 0xFFFF .storePerformed)
/-- An element's bytes carry out of bit 55 (R176, R241). -/
def carriesOut (t : Tagged) (e : Nat) : Bool := 2 ^ 56 < t.va.toNat + elemOff t.fmt t.blog e + elemSize t.fmt
/-- The checks at issue of a scaled vector access of given element indices (R31, R176): the trap, or none. -/
def scaledStop (ptr : W64) (idx : List Nat) : Option Trap :=
  match tagged ptr with
  | none => some ⟨0x07, ofVA (addr ptr), 0⟩
  | some t =>
    if !tagAligned t then some ⟨0x03, ofVA t.va, 0⟩
    else if idx.any fun e => 2 ^ 56 < e || carriesOut t e then some ⟨0x07, ofVA t.va, 0⟩
    else none
/-- Elements k … k+15. -/
def sixteen (k : Nat) : List Nat := (List.range 16).map (k + ·)
/-- The indices of the active lanes only. -/
def activeIdx (m : BitVec 16) (idx : List Nat) : List Nat :=
  (List.range 16).filterMap fun i => if m.getLsbD i then some (idx.getD i 0) else none
def State.scaledAccess (s : State) (i : Instr) (st : Stall) (ptr : W64) (idx : List Nat) (m : BitVec 16) (kind : FlightKind)
    (ev : Nat → Ev) : State :=
  match scaledStop ptr (activeIdx m idx) with
  | some t => s.trap t
  | none => s.vAccess i st kind ptr true idx m ev
def execVldx (st : Stall) (v : VReg) (d a : Reg) (s : State) : Out :=
  .next (s.issueV (.vldx st v d a) fun s =>
    let idx := sixteen (s.g a).toNat
    s.scaledAccess (.vldx st v d a) st (s.g d) idx 0xFFFF (.vload v (s.g d) true idx 0xFFFF) .loadAnswered)
def execVstx (st : Stall) (v : VReg) (d a : Reg) (s : State) : Out :=
  .next (s.issueV (.vstx st v d a) fun s =>
    let idx := sixteen (s.g a).toNat
    s.scaledAccess (.vstx st v d a) st (s.g d) idx 0xFFFF
      (.vstore (s.v v) (s.g d) true idx 0xFFFF (s.me.rmode.extractLsb' 0 2)) .storePerformed)
/-- The lanes of a register as element indices. -/
def State.indices (s : State) (r : VReg) : List Nat := (List.finRange 16).map fun i => (s.lane r i).toNat
def execVgather (st : Stall) (v : VReg) (d a : Reg) (s : State) : Out :=
  .next (s.issueV (.vgather st v d a) fun s =>
    let m := (s.g a).extractLsb' 0 16
    let idx := s.indices v
    s.scaledAccess (.vgather st v d a) st (s.g d) idx m (.vload v (s.g d) true idx m) .loadAnswered)
def execVscatter (st : Stall) (v : VReg) (d a : Reg) (s : State) : Out :=
  .next (s.issueV (.vscatter st v d a) fun s =>
    let m := (s.g a).extractLsb' 0 16
    let idx := s.indices (v + 1)
    s.scaledAccess (.vscatter st v d a) st (s.g d) idx m
      (.vstore (s.v v) (s.g d) true idx m (s.me.rmode.extractLsb' 0 2)) .storePerformed)
def execVbcast (st : Stall) (v : VReg) (a : Reg) (s : State) : Out :=
  .next (s.issueV (.vbcast st v a) fun s =>
    s.vpDone (.vbcast st v a) st 1 v 0xFFFF (Vector.ofFn fun _ => (s.g a).extractLsb' 0 32, 0))
/-- The mask of one lane. -/
def oneLane (x : W64) : BitVec 16 := (1 : BitVec 16) <<< (x.extractLsb' 0 4).toNat
def execVins (st : Stall) (v : VReg) (d a : Reg) (s : State) : Out :=
  .next (s.issueV (.vins st v d a) fun s =>
    s.vpDone (.vins st v d a) st 1 v (oneLane (s.g d)) (Vector.ofFn fun _ => (s.g a).extractLsb' 0 32, 0))
/-- With a load into the register pending, the result is interlocked: it is there when the word is done (R135, R165); the fault of such a
load is taken in place of the word (R167). -/
def execVext (st : Stall) (v : VReg) (d a : Reg) (s : State) : Out :=
  .next (s.issueV (.vext st v d a) fun s =>
    let late := (s.flightsOf s.act.1 s.act.2).any fun f => f.names.contains (.v v)
    let s0 := if late then s.settle s.act.1 s.act.2 else s
    if s0.held s0.act.1 s0.act.2 then s0.parkDrain
    else if late && s0.me.faulted then s0.takeImprecise s0.act.1 s0.act.2
    else
    let s := s0
    let (_, s1) := s.takeRing (wordOf (.vext st v d a)) true true
    ((if late then fun (d : Reg) (x : W64) => s1.gset d x else s1.gput 2) d ((s.lane v (laneIdx ((s.g a).extractLsb' 0 4))).zeroExtend 64)).done st)

end Sys2Proof.Machine
end

