-- ==== Sys2Proof/Machine/Memory.lean ====
section
/-! DEFINITION. The scalar memory instructions (spec/12 R233–R246) and `ICINV` (spec/06 R116). -/

namespace Sys2Proof.Machine

/-! ### Loads and stores (R234–R237) -/

def ldDest (t : LdTy) (d : Reg) : Dest :=
  match t with | .z8 => .gz d 8 | .z16 => .gz d 16 | .z32 => .gz d 32 | .z64 => .gz d 64 | .s8 => .gs d 8 | .s16 => .gs d 16 | .s32 => .gs d 32
/-- Write a value to a load's destination. -/
def State.toDest (s : State) (x : W64) : Dest → State
  | .none => s
  | .gz r b => s.gset r (zext b x)
  | .gs r b => s.gset r (sext b x)
/-- Order 1 of R233. -/
def State.aligned (s : State) (ea : VA) (size : Nat) (body : State → State) : State :=
  if ea.toNat % size ≠ 0 then s.trap ⟨0x03, ofVA ea, 0⟩ else body s
/-- A plain load at an effective address: in the banks at once, else in flight (R235). -/
def State.loadOp (s : State) (i : Instr) (st : Stall) (fresh : Bool) (t : LdTy) (d : Reg) (ea : VA) : State :=
  let size := ldSize t
  s.aligned ea size fun s => s.withPlace .read ea size fun p =>
    match p with
    | .memory e pa =>
      ((s.keepXlat s.asid ea e).fly (.load (fresh || e.cls = .device) (ldDest t d)) ⟨ea, size, 0, 0⟩ 0 (wordOf i) (s.memLat pa)
        .loadAnswered).done st
    | p => let (x, s1) := s.readPlace s.act.1 s.act.2 fresh p ea size; (s1.toDest x (ldDest t d)).done st
def execLd (st : Stall) (t : LdTy) (d b : Reg) (off : BitVec 11) (s : State) : Out :=
  .next (s.issue (.ld st t d b off) fun s => s.loadOp (.ld st t d b off) st false t d (s.mAddr b off (ldSize t)))
def execLdFresh (st : Stall) (t : LdTy) (d b : Reg) (off : BitVec 11) (s : State) : Out :=
  .next (s.issue (.ldFresh st t d b off) fun s => s.loadOp (.ldFresh st t d b off) st true t d (s.mAddr b off (ldSize t)))

def stSize (t : StTy) : Nat := match t with | .z8 | .lo4 | .hi4 => 1 | .z16 => 2 | .z32 => 4 | .z64 => 8
/-- Value and written bits of a store (R234, R236). -/
def stBits (t : StTy) (x : W64) : W64 × W64 :=
  match t with
  | .z8 => (x, 0xFF) | .z16 => (x, 0xFFFF) | .z32 => (x, 0xFFFFFFFF) | .z64 => (x, 0xFFFFFFFFFFFFFFFF)
  | .lo4 => (x, 0x0F) | .hi4 => (x <<< 4, 0xF0)
/-- A store at an effective address (R235, R236, R238). -/
def State.storeOp (s : State) (i : Instr) (st : Stall) (ea : VA) (size : Nat) (x mask : W64) : State :=
  s.aligned ea size fun s => s.withPlace .write ea size fun p =>
    match p with
    | .memory e pa =>
      let id := s.next
      let s1 := (s.keepXlat s.asid ea e).fly .store ⟨ea, size, x &&& mask, mask⟩ 0 (wordOf i) (s.memLat pa) .storePerformed
      (if s.ownPage s.act.1 e pa then s1.performId id (.storePerformed id) else s1).done st
    | p => (s.writePlace s.act.1 s.act.2 p ea size (x &&& mask) mask).done st
def execSt (st : Stall) (t : StTy) (d b : Reg) (off : BitVec 11) (s : State) : Out :=
  .next (s.issue (.st st t d b off) fun s =>
    let (x, m) := stBits t (s.g d)
    s.storeOp (.st st t d b off) st (s.mAddr b off (stSize t)) (stSize t) x m)

/-- The context waits for a home's answer where the access left the core. -/
def State.homeIf (s : State) (p : Place) : State :=
  match p with | .memory _ pa => s.parkHome (s.memLat pa) | _ => s
def execLdAcq (st : Stall) (sc : Scope) (d b : Reg) (off : BitVec 11) (s : State) : Out :=
  .next (s.issue (.ldAcq st sc d b off) fun s => s.deferredPoison fun s =>
    let ea := s.mAddr b off 8
    s.aligned ea 8 fun s => s.withPlace .read ea 8 fun p =>
      let s1 := s.settle s.act.1 s.act.2
      if s1.held s.act.1 s.act.2 then s1.parkDrain
      else
        let (x, s2) := s1.readPlace s.act.1 s.act.2 true p ea 8
        (((s2.gset d x).acquire s.act.1 s.act.2 sc).done st).homeIf p)
def execStRel (st : Stall) (sc : Scope) (d b : Reg) (off : BitVec 11) (s : State) : Out :=
  .next (s.issue (.stRel st sc d b off) fun s =>
    let ea := s.mAddr b off 8
    s.aligned ea 8 fun s =>
      if inRope ea then s.trap ⟨0x06, ofVA ea, 0⟩
      else s.withPlace .write ea 8 fun p => s.releasing sc fun s =>
        let s1 := s.writePlace s.act.1 s.act.2 p ea 8 (s.g d) 0xFFFFFFFFFFFFFFFF
        ((s1.release s1.act.1 s1.act.2 sc).done st).homeIf p)

/-! ### Windows, scaled access, prefetch (R239–R242) -/

def winIdx (w : BitVec 3) : Fin 8 := ⟨w.toNat, w.isLt⟩
def execLdw (st : Stall) (t : LdTy) (d : Reg) (w : BitVec 3) (b : Reg) (s : State) : Out :=
  .next (s.issue (.ldw st t d w b) fun s =>
    let (base, size) := s.myCore.wins.get (winIdx w)
    let o := (s.g b).toNat
    if size = 0 then s.trap0 0x14
    else if size.toNat < o + ldSize t then
      ((s.gset d 0).onMyCore fun c => { c with wstat := c.wstat ||| 1 ||| ((1 : W64) <<< (8 + w.toNat)) }).done st
    else s.loadOp (.ldw st t d w b) st false t d (addr base + BitVec.ofNat 56 o))

/-- The lane of a scalar scaled access to element k (R241). -/
def elementAt (t : Tagged) (k : Nat) : LaneAt :=
  ⟨0, t.va + BitVec.ofNat 56 (elemOff t.fmt t.blog k), elemSize t.fmt, elemHigh t.fmt k,
    if t.blog = 0 then none else some (t.va + BitVec.ofNat 56 (scaleOff t.fmt t.blog k))⟩
/-- The byte ranges of an element: itself, then its scale slot. -/
def LaneAt.ranges (l : LaneAt) (k : Kind) : List (Kind × VA × Nat) :=
  (k, l.va, l.size) :: match l.slot with | some a => [(.read, a, 2)] | none => []
/-- The checks of a scalar scaled access in the order of R241: the tag, a carry past bit 55, the base's alignment. -/
def elementStop (ptr : W64) (k : Nat) : Option Trap :=
  match tagged ptr with
  | none => some ⟨0x07, ofVA (addr ptr), 0⟩
  | some t =>
    if carriesOut t k then some ⟨0x07, ofVA t.va, 0⟩
    else if !tagAligned t then some ⟨0x03, ofVA t.va, 0⟩
    else none
/-- A scaled access past its checks (R241), its bytes before its scale slot (DEDUCED: log entries 20, 79). -/
def State.withElement (s : State) (a b : Reg) (k : Kind) (body : State → Tagged → LaneAt → State) : State :=
  match elementStop (s.g a) (s.g b).toNat, tagged (s.g a) with
  | some t, _ => s.trap t
  | none, none => s
  | none, some t =>
    let l := if k = .write then (elementAt t (s.g b).toNat).forStore t.fmt else elementAt t (s.g b).toNat
    s.withRanges (l.ranges k) fun s =>
      let s1 := s.settle s.act.1 s.act.2
      if s1.held s.act.1 s.act.2 then s1.parkDrain else body s1 t l
/-- An interlocked result with flags: the wait for home when no trap is taken (R44, R135). -/
def State.fpHome (s : State) (st : Stall) (d : Reg) (r : W64 × FFlags) (p : Place) : State :=
  let s1 := s.fpDone st 1 d r
  if s.me.enabledFlags r.2 = 0 then s1.homeIf p else s1
/-- The element's code and its scale slot. -/
def State.elementCode (s : State) (t : Tagged) (l : LaneAt) : Nat × BitVec 16 × State :=
  let (x, s1) := s.readBits s.act.1 s.act.2 false (s.place s.act.1 .read l.va l.size) l.va l.size (l.bits t.fmt)
  let (slot, s2) := s1.laneSlot s1.act.1 s1.act.2 l
  (codeOf t.fmt l.high x.toNat, slot, s2)
def execLdxF32 (st : Stall) (d a b : Reg) (s : State) : Out :=
  .next (s.issue (.ldxF32 st d a b) fun s => s.withElement a b .read fun s t l =>
    let (c, slot, s1) := s.elementCode t l
    let (x, f) := decodeF32 t.fmt t.blog slot c
    s1.fpHome st d (x.zeroExtend 64, f) (s.place s.act.1 .read l.va l.size))
/-- Delivered to INT32 by `LDX.s32` (R241). -/
def decodeToS32 (f : Fmt) (blog : Nat) (slot : BitVec 16) (mode : RM) (code : Nat) : W32 × FFlags :=
  match f with
  | .raw | .int8 | .int32 | .int4 => decodeLane f blog slot code
  | .fp32 | .bf16 | .fp16 | .e4m3 | .e5m2 | .e2m1 | .dp8 =>
    let sc := Scale.ofSlot slot
    let (x, g) : FVal × FFlags := if blog = 0 then (f.dec code, 0) else (scaledVal (f.dec code) sc, sc.fl)
    let (c, h) := encInt 32 mode x
    (BitVec.ofNat 32 c, g ||| h)
def execLdxS32 (st : Stall) (d a b : Reg) (s : State) : Out :=
  .next (s.issue (.ldxS32 st d a b) fun s => s.withElement a b .read fun s t l =>
    let (c, slot, s1) := s.elementCode t l
    let (x, f) := decodeToS32 t.fmt t.blog slot s1.mode c
    s1.fpHome st d (x.signExtend 64, f) (s.place s.act.1 .read l.va l.size))
/-- `STX` and `STX.nsat`: the element is written, then an enabled flag traps (R44, R241). -/
def State.stxOp (s : State) (st : Stall) (d a b : Reg) (nsat : Bool) : State :=
  s.withElement a b .write fun s t l =>
    let p := s.place s.act.1 .write l.va l.size
    let (slot, s1) := s.laneSlot s.act.1 s.act.2 l
    let (c, f) := encodeLane t.fmt t.blog slot s.mode nsat ((s.g d).extractLsb' 0 32)
    let (v, m) : W64 × W64 :=
      if t.fmt.bits = 4 then (if l.high then (BitVec.ofNat 64 (16 * c), 0xF0) else (BitVec.ofNat 64 c, 0x0F))
      else (BitVec.ofNat 64 c, sizeMask l.size)
    (s1.writePlace s1.act.1 s1.act.2 p l.va l.size v m).fpHome st 0 (0, f) p
def execStx (st : Stall) (d a b : Reg) (s : State) : Out := .next (s.issue (.stx st d a b) fun s => s.stxOp st d a b false)
def execStxNsat (st : Stall) (d a b : Reg) (s : State) : Out := .next (s.issue (.stxNsat st d a b) fun s => s.stxOp st d a b true)
/-- `PREF`: a fill that never faults; only the heat counters and the lines held see it (R242). -/
def execPref (st : Stall) (a b : Reg) (s : State) : Out :=
  .next (s.issue (.pref st a b) fun s =>
    let ea := addr (s.g a) + addr (s.g b)
    let s1 := match s.place s.act.1 .read ea 1 with
      | .memory e pa =>
        if hasOrder e pa || s.sealedPage s.asid ea e then
          let s0 := (s.keepXlat s.asid ea e).classify s.act.1 false s.asid ea e pa
          (s0.fill s.act.1 s.asid ea (s0.classed e) pa false).present s.act.1 s.asid ea e
        else s
      | _ => s
    s1.done st)

/-! ### Scratch configuration (R243–R245) -/

/-- Word keys of a range of addresses of an identifier. -/
def rangeKeys (asid : Asid) (lo hi : Nat) (key : Nat) : Bool := asidKeys asid key && lo / 8 ≤ key % 2 ^ 53 && key % 2 ^ 53 < (hi + 7) / 8
/-- Dirty lines of a core chosen by a test are written back, and the chosen lines are dropped (R93, R101). -/
def State.giveUpLines (s : State) (n : Nat) (p : Line → Bool) : State :=
  let ls := (s.core n).lines.filter p
  let s1 := ls.foldl (fun s l =>
    if l.dirty then s.writeBackAll (rangeKeys l.asid (l.line * 128) (l.line * 128 + 128)) else s) s
  s1.onCore n fun c => { c with lines := c.lines.filter fun l => !p l }
/-- How long the write-backs of a core's chosen lines take: no time where none is dirty, else a free time (DESIGN CHOICE: log entry 82). -/
def State.writeBackTime (s : State) (n : Nat) (p : Line → Bool) : Nat :=
  if (s.core n).lines.any fun l => l.dirty && p l then Config.writeBack s.fresh else 0
/-- Scratch of S bytes and f FIFO banks on the bytes kept below `keep`: what lies above is zero; granules written whole
by the zeroing are stamped; tags of slots wholly above the old S are 0 (R243) (DEDUCED: log entry 22). -/
def Banks.resized (b : Banks) (S f : Nat) (tick : BitVec 16) : Banks :=
  let old := b.slen
  let keep := min old S
  let oldN := (old + 16383) / 16384
  let gs := upFrom ((keep + 511) / 512) ((S + 16383) / 16384 * 32 - (keep + 511) / 512)
  let whole := gs.filter fun g => 512 * g + 512 ≤ S || oldN ≤ g / 32
  let b1 := { b with bytes := b.bytes.filter fun c => c.1 < keep || saveBase ≤ c.1,
                     gran := b.gran.filter fun e => e.1 < (keep + 511) / 512 || 32 * (19 - f) ≤ e.1,
                     tags := b.tags.filter fun e => 2048 * e.1 < old, spcfg := spcfgWord S f }
  whole.foldl (fun b g => b.setGran g ⟨tick, false, false⟩) b1
/-- A line lies in a bank that is no cache way under a new SPCFG. -/
def Line.lost (spcfg : W64) (l : Line) : Bool := spcfg.extractLsb' (2 * l.way) 2 != 0
/-- FIFO banks that lose the role: their unread entries go to the spill area in arrival order (R101, R243). -/
def Core.spillFifos (c : Core) (newF : Nat) : Core :=
  let gone := fun k => c.banks.role k = 2 && k < 19 - newF
  let c1 := if gone 18 then c.spillInbox fun _ => true else c
  (List.range 18).foldl (fun c k => if gone k then c.spillQueue (17 - k) fun _ => true else c) c1
/-- The marks of an `SPRESIZE` that waits for what the core has under way, and for its write-backs and the zeroing (R243, R317). -/
def waitsForCore : W64 × Nat × W64 := (0, 0, 0)
def writesBack : W64 × Nat × W64 := (1, 0, 0)
/-- The new layout takes effect, and its granules are stamped, when the write-backs and the zeroing end (R99, R243). -/
def execSpresize (st : Stall) (a : Reg) (s : State) : Out :=
  .next (s.issue (.spresize st a) fun s => s.leadOnly fun s =>
    let x := s.g a
    let B := (x.extractLsb' 0 32).toNat
    let f := (x.extractLsb' 32 5).toNat
    let S := (B + 63) / 64 * 64
    if x.extractLsb' 37 27 ≠ 0 || 294912 < B || 18 < (S + 16383) / 16384 + f then s.illegal (wordOf (.spresize st a))
    else
      let w := spcfgWord S f
      if s.me.answer = some writesBack then
        let s2 := s.giveUpLines s.act.1 (Line.lost w)
        (s2.onMyCore fun c => let c1 := c.spillFifos f; { c1 with banks := c1.banks.resized S f s.tick }).done st
      else
      let s1 := (s.myCore.live).foldl (fun s k => s.settle s.act.1 k) s
      if s1.blocked s.act.1 s.act.2 (.spresize st a) || (s1.flights.any fun g => g.core == s.act.1) then
        (s1.onMe fun c => { c with answer := some waitsForCore }).parkDrain
      else if w = s1.myCore.banks.spcfg then (s1.done st).parkHome 256
      else
        let s2 := s1.giveUpLines s.act.1 (Line.lost w)
        ({ s2 with fresh := s2.fresh + 1 }.onMe fun c => { c with answer := some writesBack }).parkTill
          (s.now + s1.writeBackTime s.act.1 (Line.lost w) + 256))

/-- The cycles after issue in which the granules of a list are rewritten, ascending in each bank, 8 pieces each: the last one in the last
cycle before the context may go on (DEDUCED: log entry 23). -/
def renewTimes (gs : List Nat) : List (Nat × Nat) :=
  gs.map fun g => (g, 3 + 8 * ((gs.filter fun h => h / 32 == g / 32 && h ≤ g).length))
/-- The checks of `RENEW` in the cycle after issue, then its rewrites: each granule takes the TICK of the cycle of its own (R244). -/
def State.renewGo (s : State) (st : Stall) (gs : List Nat) (t0 : Nat) : State :=
  let bk := s.myCore.banks
  match gs.find? fun g => (bk.granAt g).poison with
  | some g => s.trap ⟨0x13, BitVec.ofNat 64 (scrBase + 512 * g), 0⟩
  | none =>
    match gs.find? fun g => (bk.granAt g).stale s.tick with
    | some g => s.trap ⟨0x08, BitVec.ofNat 64 (scrBase + 512 * g), 0⟩
    | none =>
      let G := (List.range 18).foldl (fun m k => max m (gs.filter fun g => g / 32 == k).length) 0
      ((s.onMyCore fun c => { c with renewing := c.renewing ++ (renewTimes gs).map fun e => (e.1, t0 + e.2) }).done st).parkHome
        (t0 + 4 + 8 * G - s.now)
/-- `RENEW` (R244): the range is checked as the word issues, and the mark in `answer` keeps that cycle for what follows. -/
def execRenew (st : Stall) (a b : Reg) (s : State) : Out :=
  .next (s.issue (.renew st a b) fun s =>
    let o : Int := ((addr (s.g a)).toNat : Int) - scrBase
    let len := (s.g b).toNat
    let bk := s.myCore.banks
    if len = 0 then s.done st
    else if o < 0 then s.trap ⟨0x06, ofVA (addr (s.g a)), 0⟩
    else if bk.slen < o.toNat + len then s.trap ⟨0x06, BitVec.ofNat 64 (scrBase + max o.toNat bk.slen), 0⟩
    else match s.me.answer with
      | some (_, t0, _) => s.renewGo st (unitsOf 512 o.toNat len) t0
      | none => (s.onMe fun c => { c with answer := some (0, s.now, 0) }).parkTill (s.now + 1))

/-- The slot an address names, of the issuing core or of core k of the rope (R245). -/
def State.slotNamed (s : State) (x : W64) : Option (Nat × Nat) :=
  let va := addr x
  let n := s.act.1
  if inRope va then
    match s.placeRope n s.asid va 1 with | .rope k o => some (k, o / 2048) | _ => none
  else
    let o : Int := (va.toNat : Int) - scrBase
    if inLocal va && 0 ≤ o && o < s.myCore.banks.slen then some (n, o.toNat / 2048) else none
def execSeqset (st : Stall) (a b : Reg) (s : State) : Out :=
  .next (s.issue (.seqset st a b) fun s =>
    match s.slotNamed (s.g a) with
    | none => s.trap ⟨0x06, ofVA (addr (s.g a)), 0⟩
    | some (k, j) => (s.after 12 (.seqsetTagWrite k (s.core k).task.bind j ((s.g b).extractLsb' 0 16))).done st)
def execSeqget (st : Stall) (d a : Reg) (s : State) : Out :=
  .next (s.issue (.seqget st d a) fun s =>
    match s.slotNamed (s.g a) with
    | none => s.trap ⟨0x06, ofVA (addr (s.g a)), 0⟩
    | some (k, j) => (s.gset d (((s.core k).banks.tagAt j).zeroExtend 64)).done st)

/-! ### Flushes and `ICINV` (R246, R116) -/

/-- The range of a flush or of `ICINV`: every address, or the lines of the range. -/
def lineRange (a b : W64) : Nat × Nat :=
  if b = 0 || 2 ^ 40 ≤ b.toNat then (0, 2 ^ 56)
  else ((addr a).toNat / 128 * 128, min (((addr a).toNat + b.toNat + 127) / 128 * 128) (2 ^ 56))
/-- `FLUSH` and `FLUSHINV`: the context's earlier accesses are performed, the range's dirty bytes reach memory, and
copies are dropped; the context waits for the walk (DESIGN CHOICE: log entry 24). -/
def State.flushOp (s : State) (st : Stall) (a b : Reg) (inv : Bool) : State :=
  let s1 := s.settle s.act.1 s.act.2
  if s1.held s.act.1 s.act.2 then s1.parkDrain
  else
    let (lo, hi) := lineRange (s.g a) (s.g b)
    let keys := rangeKeys s.asid lo hi
    let inside := fun (x : Asid) (l : Nat) => x == s.asid && lo ≤ l * 128 && l * 128 < hi
    let s2 := s1.writeBackAll keys
    let s3 := if inv then (s2.dropLocs keys).dropLines inside else s2.cleanLines inside
    ((s3.done st).parkHome s3.lat.flush).after s3.lat.flush (.flushWalkComplete s.act.1 s.act.2)
def execFlush (st : Stall) (a b : Reg) (s : State) : Out := .next (s.issue (.flush st a b) fun s => s.flushOp st a b false)
def execFlushinv (st : Stall) (a b : Reg) (s : State) : Out := .next (s.issue (.flushinv st a b) fun s => s.flushOp st a b true)
/-- Cores within a scope of a core (R116). -/
def scopeCores (sc : Scope) (n m : Nat) : Bool :=
  match sc with
  | .core => n == m | .rope => n / 8 == m / 8 | .die => n / 384 == m / 384 | .device => true | .system => true
def execIcinv (st : Stall) (sc : Scope) (a b : Reg) (s : State) : Out :=
  .next (s.issue (.icinv st sc a b) fun s =>
    let (lo, hi) := lineRange (s.g a) (s.g b)
    s.releasing sc fun s =>
      let asid := s.asid
      let hit := fun (k : Nat) => k / 2 ^ 56 == asid.toNat && lo ≤ k % 2 ^ 56 && k % 2 ^ 56 < hi
      let drop := fun (c : Core) => { c with
        icache := c.icache.filter fun w => !hit w.1,
        ctxs := c.ctxs.map fun x => (x.1, { x.2 with fbuf := x.2.fbuf.filter fun w => !(lo ≤ w.1 && w.1 < hi) }) }
      let cores := s.cores.map fun e => if scopeCores sc s.act.1 e.1 then (e.1, drop e.2) else e
      let s1 : State := { s with cores := cores }
      (((s1.done st).onMe fun c => { c with fbuf := [] }).parkHome s1.lat.icinv).after s1.lat.icinv (.icinvComplete s.act.1 s.act.2))
/-- A home's answer ends the context's park (R317). -/
def State.answerHome (s : State) (n k : Nat) : State :=
  s.onCtx n k fun c => match c.park with | .home _ => { c with park := .no } | _ => c
def execIcinvComplete (core ctx : Nat) (s : State) : Out := .next (s.answerHome core ctx)
def execFlushWalkComplete (core ctx : Nat) (s : State) : Out := .next (s.answerHome core ctx)

/-! ### Accesses in flight are performed (R263, R264) -/

def execLoadAnswered (id : Nat) (s : State) : Out := .next (s.performId id (.loadAnswered id))
def execStorePerformed (id : Nat) (s : State) : Out := .next (s.performId id (.storePerformed id))
def execAtomicPerformed (id : Nat) (s : State) : Out := .next (s.performId id (.atomicPerformed id))

end Sys2Proof.Machine
end

