-- ==== Sys2Proof/Machine/Rows.lean ====
section
/-! DEFINITION. Rows of tensor elements as bytes (spec/02 R37, R40–R42; spec/10 R196, R203): packing of codes, blocks
with their scale slots, decoding and encoding of a row. -/

namespace Sys2Proof.Machine

/-- Little-endian value of bytes, and the bytes of a value (R37). -/
def leOf : List Byte → Nat
  | [] => 0
  | b :: t => b.toNat + 256 * leOf t
def leBytes : Nat → Nat → List Byte
  | 0, _ => []
  | n + 1, x => BitVec.ofNat 8 x :: leBytes n (x / 256)
/-- Bytes in groups of `k`, as values. -/
def groupsLE (k : Nat) : Nat → List Byte → List Nat
  | 0, _ => []
  | fuel + 1, bs => match bs with | [] => [] | _ => leOf (bs.take k) :: groupsLE k fuel (bs.drop k)
/-- Element codes packed in bytes (R37, R40): of a 4-bit format the low nibble first. -/
def codesIn (f : Fmt) (bs : List Byte) : List Nat :=
  if f.bits = 4 then bs.flatMap fun b => [b.toNat % 16, b.toNat / 16] else groupsLE (f.bits / 8) bs.length bs
def nibbles : List Nat → List Byte
  | [] => []
  | [c] => [BitVec.ofNat 8 (c % 16)]
  | c :: d :: t => BitVec.ofNat 8 (c % 16 + 16 * d) :: nibbles t
def packCodes (f : Fmt) (cs : List Nat) : List Byte :=
  if f.bits = 4 then nibbles cs else cs.flatMap fun c => leBytes (f.bits / 8) c
/-- Bytes cut or padded with zeros to a length. -/
def fitLen (n : Nat) (bs : List Byte) : List Byte := bs.take n ++ List.replicate (n - bs.length) 0
/-- The code of zero that pads a block (R35, R40). -/
def zeroCode (f : Fmt) : Nat := if f = .dp8 then 0x77 else 0

/-- A scale slot with the codes it scales; an element of an unscaled format is a block of its own. -/
structure Blk where
  slot  : BitVec 16
  codes : List Nat
  deriving DecidableEq, Repr

/-- The exact value of a code under a slot (R41). -/
def elemVal (f : Fmt) (blog : Nat) (slot : BitVec 16) (c : Nat) : FVal :=
  if blog = 0 then f.dec c else scaledVal (f.dec c) (Scale.ofSlot slot)
def Blk.vals (f : Fmt) (blog : Nat) (b : Blk) : List FVal := b.codes.map (elemVal f blog b.slot)
def valsOf (f : Fmt) (blog : Nat) (bs : List Blk) : List FVal := bs.flatMap (Blk.vals f blog)

/-- `n` elements of whole blocks (R40). -/
def scaledBlocks (f : Fmt) (blog : Nat) : Nat → Nat → List Byte → List Blk
  | 0, _, _ => []
  | k + 1, n, bs =>
    ⟨BitVec.ofNat 16 (leOf (bs.take 2)), (codesIn f ((bs.take (blockBytes f blog)).drop 2)).take (min n (2 ^ blog))⟩ ::
      scaledBlocks f blog k (n - 2 ^ blog) (bs.drop (blockBytes f blog))
/-- `n` elements that begin a row or a run. -/
def blocksIn (f : Fmt) (blog n : Nat) (bs : List Byte) : List Blk :=
  if blog = 0 then ((codesIn f bs).take n).map fun c => ⟨0, [c]⟩ else scaledBlocks f blog (ceilDiv n (2 ^ blog)) n bs
/-- The exact values of a row (R41). -/
def decodeRow (f : Fmt) (blog n : Nat) (bs : List Byte) : List FVal := valsOf f blog (blocksIn f blog n bs)

/-- One block as bytes, padding elements as zero codes (R40). -/
def Blk.bytes (f : Fmt) (blog : Nat) (b : Blk) : List Byte :=
  fitLen (blockBytes f blog)
    (leBytes 2 b.slot.toNat ++ packCodes f (b.codes ++ List.replicate (2 ^ blog - b.codes.length) (zeroCode f)))
/-- Blocks as bytes without padding behind the last. -/
def blockBytesOf (f : Fmt) (blog : Nat) (bs : List Blk) : List Byte :=
  if blog = 0 then packCodes f (bs.flatMap Blk.codes) else bs.flatMap (Blk.bytes f blog)
/-- A list cut into pieces of `k`. -/
def pieces {α : Type} (k : Nat) : Nat → List α → List (List α)
  | 0, _ => []
  | fuel + 1, l => match l with | [] => [] | _ => l.take k :: pieces k fuel (l.drop k)
/-- Exact values fitted to a format: an unscaled element by `Convert`, a block with the scale it chooses (R42, R45). -/
def fitBlock (f : Fmt) (blog : Nat) (xs : List FVal) : Blk :=
  if blog = 0 then ⟨0, xs.map fun x => (convert x f .rne false).1⟩
  else
    let slot := (scaleFor xs f).1
    ⟨slot, xs.map fun x => (convertScaled x (Scale.ofSlot slot) f .rne).1⟩
def fitBlocks (f : Fmt) (blog : Nat) (xs : List FVal) : List Blk := (pieces (2 ^ blog) xs.length xs).map (fitBlock f blog)
/-- The same value, of zeros the sign included. -/
def sameVal (x y : FVal) : Bool :=
  match x, y with
  | .zero a, .zero b => a == b
  | _, _ => (x.isNan && y.isNan) || x.cmp y = some 0
/-- The same values in order. -/
def sameVals : List FVal → List FVal → Bool
  | [], [] => true
  | x :: xs, y :: ys => sameVal x y && sameVals xs ys
  | _, _ => false
/-- A code that gives the value `x` under slot `t`, `c` itself where it does, and none where no code does. -/
def codeUnder (f : Fmt) (blog : Nat) (t : BitVec 16) (c : Nat) (x : FVal) : Option Nat :=
  let d := (convertScaled x (Scale.ofSlot t) f .rne).1
  if sameVal (elemVal f blog t c) x then some c else if sameVal (elemVal f blog t d) x then some d else none
/-- The slots of the finite scales (R39). -/
def finiteSlots : List (BitVec 16) := (List.range 4064).map fun k => BitVec.ofNat 16 (16 + k)
/-- Elements, each with the slot that scales it, as one block: unchanged under a slot they share; else under a slot that gives every
value exactly, one of theirs or any other; else fitted again (R59, R60, DESIGN CHOICE: log entry 85). -/
def refit (f : Fmt) (blog : Nat) (es : List (BitVec 16 × Nat)) : Blk :=
  let slot := (es.map (·.1)).headD 0
  if es.all fun e => e.1 == slot then ⟨slot, es.map (·.2)⟩
  else
    let under := fun (t : BitVec 16) => (es.mapM fun e => codeUnder f blog t e.2 (elemVal f blog e.1 e.2)).map (Blk.mk t)
    match (es.map (·.1) ++ finiteSlots).findSome? under with
    | some b => b
    | none => fitBlock f blog (es.map fun e => elemVal f blog e.1 e.2)
/-- Blocks laid out as one run (R54): blocks short inside join with what follows. -/
def regroup (f : Fmt) (blog : Nat) (bs : List Blk) : List Blk :=
  let es := bs.flatMap fun b => b.codes.map fun c => (b.slot, c)
  (pieces (2 ^ blog) es.length es).map (refit f blog)
/-- A row written as `MREAD` encodes it (R203): nearest-even, saturating, no flags, padded to RowBytes. -/
def encodeRow (f : Fmt) (blog : Nat) (xs : List FVal) : List Byte :=
  fitLen (rowBytes f blog xs.length) (blockBytesOf f blog (fitBlocks f blog xs))

/-- RowBytes by format code; a code that is no format has none. -/
def rowBytesOf (f : Option Fmt) (blog n : Nat) : Nat := match f with | some f => rowBytes f blog n | none => 0
/-- Bytes of `n` elements laid out by R40 in memory: no padding behind an unscaled row. -/
def memRowBytes (f : Fmt) (blog n : Nat) : Nat := if blog = 0 then ceilDiv (n * f.bits) 8 else rowBytes f blog n

end Sys2Proof.Machine
end

