-- ==== Sys2Proof/Machine/Resolve.lean ====
section
/-! DEFINITION. Provenance records, chains and resolution (spec/03 R51–R66). -/

namespace Sys2Proof.Machine

/-! ### Bytes at home -/

/-- Bytes of memory at an address, as their homes hold them; a poisoned line, and an address that does not translate, read zero. -/
def State.homeBytes (s : State) (asid : Asid) : Nat → VA → List Byte
  | 0, _ => []
  | n + 1, va =>
    (match s.walk asid va with
     | some e => if s.poisoned (e.pa va) then 0 else (s.devRead asid va 1 e).extractLsb' 0 8
     | none => 0) :: s.homeBytes asid n (va + 1)
/-- A range cut at page boundaries. -/
def pageCuts : Nat → VA → Nat → List (VA × Nat)
  | 0, _, _ => []
  | fuel + 1, va, n =>
    if n = 0 then []
    else
      let k := min n (65536 - va.toNat % 65536)
      (va, k) :: pageCuts fuel (va + BitVec.ofNat 56 k) (n - k)
def pagesOf (va : VA) (n : Nat) : List (VA × Nat) := pageCuts (n / 65536 + 2) va n
/-- The first byte of a range of one page that lies in a poisoned line. -/
def State.poisonAt (s : State) (va : VA) (pa n : Nat) : Option VA :=
  (List.range (n / 128 + 2)).findSome? fun k =>
    let a := if k = 0 then pa else (pa / 128 + k) * 128
    if a < pa + n && s.poisoned a then some (va + BitVec.ofNat 56 (a - pa)) else none
/-- The first trap or page fault that an access to a range meets; `pass`: poison does not stop it (R251). -/
def State.rangeStop (s : State) (pass : Bool) (k : Kind) (asid : Asid) (va : VA) (n : Nat) : Option (Trap ⊕ (VA × Bool)) :=
  (pagesOf va n).findSome? fun p => match s.check k asid p.1 p.2 with
    | .ok _ pa => if pass then none else (s.poisonAt p.1 pa p.2).map fun a => .inl ⟨0x13, ofVA a, 0⟩
    | .trap t => if pass && t.cause = 0x13 then none else some (.inl t)
    | .page va w => some (.inr (va, w))
/-- Some byte of a range lies in a poisoned line. -/
def State.rangePoison (s : State) (asid : Asid) (va : VA) (n : Nat) : Bool :=
  (pagesOf va n).any fun p => match s.walk asid p.1 with | some e => (s.poisonAt p.1 (e.pa p.1) p.2).isSome | none => false

/-! ### Records (R51–R54) -/

/-- The record's words, and a record from its words. -/
def Node.ofWords (w : Nat → W64) : Node :=
  let m := w 1
  let half := fun (k i : Nat) => ((w k).extractLsb' (32 * i) 32).toNat
  { parent := half 0 0, kids := half 0 1, rank := (m.extractLsb' 40 8).toNat, fmt := (m.extractLsb' 36 4).toNat,
    blog := (m.extractLsb' 32 4).toNat, ndim := (m.extractLsb' 26 2).toNat, enc := (m.extractLsb' 24 2).toNat,
    sealed := m.getLsbD 7, depth := (m.extractLsb' 4 3).toNat, state := (m.extractLsb' 0 2).toNat,
    dims := ⟨#[half 2 0, half 2 1, half 3 0, half 3 1], rfl⟩, dbase := (w 4).toNat, dsize := (w 5).toNat, count := half 6 0 }
def Node.word (n : Node) (k : Nat) : W64 :=
  BitVec.ofNat 64 (match k with
    | 0 => n.parent + n.kids * 2 ^ 32
    | 1 => n.rank * 2 ^ 40 + n.fmt * 2 ^ 36 + n.blog * 2 ^ 32 + n.ndim * 2 ^ 26 + n.enc * 2 ^ 24 +
        (if n.sealed then 128 else 0) + n.depth * 16 + n.state
    | 2 => n.dims.get 0 + n.dims.get 1 * 2 ^ 32
    | 3 => n.dims.get 2 + n.dims.get 3 * 2 ^ 32
    | 4 => n.dbase
    | 5 => n.dsize
    | 6 => n.count
    | _ => 0)
def Node.free : Node := Node.ofWords fun _ => 0
def Node.live (n : Node) : Bool := n.state == 1
def Node.retired (n : Node) : Bool := n.state == 2

/-- Where record `h` lies (R52). -/
def State.recVA (s : State) (asid : Asid) (h : Nat) : VA := s.pvBase asid + BitVec.ofNat 56 (64 * h)
def State.recPA (s : State) (asid : Asid) (h : Nat) : Option Nat := (s.walk asid (s.recVA asid h)).map fun e => e.pa (s.recVA asid h)
def State.node (s : State) (asid : Asid) (h : Nat) : Node :=
  match s.recPA asid h with | some pa => Node.ofWords fun k => s.phys64 (pa + 8 * k) | none => Node.free
/-- A lineage instruction changes a record; the dies may hold the old copy until it completes (R55, DESIGN CHOICE: log entry 84). -/
def State.setNode (s : State) (asid : Asid) (h : Nat) (n : Node) : State :=
  match s.recPA asid h with
  | some pa =>
    let old : OldRec := ⟨asid, h, s.node asid h, s.now + s.lat.lineage⟩
    (List.range 8).foldl (fun s k => s.setPhys (pa + 8 * k) 8 (n.word k).toNat)
      { s with provOld := s.provOld.filter (fun o => s.now < o.until') ++ [old] }
  | none => s
/-- A handle of R51. -/
def State.handleOk (s : State) (asid : Asid) (h : Nat) : Bool := 0 < h && h < 2 ^ 24 && h < s.nrec asid

/-! ### Shapes (R54, R56) -/

/-- The extents used. -/
def Node.extents (n : Node) : List Nat := (n.dims.toList).take (n.ndim + 1)
def Node.elems (n : Node) : Nat := n.extents.foldl (· * ·) 1
def Node.cols (n : Node) : Nat := n.extents.getLastD 1
def Node.rows (n : Node) : Nat := n.elems / n.cols
def Node.format (n : Node) : Fmt := (Fmt.ofCode (BitVec.ofNat 4 n.fmt)).getD .raw
/-- The runs of `d0` indices of dimension 0 (R54). -/
def Node.runs (n : Node) (d0 : Nat) : List Nat :=
  if n.ndim = 0 then [d0] else List.replicate (d0 * (n.elems / n.dims.get 0 / n.cols)) n.cols
/-- Bytes of a stored range of `d0` indices of dimension 0 (R54, R56). -/
def Node.rangeBytes (n : Node) (d0 : Nat) : Nat :=
  if n.blog = 0 then ceilDiv (d0 * (n.elems / n.dims.get 0) * n.format.bits) 8
  else ((n.runs d0).map fun r => ceilDiv r (2 ^ n.blog) * blockBytes n.format n.blog).foldl (· + ·) 0
/-- The least DSIZE (R56). -/
def Node.minSize (n : Node) : Nat :=
  match n.enc with
  | 0 => n.rangeBytes (n.dims.get 0)
  | 1 => 16 * ceilDiv (4 * n.count) 16 + 4 * n.count
  | 2 => n.rangeBytes n.count
  | _ => 16 * ceilDiv (2 * n.rows * n.rank) 16 + 2 * n.rank * n.cols
/-- A stored range decoded into blocks. -/
def runBlocks (f : Fmt) (blog : Nat) : List Nat → List Byte → List Blk
  | [], _ => []
  | r :: rs, bs => blocksIn f blog r bs ++ runBlocks f blog rs (bs.drop (ceilDiv r (2 ^ blog) * blockBytes f blog))
def Node.stored (n : Node) (d0 : Nat) (bs : List Byte) : List Blk :=
  if n.blog = 0 then blocksIn n.format 0 (d0 * (n.elems / n.dims.get 0)) bs else runBlocks n.format n.blog (n.runs d0) bs

/-! ### Chains and deltas (R56, R58, R63) -/

/-- The records from the root down to `h`, as `look` gives them. -/
def chainUp (look : Nat → Node) : Nat → Nat → List (Nat × Node) → List (Nat × Node)
  | 0, _, acc => acc
  | fuel + 1, h, acc =>
    let n := look h
    if n.parent = 0 then (h, n) :: acc else chainUp look fuel n.parent ((h, n) :: acc)
def State.chain (s : State) (asid : Asid) (h : Nat) : List (Nat × Node) := chainUp (s.node asid) 8 h []
/-- A record as a resolution of context `w` in this cycle meets it (R55, DESIGN CHOICE: log entry 84). -/
def State.seenNode (s : State) (w : Nat) (asid : Asid) (h : Nat) : Node :=
  match s.provOld.find? fun o => o.asid == asid && o.h == h && s.now < o.until' with
  | some o => if Config.oldRecord s.now w then o.node else s.node asid h
  | none => s.node asid h
/-- The snapshot of a resolution (R63). -/
def State.snapshot (s : State) (w : Nat) (asid : Asid) (h : Nat) : List (Nat × Node) := chainUp (s.seenNode w asid) 8 h []
def leafOf (c : List (Nat × Node)) : Node := match c.getLast? with | some e => e.2 | none => Node.free
/-- The first record on the way up from `h` whose page does not translate (R256). -/
def State.chainGap (s : State) (look : Nat → Node) (asid : Asid) : Nat → Nat → Option VA
  | 0, _ => none
  | fuel + 1, h =>
    if (s.recPA asid h).isNone then some (s.recVA asid h)
    else if (look h).parent = 0 then none else s.chainGap look asid fuel (look h).parent

/-- The chunk sum of R46 from an accumulator. -/
def chunked (acc : W32) : Nat → List FVal → W32
  | 0, _ => acc
  | fuel + 1, ps =>
    match ps with
    | [] => acc
    | _ => chunked (ne32 (addExact .rne (f32 acc) (f32 (ne32 (chunkSum (ps.take 16))))).1) fuel (ps.drop 16)
def chunkedSum (acc : W32) (ps : List FVal) : W32 := chunked acc ps.length ps

/-- A BF16 matrix of a byte list: element `i`. -/
def bf16At (bs : List Nat) (i : Nat) : FVal := bf16.dec (bs.getD i 0)
/-- U and V of a LOWRANK delta, as BF16 codes (R56). -/
def lowRankCodes (rows rank cols : Nat) (bs : List Byte) : List Nat × List Nat :=
  let u := 2 * rows * rank
  (groupsLE 2 (rows * rank) (bs.take u), groupsLE 2 (rank * cols) ((bs.drop (16 * ceilDiv u 16)).take (2 * rank * cols)))
/-- The deltas that are not ±0, by element number, ascending (R58). -/
def Node.deltas (n : Node) (bs : List Byte) : List (Nat × FVal) :=
  let nz := fun (x : FVal) => match x with | .zero _ => false | _ => true
  match n.enc with
  | 1 =>
    let idx := groupsLE 4 n.count (bs.take (4 * n.count))
    let vals := groupsLE 4 n.count (bs.drop (16 * ceilDiv (4 * n.count) 16))
    (List.zip idx vals).filterMap fun e =>
      let x := if n.format.isInt then FVal.ofInt (decInt 32 e.2) 0 else f32 (BitVec.ofNat 32 e.2)
      if nz x then some (e.1, x) else none
  | 3 =>
    let (u, v) := lowRankCodes n.rows n.rank n.cols bs
    (List.range n.elems).filterMap fun i =>
      let a := i / n.cols
      let b := i % n.cols
      let x := f32 (chunkedSum 0 ((List.range n.rank).map fun q =>
        (mulExact (bf16At u (a * n.rank + q)) (bf16At v (q * n.cols + b))).1))
      if nz x then some (i, x) else none
  | _ => []
/-- Deltas added to blocks, each block or element that holds one fitted again (R58). -/
def addDeltas (f : Fmt) (blog : Nat) : Nat → List Blk → List (Nat × FVal) → List Blk
  | _, [], _ => []
  | at', b :: bs, ds =>
    let stop := at' + b.codes.length
    let here := ds.takeWhile fun d => d.1 < stop
    let rest := ds.drop here.length
    let b' :=
      if here.isEmpty then b
      else fitBlock f blog ((List.zip (List.range b.codes.length) (b.vals f blog)).map fun e =>
        match here.find? fun d => d.1 == at' + e.1 with
        | some d => (addExact .rne e.2 d.2).1
        | none => e.2)
    b' :: addDeltas f blog stop bs rest
/-- The delta bytes of a record. -/
def State.delta (s : State) (asid : Asid) (n : Node) : List Byte := s.homeBytes asid n.dsize (BitVec.ofNat 56 n.dbase)
/-- One level of resolution (R58). -/
def Node.level (n : Node) (bs : List Byte) (v : List Blk) : List Blk :=
  if n.enc = 0 then n.stored (n.dims.get 0) bs
  else if n.enc = 2 then v ++ n.stored n.count bs
  else addDeltas n.format n.blog 0 v (n.deltas bs)
/-- Resolve of a chain (R58): rounding with nearest-even only, no flags (DESIGN CHOICE: log entry 16). -/
def State.resolve (s : State) (asid : Asid) (c : List (Nat × Node)) : List Blk :=
  c.foldl (fun v e => e.2.level (s.delta asid e.2) v) []
/-- The bytes of a delta that a resolution reads. -/
def Node.range (n : Node) : VA × Nat := (BitVec.ofNat 56 n.dbase, min n.dsize n.minSize)
/-- The first trap or page fault that reading the deltas of a chain meets (R57). -/
def State.chainStop (s : State) (pass : Bool) (asid : Asid) (c : List (Nat × Node)) : Option (Trap ⊕ (VA × Bool)) :=
  c.findSome? fun e => s.rangeStop pass .read asid e.2.range.1 e.2.range.2
/-- A delta of a chain lies in a poisoned line. -/
def State.chainPoison (s : State) (asid : Asid) (c : List (Nat × Node)) : Bool :=
  c.any fun e => s.rangePoison asid e.2.range.1 e.2.range.2
/-- The blocks of `n` elements from element `i` on, each block cut to them (R254). -/
def sliceBlks : Nat → Nat → List Blk → List Blk
  | _, _, [] => []
  | i, n, b :: bs =>
    let k := b.codes.length
    if n = 0 then []
    else if k ≤ i then sliceBlks (i - k) n bs
    else { b with codes := (b.codes.drop i).take n } :: sliceBlks 0 (n - (k - i)) bs

end Sys2Proof.Machine
end

