-- ==== Sys2Proof/Machine/Engine.lean ====
section
/-! DEFINITION. Engine commands: leases, operand descriptors and their checks, start, completion and the retry at the
cairn (spec/05 R103, R104; spec/08 R138–R141; spec/10 R181–R193). -/

namespace Sys2Proof.Machine

/-! ### Leases (R103, R189–R191) -/

/-- A context's request reaches the arbiter, in the next cycle (DEDUCED: log entry 80). -/
def State.askLease (s : State) (n k : Nat) : State :=
  let r := ropeOf n
  let me := 16 * n + k
  if (s.rope r).waiting.any fun w => w.1 == me then s
  else (s.onRope r fun x => { x with waiting := x.waiting ++ [(me, s.now + 1)] }).after 1 (.leaseGrant r)
/-- The requests of a core. -/
def Rope.asks (x : Rope) (n : Nat) : Bool := x.waiting.any fun w => w.1 / 16 == n
/-- A run ends (R103): the lease is free for a waiting core, else the holder begins a new run in the next cycle. -/
def State.endRun (s : State) (r : Nat) : State :=
  let x := s.rope r
  match x.lease with
  | none => s
  | some l =>
    if x.waiting.any fun w => w.1 / 16 != l.core && w.2 ≤ s.now then
      (s.onRope r fun x => { x with lease := none, last := l.core }).at' s.now (.leaseGrant r)
    else (s.onRope r fun x => { x with lease := some ⟨l.core, s.now + 1, 0, (l.at', l.cmds)⟩ }).at' (s.now + 1 + 8192)
      (.leaseRunEnd r (s.now + 1))
/-- The lease of a core that leaves it ends at once (R82, R106, R190). -/
def State.dropLease (s : State) (n : Nat) : State :=
  let r := ropeOf n
  if s.holdsLease n then (s.onRope r fun x => { x with lease := none, last := n }).at' s.now (.leaseGrant r) else s
/-- The first waiting core in round robin after the last holder, of the requests that have reached the arbiter. -/
def Rope.next (x : Rope) (now : Nat) : Option Nat :=
  ((List.range 8).map fun j => (x.last % 8 + 1 + j) % 8).findSome? fun i =>
    (x.waiting.find? fun w => w.1 / 16 % 8 == i && w.2 ≤ now).map (·.1 / 16)
/-- The core that is to have the lease: the one an arbitration chose, while it waits, else the next. -/
def Rope.winner (x : Rope) (now : Nat) : Option Nat :=
  match x.chosen with
  | some n => if x.asks n then some n else x.next now
  | none => x.next now
/-- A context resumes at its cairn (R139, R140). -/
def State.retryGo (s : State) (n k : Nat) : State :=
  s.onCtx n k fun c => { c with park := .no, readyAt := s.now, anchor := true, dly := false }
/-- Contexts of a core that wait for the lease at a retry. -/
def Core.retryAsks (c : Core) : List Nat :=
  (c.ctxs.filter fun e => match e.2.park with | .retry _ l => l | _ => false).map (·.1)
/-- A grant (R103, R190): the arbitration chooses in the cycle in which the lease is free or a run ends; the lease is held once array
and ladder are free. -/
def execLeaseGrant (rope : Nat) (s : State) : Out :=
  .next (
    let x := s.rope rope
    match x.lease, x.winner s.now with
    | none, some n =>
      if s.now < max x.arrayBusy x.ladderBusy then
        (s.onRope rope fun x => { x with chosen := some n }).at' (max x.arrayBusy x.ladderBusy) (.leaseGrant rope)
      else
        let s1 := s.onRope rope fun x =>
          { x with lease := some ⟨n, s.now, 0, (s.now, 0)⟩, last := n, chosen := none,
                   waiting := x.waiting.filter fun w => w.1 / 16 != n }
        ((s1.core n).retryAsks.foldl (fun s k => s.retryGo n k) s1).at' (s.now + 8192) (.leaseRunEnd rope s.now)
    | _, _ => s)
/-- The 8,192 cycles of a run are over; `granted` names the run. -/
def execLeaseRunEnd (rope granted : Nat) (s : State) : Out :=
  .next (match (s.rope rope).lease with
    | some l => if l.at' = granted then s.endRun rope else s
    | none => s)
def execLease (st : Stall) (s : State) : Out :=
  .next (s.issue (.lease st) fun s =>
    let holds := s.holdsLease s.act.1
    (if holds then s else s.askLease s.act.1 s.act.2).wait (.lease st) holds fun s => s.done st)
def execLeaseb (st : Stall) (a : Reg) (s : State) : Out :=
  .next (s.issue (.leaseb st a) fun s =>
    let holds := s.holdsLease s.act.1
    let bound := ((s.g a).extractLsb' 0 32).toNat
    let expired := !holds && s.boundLeft bound = 0
    let s1 := if holds then s else if expired then s.unaskLease s.act.1 s.act.2 else s.askLease s.act.1 s.act.2
    s1.boundedWait (.leaseb st a) holds bound fun s => s.done st)
/-- (DEDUCED: log entry 41) -/
def execLeasend (st : Stall) (s : State) : Out :=
  .next (s.issue (.leasend st) fun s =>
    if !s.holdsLease s.act.1 then s.done st
    else if s.blocked s.act.1 s.act.2 (.leasend st) then s.parkDrain
    else (s.endRun (ropeOf s.act.1)).done st)
/-- The status word of R191. -/
def State.leaseStatus (s : State) (n : Nat) : W64 :=
  let x := s.rope (ropeOf n)
  let cores := (List.range 8).filter fun i => x.waiting.any fun w => w.1 / 16 % 8 == i && w.2 ≤ s.now
  let wait := (cores.filter fun i => i != n % 8).length
  match x.lease with
  | none => BitVec.ofNat 64 (2 ^ 27 + wait * 2 ^ 16)
  | some l =>
    let (from', cmds) := if s.now < l.at' then l.before else (l.at', l.cmds)
    let mine := if l.core = n then 2 ^ 63 + min 64 cmds * 2 ^ 56 + (from' + 8192 - s.now) % 16384 else 0
    BitVec.ofNat 64 (mine + l.core % 8 * 2 ^ 24 + wait * 2 ^ 16)
def execLeaseq (st : Stall) (d : Reg) (s : State) : Out :=
  .next (s.issue (.leaseq st d) fun s => (s.gset d (s.leaseStatus s.act.1)).done st)

/-! ### The matrix shape and the rings (R186, R192, R193) -/

def execMdim (st : Stall) (a : Reg) (s : State) : Out :=
  .next (s.issue (.mdim st a) fun s =>
    let x := s.g a
    if x &&& 0xFFFFFFFFE0008080 ≠ 0 then s.illegal (wordOf (.mdim st a))
    else (s.onMe fun c => { c with mshape := x }).done st)
def execMseq (st : Stall) (a : Reg) (s : State) : Out :=
  .next (s.issue (.mseq st a) fun s =>
    let x := s.g a
    let r : RingReg := ⟨(x.extractLsb' 0 8).toNat, (x.extractLsb' 8 8).toNat, (x.extractLsb' 16 8).toNat⟩
    if x.extractLsb' 24 40 ≠ 0 || (r.len != 0 && r.step = 0) || 144 < r.base + r.step * r.len then
      s.illegal (wordOf (.mseq st a))
    else
      (s.onMyCore fun c => { c with active := { c.active with ringNext := c.active.ringNext ++ [(s.now + 4, r)] } }).done st)
/-- The ring registers that a command starting now uses. -/
def Pair.ringAt (p : Pair) (now : Nat) : RingReg :=
  p.ringNext.foldl (fun r e => if e.1 < now then e.2 else r) p.ring
def Cmd.M (c : Cmd) : Nat := (c.mshape.extractLsb' 0 7).toNat + 1
def Cmd.N (c : Cmd) : Nat := (c.mshape.extractLsb' 8 7).toNat + 1
def Cmd.K (c : Cmd) : Nat := (c.mshape.extractLsb' 16 13).toNat + 1

/-! ### Descriptors (R184–R187) -/

def descFmt (d : W64) : Option Fmt := Fmt.ofCode (d.extractLsb' 60 4)
def descBlog (d : W64) : Nat := (d.extractLsb' 56 4).toNat
def descTag (d : W64) : BitVec 16 := d.extractLsb' 40 16
def descRing (d : W64) : Bool := d.getLsbD 39
def descCore (d : W64) : Nat := (d.extractLsb' 36 3).toNat
def descOff (d : W64) : Nat := (d.extractLsb' 0 19).toNat
/-- A descriptor with its length in bytes, whether it is read, and whether the command accepts its format. -/
structure Opnd where
  d    : W64
  len  : Nat
  read : Bool
  ok   : Bool
  deriving DecidableEq, Repr
/-- The core a descriptor names. -/
def descOwner (n : Nat) (d : W64) : Nat := n / 8 * 8 + descCore d
/-- The scratch offset of an operand (R184, R186): none for a ring operand of a core whose RLEN is 0. -/
def State.descAt (s : State) (n : Nat) (d : W64) : Option Nat :=
  if descRing d then
    let r := (s.core (descOwner n d)).active.ringAt s.now
    if r.len = 0 then none else some (2048 * (r.base + (descTag d).toNat % r.len * r.step) + descOff d)
  else some (descOff d)
/-- A core holds a task of the command's address space (R185). -/
def State.sameSpace (s : State) (owner : Nat) (asid : Asid) : Bool := (s.core owner).on.isSome && (s.core owner).asid == asid
/-- A range lies in the scratch of a core. -/
def State.inScratch (s : State) (owner off len : Nat) : Bool := off + len ≤ (s.core owner).banks.slen
/-- Order 5 of R185. -/
def State.descIn (s : State) (n : Nat) (asid : Asid) (o : Opnd) : Bool :=
  let k := descOwner n o.d
  s.sameSpace k asid && (match s.descAt n o.d with
    | none => true
    | some off => s.inScratch k off o.len &&
        (!descRing o.d || descOff o.d + o.len ≤ 2048 * ((s.core k).active.ringAt s.now).step))
/-- Order 3: a tag that R31 rejects. -/
def tagBad (d : W64) : Bool := (tagged d).isNone
/-- Order 6: what a descriptor itself can break. -/
def State.descBad (s : State) (n : Nat) (o : Opnd) : Bool :=
  o.d.extractLsb' 19 17 ≠ 0 || !o.ok || (s.descAt n o.d).isNone
/-- The first granule of a scratch range with a defect, as the address of a trap. -/
def State.granStop (s : State) (cause : Nat) (bad : Gran → Bool) (r : Nat × Nat × Nat × BitVec 16) : Option Trap :=
  (unitsOf 512 r.2.1 r.2.2.1).findSome? fun g =>
    if bad ((s.core r.1).banks.granAt g) then some ⟨cause, BitVec.ofNat 64 (scrBase + max r.2.1 (512 * g)), 0⟩ else none
/-- Orders 8 to 10 of R185 over scratch ranges: core, offset, length, the tag named; `pass`: poison does not stop the command (R251). -/
def State.rangeStops (s : State) (pass : Bool) (rs : List (Nat × Nat × Nat × BitVec 16)) : Option Trap :=
  if rs.any fun r => (unitsOf 2048 r.2.1 r.2.2.1).any fun j => (s.core r.1).banks.tagAt j != r.2.2.2 then some ⟨0x0C, 0, 0⟩
  else (if pass then none else rs.findSome? (s.granStop 0x13 Gran.poison)).orElse fun _ =>
    rs.findSome? (s.granStop 0x08 fun g => g.stale s.tick)
def State.readStops (s : State) (rs : List (Nat × Nat × Nat × BitVec 16)) : Option Trap := s.rangeStops false rs
/-- The scratch range of an operand. -/
def State.opndRange (s : State) (n : Nat) (o : Opnd) : Nat × Nat × Nat × BitVec 16 :=
  (descOwner n o.d, (s.descAt n o.d).getD 0, o.len, descTag o.d)
/-- Orders 3 to 10 of R185 over a command's descriptors; `bad6` is what else the command states at order 6. -/
def State.opndStops (s : State) (n : Nat) (asid : Asid) (os : List Opnd) (bad6 : Bool) : Option Trap :=
  if os.any fun o => tagBad o.d then some ⟨0x07, 0, 0⟩
  else if os.any fun o => descOff o.d % 16 != 0 then some ⟨0x03, 0, 0⟩
  else if os.any fun o => !s.descIn n asid o then some ⟨0x06, 0, 0⟩
  else if bad6 || os.any fun o => s.descBad n o then some ⟨0x0D, 0, 0⟩
  else s.readStops ((os.filter fun o => o.read).map (s.opndRange n))
/-- The bytes of a read operand. -/
def State.opndBytes (s : State) (n : Nat) (o : Opnd) : List Byte :=
  (s.banksAhead n (descOwner n o.d)).readBytes ((s.descAt n o.d).getD 0) o.len
/-- The same of a copy: a poisoned granule reads zero and is noted (R251, DEDUCED: log entry 87). -/
def State.copyBytes (s : State) (n : Nat) (o : Opnd) : List Byte × Bool :=
  let off := (s.descAt n o.d).getD 0
  let b := s.banksAhead n (descOwner n o.d)
  (b.cleanBytes off o.len, (unitsOf 512 off o.len).any fun g => (b.granAt g).poison)
/-- A write of a command to a scratch operand: tag and stamps (R99, R187). -/
def State.opndWrite (s : State) (n : Nat) (d : W64) (data : List Byte) : CmdWrite :=
  .scratch (descOwner n d) ((s.descAt n d).getD 0) data (some (descTag d)) true
/-- Rows of bytes of an operand, each decoded. -/
def rowsIn (f : Fmt) (blog n : Nat) : Nat → List Byte → List (List FVal)
  | 0, _ => []
  | k + 1, bs => decodeRow f blog n bs :: rowsIn f blog n k (bs.drop (rowBytes f blog n))

/-! ### Issue (R138, R139, R181–R183, R271) -/

/-- An engine command issues: counted in its region; suppressed by position in a rerun (R139); the 64th of a region
traps (R138); the seventeenth unstarted of the core waits (R182). Its thread's floors are the issuer's (R271).
The start cycle is TBASE plus the offset modulo 2^64 (DESIGN CHOICE: log entry 113). -/
def State.command (s : State) (i : Instr) (st : Stall) (a b : W64) (off : W64) : State :=
  let c := s.me
  if c.cairnV && 63 ≤ c.issued then s.trap ⟨0x1A, 0, 0x8000000000000000⟩
  else
    let count := fun (s : State) => s.onMe fun c => if c.cairnV then { c with issued := c.issued + 1 } else c
    if 0 < c.suppress then ((count s).onMe fun c => { c with suppress := c.suppress - 1 }).done st
    else if s.blocked s.act.1 s.act.2 i then s.parkDrain
    else
      let s1 := s.settle s.act.1 s.act.2
      if s1.held s.act.1 s.act.2 then s1.parkDrain
      else
        let (seq, s2) := s1.takeRing (wordOf i) false false
        let (id, s3) := s2.newId
        let start := (c.tbase + off).toNat
        let cmd : Cmd :=
          { id := id, core := s.act.1, ctx := s.act.2, bind := s.myCore.task.bind, instr := i, a := a, b := b, start := start,
            issued := s.now, asid := s.asid, mshape := c.mshape, seq := seq, word := wordOf i, phase := .waiting,
            floors := s3.me.floors, writes := [], comp := none, claim := none, poison := false, recWords := [], src := [], chain := [], fedBy := 0 }
        ((count { s3 with cmds := s3.cmds ++ [cmd] }).at' (max start (s.now + 8)) (.engineCommandStart s.act.1 id)).done st

/-! ### Timing and schedule faults: the retry (R139–R141) -/

/-- Started commands of a context that have not completed. -/
def State.running (s : State) (n k : Nat) : List Cmd := s.cmds.filter fun c => c.core == n && c.ctx == k && c.phase != .waiting
/-- The retry's resume is 16 cycles after the later of the fault and the completion of started commands (R139). -/
def State.retrySoon (s : State) (n k : Nat) : State :=
  match (s.ctx n k).park with
  | .retry 0 _ =>
    if (s.running n k).isEmpty then
      (s.onCtx n k fun c => { c with park := .retry (s.now + 16) false }).after 16 (.retryResume n k)
    else s
  | _ => s
/-- Pending loads and the results of atomics are discarded; stores stay (R139). -/
def dropLoads (n k : Nat) (fs : List Flight) : List Flight :=
  fs.filterMap fun f =>
    if f.core == n && f.ctx == k then
      match f.kind with
      | .load _ _ => none
      | .vload _ _ _ _ _ => none
      | .atomic op ty cmp (some _) => some { f with kind := .atomic op ty cmp (some 0) }
      | _ => some f
    else some f
/-- The registers of a CairnImage. -/
def Ctx.fromImage (c : Ctx) (i : CairnImage) : Ctx := { c with g := i.g, v := i.v, p := i.p, mshape := i.mshape }
/-- The context at its cairn, before the rerun (R139). -/
def Ctx.atCairn (c : Ctx) (rcnt : Nat) : Ctx :=
  let c1 := match c.image with | some i => c.fromImage i | none => c
  { c1 with pend := [], cairnpc := cairnWord true (c.cairnpc.getLsbD 62) c.nfx (addr c.cairnpc) rcnt,
            pc := addr c.cairnpc &&& 0xFFFFFFFFFFFFFC, suppress := c.nfx, issued := 0, answer := none, left := none,
            fbuf := [], dly := false }
/-- CAIRN_RETRY (R139). -/
def State.retry (s : State) (n k : Nat) : State :=
  let s1 : State := { s with
    cmds := s.cmds.filter fun c => !(c.core == n && c.ctx == k && c.phase == .waiting),
    flights := dropLoads n k s.flights }
  let s2 := (s1.unaskLease n k).onCtx n k fun c =>
    { c.atCairn (c.rcnt + 1) with park := .retry 0 false, xstat := c.xstat &&& 0x7FFFFFFFFFFFFFFF }
  s2.retrySoon n k
/-- A timing or schedule fault of a context (R139, R141). -/
def State.timingFault (s : State) (n k cause : Nat) : State :=
  let c := s.ctx n k
  if (s.core n).failing.isSome then s
  else if c.cairnV && c.rcnt < ((s.core n).check.extractLsb' 4 2).toNat then s.retry n k
  else
    let t : Trap := if c.cairnV then ⟨0x1A, 0, BitVec.ofNat 64 cause⟩ else ⟨cause, 0, 0⟩
    if c.hm then s.haltFault n t.cause else s.takeTrap n k t c.pc false false (!c.cairnV)
def execRetryResume (core ctx : Nat) (s : State) : Out :=
  .next (match (s.ctx core ctx).park with
    | .retry t false =>
      if t = 0 || s.now < t then s
      else if (s.ctx core ctx).cairnpc.getLsbD 62 && !s.holdsLease core then
        (s.askLease core ctx).onCtx core ctx fun c => { c with park := .retry t true }
      else s.retryGo core ctx
    | _ => s)

/-! ### Start and completion (R104, R138, R183, R185, R187, R188) -/

/-- What passing the checks leads to: how long the engine is busy, when the command completes, and its later writes. -/
structure Begun where
  s      : State
  busy   : Nat
  stop   : Nat
  writes : List CmdWrite
  deriving DecidableEq, Repr
/-- A command at its start cycle: a fault, a page fault that holds it, or under way. -/
inductive Start
  | trap (t : Trap)
  | hold (va : VA) (write : Bool)
  | go (b : Begun)
  deriving DecidableEq, Repr

def State.onCmd (s : State) (id : Nat) (f : Cmd → Cmd) : State := { s with cmds := s.cmds.map fun c => if c.id = id then f c else c }
def State.dropCmd (s : State) (id : Nat) : State := { s with cmds := s.cmds.filter fun c => c.id != id }
/-- The conditions of R181 that every engine shares. -/
def State.late (s : State) (c : Cmd) : Bool :=
  c.start < c.issued + 8 || s.cmds.any fun d => d.core == c.core && d.ctx == c.ctx && d.phase == .waiting && d.id < c.id
/-- Orders 1 and 2 of R185 for the array and the ladder, then the rest. -/
def State.leased (s : State) (c : Cmd) (busy unsettled : Bool) (go : Start) : Start :=
  if !s.holdsLease c.core then .trap ⟨0x19, 0, 0⟩
  else if s.late c || busy || unsettled then .trap ⟨0x0B, 0, 0⟩
  else go
/-- The command has started: its ring entry, NFX (R138), its phase. -/
def State.started (s : State) (c : Cmd) (f : Cmd → Cmd) : State :=
  let s1 := (s.ringMark c.core c.seq fun e => { e with st := true }).onCtx c.core c.ctx fun x =>
    if x.cairnV && x.nfx < 63 then { x with cairnpc := x.cairnpc + 0x0100000000000000 } else x
  s1.onCmd c.id fun d => f { d with phase := .running }
/-- An array or ladder command counts toward the run's 64 (R103); in the cycle in which a run has ended, toward that run (R191). -/
def State.countRun (s : State) (r : Nat) : State :=
  let s1 := s.onRope r fun x => { x with lease := x.lease.map fun l =>
    if s.now < l.at' then { l with before := (l.before.1, l.before.2 + 1) } else { l with cmds := l.cmds + 1 } }
  match (s1.rope r).lease with
  | some l => if 64 ≤ l.cmds then s1.endRun r else s1
  | none => s1
/-- The command's ring entry completes and the command is gone (DESIGN CHOICE: log entry 71). -/
def State.finished (s : State) (c : Cmd) : State :=
  (((s.ringMark c.core c.seq fun e => { e with cp := true }).dropCmd c.id).retrySoon c.core c.ctx)
/-- A fault of a command (R183, R139): nothing is written; a task saved in an image is told there (R251, R367). -/
def State.cmdFault (s : State) (c : Cmd) (t : Trap) : State :=
  let s1 := (s.ringMark c.core c.seq fun e => { e with fl := true }).finished c
  let m : Met := ⟨t.cause, t.faddr, c.word.zeroExtend 64, c.seq⟩
  if (s.core c.core).runs c.bind && (c.ctx != 0 || (s.core c.core).stopped.isNone) then
    if t.cause = 0x0B || t.cause = 0x0C then s1.timingFault c.core c.ctx t.cause else s1.reportImprecise c.core c.ctx m
  else s1.onCore c.core fun x => x.tell c.bind c.ctx fun y => y.reported s.now (x.impFault m)

/-- Bytes of one page stored under one translation; those of poisoned lines are not written (R249, R251). -/
def State.blockStore (s : State) (asid : Asid) (f : Table Nat) (e : Pte) (va : VA) : List Byte → Table Nat × State
  | [] => (f, s)
  | b :: bs =>
    let pa := e.pa va
    let (f1, s1) := if s.poisoned pa then (f, s) else s.storeAt f asid va 1 (b.zeroExtend 64) 0xFF e pa
    s1.blockStore asid f1 e (va + 1) bs
/-- Blocks stored, each translated once (R249). -/
def State.blocksStore (s : State) (n : Nat) (asid : Asid) (f : Table Nat) : List (VA × Nat) → List Byte → Table Nat × State
  | [], _ => (f, s)
  | (va, k) :: ps, bs =>
    let (f1, s1) := match s.entry asid va with
      | none => (f, s)
      | some e =>
        let s0 := (s.keepXlat asid va e).classify n false asid va e (e.pa va)
        s0.blockStore asid f (s0.classed e) va (bs.take k)
    s1.blocksStore n asid f1 ps (bs.drop k)
/-- Stores of the engine thread to memory (R271). -/
def State.threadStore (s : State) (n : Nat) (asid : Asid) (f : Table Nat) (va : VA) (bs : List Byte) : Table Nat × State :=
  s.blocksStore n asid f (pagesOf va bs.length) bs
/-- A scratch write of a command: dropped where the core's task is not of the command's space any more (R367). -/
def State.scratchWrite (s : State) (asid : Asid) (k off : Nat) (data : List Byte) (tag : Option (BitVec 16)) (stamp : Bool) : State :=
  if s.sameSpace k asid && s.inScratch k off data.length then
    s.onCore k fun c => { c with banks := c.banks.write off data tag (if stamp then some s.tick else none) }
  else s
/-- A command's writes are performed. -/
def State.landWrites (s : State) (c : Cmd) (f : Table Nat) : List CmdWrite → Table Nat × State
  | [] => (f, s)
  | .scratch k off data tag stamp :: ws => (s.scratchWrite c.asid k off data tag stamp).watched.landWrites c f ws
  | .mem va data :: ws =>
    let (f1, s1) := s.threadStore c.core c.asid f va data
    s1.watched.landWrites c f1 ws
/-- A completed thread is kept for a join by its context, whose task may be in the bivouac store (R271, R325). -/
def State.keepThread (s : State) (c : Cmd) (f : Table Nat) : State := s.publish (engineAgent c.bind c.ctx) .core f
/-- The command completes: writes, and its thread is kept for a join. -/
def State.complete (s : State) (c : Cmd) : State :=
  let (f, s1) := s.landWrites c c.floors c.writes
  (s1.keepThread c f).finished c
def execEngineCommandComplete (core id : Nat) (s : State) : Out :=
  .next (match s.cmds.find? fun c => c.id == id && c.core == core && c.phase == .running with
    | some c => s.complete c
    | none => s)

end Sys2Proof.Machine
end

