-- ==== Sys2Proof/Machine/Array.lean ====
section
/-! DEFINITION. The matrix array (spec/10 R194–R204): what each command of major 0x38 checks and does at its start. -/

namespace Sys2Proof.Machine

/-! ### Tiles (R105, R194, R198) -/

def TileSt.at' (t : TileSt) (i j : Nat) : W32 := (Table.find? (128 * i + j) t.e).getD 0
def TileSt.mxAt (t : TileSt) (i : Nat) : W32 := (Table.find? i t.mx).getD negInf32
def TileSt.smAt (t : TileSt) (i : Nat) : W32 := (Table.find? i t.sm).getD 0
def TileSt.put (t : TileSt) (i j : Nat) (x : W32) : TileSt :=
  { t with e := if x = 0 then Table.del (128 * i + j) t.e else Table.put (128 * i + j) x t.e }
def TileSt.putSide (t : TileSt) (i : Nat) (m s : W32) : TileSt :=
  { t with mx := if m = negInf32 then Table.del i t.mx else Table.put i m t.mx,
           sm := if s = 0 then Table.del i t.sm else Table.put i s t.sm }
/-- Elements of rows below M and columns below N replaced. -/
def TileSt.fill (t : TileSt) (M N : Nat) (f : Nat → Nat → W32) : TileSt :=
  (List.range M).foldl (fun u i => (List.range N).foldl (fun u j => u.put i j (f i j)) u) t
/-- Elements and side vectors of a shape at their start values (R198). -/
def TileSt.zeroed (t : TileSt) (M N : Nat) : TileSt :=
  (List.range M).foldl (fun u i => u.putSide i negInf32 0) (t.fill M N fun _ _ => 0)
def Pair.tile (p : Pair) (t : Tile) : TileSt := match t with | .t0 => p.t0 | .t1 => p.t1
def Pair.setTile (p : Pair) (t : Tile) (x : TileSt) : Pair := match t with | .t0 => { p with t0 := x } | .t1 => { p with t1 := x }
def State.tile (s : State) (n : Nat) (t : Tile) : TileSt := (s.core n).active.tile t
def State.setTile (s : State) (n : Nat) (t : Tile) (x : TileSt) : State :=
  s.onCore n fun c => { c with active := c.active.setTile t x }
/-- A tile that a command reads or overwrites is not settled (R181, R195). -/
def State.unsettled (s : State) (n : Nat) (t : Tile) : Bool := s.now < (s.tile n t).settled

/-! ### What the commands share -/

/-- Formats of the array (R196). -/
def arrayFmt (f : Option Fmt) : Bool :=
  match f with
  | some .bf16 | some .fp16 | some .e4m3 | some .e5m2 | some .e2m1 | some .dp8 | some .int8 | some .int4 => true
  | some .raw | some .fp32 | some .int32 | none => false
/-- FP32 with no scale. -/
def plainF32 (d : W64) : Bool := descFmt d = some .fp32 && descBlog d = 0
def State.arrayBusy (s : State) (n : Nat) : Bool := s.now < (s.rope (ropeOf n)).arrayBusy
/-- A command into a tile begins: the tile's new contents, settled `settle` cycles from now. -/
def State.tileGo (s : State) (c : Cmd) (t : Tile) (F settle : Nat) (f : TileSt → TileSt) (ws : List CmdWrite) : Start :=
  let x := f (s.tile c.core t)
  .go ⟨s.setTile c.core t { x with settled := max x.settled (s.now + settle) }, F, max F settle, ws⟩
/-- Orders 3 to 10, then the command's own part. -/
def State.checked (s : State) (c : Cmd) (os : List Opnd) (bad6 : Bool) (go : Start) : Start :=
  match s.opndStops c.core c.asid os bad6 with | some t => .trap t | none => go
/-- An operand of rows along K. -/
def Cmd.operand (_c : Cmd) (d : W64) (rows k : Nat) (read ok : Bool) : Opnd := ⟨d, rows * rowBytesOf (descFmt d) (descBlog d) k, read, ok⟩
def State.rowsOf (s : State) (n : Nat) (o : Opnd) (rows k : Nat) : List (List FVal) :=
  rowsIn ((descFmt o.d).getD .raw) (descBlog o.d) k rows (s.opndBytes n o)
/-- The products of one element (R46). -/
def products (xs ys : List FVal) : List FVal := List.zipWith (fun x y => (mulExact x y).1) xs ys

/-! ### Products (R195, R196, R199) -/

/-- Feed cycles of `MMUL`. -/
def feedOf (K : Nat) (a b : Option Fmt) : Nat :=
  let wide := fun (f : Option Fmt) => f = some .bf16 || f = some .fp16
  if a = some .e2m1 && b = some .e2m1 then ceilDiv K 2 else if wide a || wide b then 4 * K else K
def State.startMmul (s : State) (c : Cmd) (t : Tile) : Start :=
  let oa := c.operand c.a c.M c.K true (arrayFmt (descFmt c.a))
  let ob := c.operand c.b c.N c.K true (arrayFmt (descFmt c.b))
  let F := feedOf c.K (descFmt c.a) (descFmt c.b)
  s.leased c (s.arrayBusy c.core) false
    (s.checked c [oa, ob] (8192 < F)
      (let A := s.rowsOf c.core oa c.M c.K
       let B := s.rowsOf c.core ob c.N c.K
       s.tileGo c t F (F + 160) (fun x => x.fill c.M c.N fun i j =>
         chunkedSum (x.at' i j) (products (A.getD i []) (B.getD j []))) []))

/-- The correction descriptor of R199. -/
def corrTag (b : W64) : BitVec 16 := b.extractLsb' 48 16
def corrOwner (n : Nat) (b : W64) : Nat := n / 8 * 8 + (b.extractLsb' 45 3).toNat
def corrOff (b : W64) : Nat := (b.extractLsb' 24 19).toNat
def corrNode (b : W64) : Nat := (b.extractLsb' 0 24).toNat
def firstTrap : List (Bool × Nat) → Option Trap
  | [] => none
  | (b, c) :: t => if b then some ⟨c, 0, 0⟩ else firstTrap t
def State.startMmac (s : State) (c : Cmd) (t : Tile) : Start :=
  let ox := c.operand c.a c.M c.K true (arrayFmt (descFmt c.a))
  let k := corrOwner c.core c.b
  let nd := s.seenNode (16 * c.core + c.ctx) c.asid (corrNode c.b)
  let u := 2 * c.K * nd.rank
  let len := 16 * ceilDiv u 16 + 2 * nd.rank * c.N
  let F := 4 * c.K * ceilDiv nd.rank 16
  s.leased c (s.arrayBusy c.core) false
    (match firstTrap [
        (tagBad c.a, 0x07), (descOff c.a % 16 != 0 || corrOff c.b % 16 != 0, 0x03),
        (!s.descIn c.core c.asid ox || !s.sameSpace k c.asid, 0x06),
        (!s.handleOk c.asid (corrNode c.b) || !nd.live || nd.enc != 3, 0x0F),
        (s.descBad c.core ox || c.b.extractLsb' 43 2 ≠ 0 || nd.rows != c.K || nd.cols != c.N || 8192 < F, 0x0D),
        (!s.inScratch k (corrOff c.b) len, 0x06)] with
     | some t => .trap t
     | none =>
       match s.readStops [s.opndRange c.core ox, (k, corrOff c.b, len, corrTag c.b)] with
       | some t => .trap t
       | none =>
         let X := s.rowsOf c.core ox c.M c.K
         let (U, V) := lowRankCodes c.K nd.rank c.N ((s.banksAhead c.core k).readBytes (corrOff c.b) len)
         let D := (List.range c.N).map fun j => (List.range c.K).map fun a =>
           chunkSum ((List.range nd.rank).map fun q => (mulExact (bf16At U (a * nd.rank + q)) (bf16At V (q * c.N + j))).1)
         s.tileGo c t F (F + 160) (fun x => x.fill c.M c.N fun i j =>
           chunkedSum (x.at' i j) (products (X.getD i []) (D.getD j []))) [])

/-! ### Microprograms (R200, R201) -/

def microOp (m : BitVec 16) : Nat := (m.extractLsb' 12 4).toNat
/-- The four micro-operations of a program word, and whether R200 rejects it. -/
def microOps (w : W64) : List (BitVec 16) := [w.extractLsb' 0 16, w.extractLsb' 16 16, w.extractLsb' 32 16, w.extractLsb' 48 16]
def microBad : List (BitVec 16) → Bool
  | [] => false
  | m :: ms =>
    6 < microOp m || 2 ≤ (m.extractLsb' 10 2).toNat || m.extractLsb' 0 6 ≠ 0 ||
      (if microOp m = 0 then ms.any fun x => x != 0 else microBad ms)
def State.startMprog (s : State) (c : Cmd) : Start :=
  s.leased c (s.arrayBusy c.core) false
    (if microBad (microOps c.a) then .trap ⟨0x0D, 0, 0⟩
     else .go ⟨s.onCore c.core fun x => { x with active := { x.active with prog := (microOps c.a).takeWhile fun m => microOp m != 0 } },
       4, 4, []⟩)
/-- One micro-operation on (s, a, b, u). -/
def microStep (r : W32 × W32 × W32 × W32) (m : BitVec 16) : W32 × W32 × W32 × W32 :=
  let (s, a, b, u) := r
  let pick := fun (k : Nat) => if k = 0 then s else if k = 1 then a else if k = 2 then b else u
  let x := pick (m.extractLsb' 8 2).toNat
  let y := pick (m.extractLsb' 6 2).toNat
  let z := match microOp m with
    | 1 => (f32Add .rne x y).1
    | 2 => (f32Sub .rne x y).1
    | 3 => (f32Mul .rne x y).1
    | 4 => (f32Max x y).1
    | 5 => (f32Min x y).1
    | _ => f32Lse2 x y
  if m.extractLsb' 10 2 = 0 then (s, a, b, z) else (z, a, b, u)
/-- A cell's program over K (R201). -/
def runCell (prog : List (BitVec 16)) (s : W32) (as bs : List FVal) : W32 :=
  (List.zip as bs).foldl (fun s e => (prog.foldl microStep (s, ne32 e.1, ne32 e.2, 0)).1) s
def State.startMrun (s : State) (c : Cmd) (t : Tile) : Start :=
  let oa := c.operand c.a c.M c.K true (arrayFmt (descFmt c.a))
  let ob := c.operand c.b c.N c.K true (arrayFmt (descFmt c.b))
  let F := 4 * c.K
  let prog := (s.core c.core).active.prog
  s.leased c (s.arrayBusy c.core) false
    (s.checked c [oa, ob] (8192 < F || prog.isEmpty)
      (let A := s.rowsOf c.core oa c.M c.K
       let B := s.rowsOf c.core ob c.N c.K
       s.tileGo c t F (F + 160) (fun x => x.fill c.M c.N fun i j => runCell prog (x.at' i j) (A.getD i []) (B.getD j [])) []))

/-! ### Reading, loading, combining, zeroing (R198, R202–R204) -/

/-- Columns of a row with its side values (R202). -/
def widthOf (N : Nat) (triple : Bool) : Nat := if triple then N + 2 else N
def TileSt.row (t : TileSt) (i N : Nat) (triple : Bool) : List W32 :=
  (if triple then [t.mxAt i, t.smAt i] else []) ++ (List.range N).map (t.at' i)
def State.startMread (s : State) (c : Cmd) (t : Tile) : Start :=
  let clr := c.b.getLsbD 0
  let triple := c.b.getLsbD 1
  let W := widthOf c.N triple
  let o := c.operand c.a c.M W false (match descFmt c.a with | some .raw => false | _ => true)
  let F := 32 + ceilDiv (c.M * W) 128
  let x := s.tile c.core t
  s.leased c (s.arrayBusy c.core) (s.unsettled c.core t)
    (s.checked c [o] (c.b.extractLsb' 2 62 ≠ 0 || (triple && !plainF32 c.a))
      (let data := (List.range c.M).flatMap fun i =>
         encodeRow ((descFmt c.a).getD .raw) (descBlog c.a) ((x.row i c.N triple).map f32)
       let w := [s.opndWrite c.core c.a data]
       if clr then s.tileGo c t F F (fun y => y.zeroed c.M c.N) w else .go ⟨s, F, F, w⟩))
/-- A row of FP32 values into a tile. -/
def TileSt.loadRow (t : TileSt) (i N : Nat) (triple : Bool) (xs : List W32) : TileSt :=
  let v := if triple then xs.drop 2 else xs
  let t1 := (List.range N).foldl (fun u j => u.put i j (v.getD j 0)) t
  if triple then t1.putSide i (xs.getD 0 0) (xs.getD 1 0) else t1
/-- `MLOAD` (R203): an element is converted as R41 decodes it, so the NaN of an unscaled FP32 element becomes the canonical one, where
`LDX` and `VLDX` leave its bits (R33) (DESIGN CHOICE: log entry 92). -/
def State.startMload (s : State) (c : Cmd) (t : Tile) : Start :=
  let triple := c.b.getLsbD 1
  let W := widthOf c.N triple
  let o := c.operand c.a c.M W true (match descFmt c.a with | some .raw => false | _ => true)
  let F := 32 + ceilDiv (c.M * W) 128
  s.leased c (s.arrayBusy c.core) (s.unsettled c.core t)
    (s.checked c [o] (c.b.extractLsb' 2 62 ≠ 0 || c.b.getLsbD 0 || (triple && !plainF32 c.a))
      (let R := s.rowsOf c.core o c.M W
       s.tileGo c t F F (fun x => (List.range c.M).foldl (fun u i => u.loadRow i c.N triple ((R.getD i []).map ne32)) x) []))
def State.startMcomb (s : State) (c : Cmd) (t : Tile) : Start :=
  let o := c.operand c.a c.M (c.N + 2) true (plainF32 c.a)
  let F := 32 + ceilDiv (c.M * (c.N + 2)) 64
  s.leased c (s.arrayBusy c.core) (s.unsettled c.core t)
    (s.checked c [o] false
      (let bs := s.opndBytes c.core o
       let R := fun (i : Nat) => (groupsLE 4 (c.N + 2) (bs.drop (i * rowBytes .fp32 0 (c.N + 2)))).map (BitVec.ofNat 32)
       s.tileGo c t F F (fun x => (List.range c.M).foldl (fun u i =>
         let r := R i
         let z := rescaleCombine ⟨x.mxAt i, x.smAt i, (List.range c.N).map (x.at' i)⟩ ⟨r.getD 0 0, r.getD 1 0, r.drop 2⟩
         u.loadRow i c.N true (z.m :: z.s :: z.v)) x) []))
def State.startMzero (s : State) (c : Cmd) (t : Tile) : Start :=
  s.leased c (s.arrayBusy c.core) (s.unsettled c.core t) (s.tileGo c t 16 16 (fun x => x.zeroed c.M c.N) [])

/-! ### The words: each issues its command (R194) -/

def execMmul (st : Stall) (t : Tile) (a b c : Reg) (s : State) : Out :=
  .next (s.issue (.mmul st t a b c) fun s => s.command (.mmul st t a b c) st (s.g a) (s.g b) (s.g c))
def execMmac (st : Stall) (t : Tile) (a b c : Reg) (s : State) : Out :=
  .next (s.issue (.mmac st t a b c) fun s => s.command (.mmac st t a b c) st (s.g a) (s.g b) (s.g c))
def execMrun (st : Stall) (t : Tile) (a b c : Reg) (s : State) : Out :=
  .next (s.issue (.mrun st t a b c) fun s => s.command (.mrun st t a b c) st (s.g a) (s.g b) (s.g c))
def execMread (st : Stall) (t : Tile) (a b c : Reg) (s : State) : Out :=
  .next (s.issue (.mread st t a b c) fun s => s.command (.mread st t a b c) st (s.g a) (s.g b) (s.g c))
def execMzero (st : Stall) (t : Tile) (c : Reg) (s : State) : Out :=
  .next (s.issue (.mzero st t c) fun s => s.command (.mzero st t c) st 0 0 (s.g c))
def execMcomb (st : Stall) (t : Tile) (a c : Reg) (s : State) : Out :=
  .next (s.issue (.mcomb st t a c) fun s => s.command (.mcomb st t a c) st (s.g a) 0 (s.g c))
def execMprog (st : Stall) (a c : Reg) (s : State) : Out :=
  .next (s.issue (.mprog st a c) fun s => s.command (.mprog st a c) st (s.g a) 0 (s.g c))
def execMload (st : Stall) (t : Tile) (a b c : Reg) (s : State) : Out :=
  .next (s.issue (.mload st t a b c) fun s => s.command (.mload st t a b c) st (s.g a) (s.g b) (s.g c))

end Sys2Proof.Machine
end

