-- ==== Sys2Proof/Machine/Ladder.lean ====
section
/-! DEFINITION. The ladder (spec/10 R205–R209): what each command of major 0x3A checks and does at its start. -/

namespace Sys2Proof.Machine

def State.ladder (s : State) (n : Nat) : Option Ladder := (s.core n).active.ladder
def State.setLadder (s : State) (n : Nat) (l : Option Ladder) : State :=
  s.onCore n fun c => { c with active := { c.active with ladder := l } }
def State.ladderBusy (s : State) (n : Nat) : Bool := s.now < (s.rope (ropeOf n)).ladderBusy
/-- Cycles of one merge (R207). -/
def Ladder.q (l : Ladder) : Nat := ceilDiv (l.rows * l.cols) 256
def Ladder.space (l : Ladder) : Nat := 16 * l.rows * l.cols
/-- Values of the rope's store that configurations other than this core's active one take (R205). -/
def State.ladderUsed (s : State) (n : Nat) : Nat :=
  let size := fun (o : Option Ladder) => match o with | some l => l.space | none => 0
  ((List.range 8).map fun i =>
    let k := n / 8 * 8 + i
    let c := s.core k
    size c.shadow.ladder + (if k = n then 0 else size c.active.ladder)).foldl (· + ·) 0
def Ladder.occupied (l : Ladder) (k : Nat) : Bool := l.occ.getLsbD k
def Ladder.rung (l : Ladder) (k : Nat) : List W32 := (Table.find? k l.rungs).getD (List.replicate (l.rows * l.cols) 0)
/-- Rows of an element list. -/
def Ladder.rowsOf (l : Ladder) (xs : List W32) : List (List W32) := pieces l.cols l.rows xs
/-- Merge, the older rung first (R208). -/
def Ladder.mergeOf (l : Ladder) (old new : List W32) : List W32 :=
  let each := fun (f : W32 → W32 → W32) => List.zipWith f old new
  match l.merge.toNat with
  | 0 => each fun x y => (f32Add .rne x y).1
  | 1 => each fun x y => (f32Max x y).1
  | 2 => each fun x y => ne32 (addExact .rne (mulExact (f32 l.wa) (f32 x)).1 (mulExact (f32 l.wb) (f32 y)).1).1
  | _ => (List.zipWith (fun a b =>
      let z := rescaleCombine ⟨a.getD 0 0, a.getD 1 0, a.drop 2⟩ ⟨b.getD 0 0, b.getD 1 0, b.drop 2⟩
      z.m :: z.s :: z.v) (l.rowsOf old) (l.rowsOf new)).flatten
/-- The carry from rung `k` on: the ladder and the merges made (R208). -/
def Ladder.carry : Nat → Nat → Ladder → List W32 → Ladder × Nat
  | 0, _, l, _ => (l, 0)
  | fuel + 1, k, l, c =>
    if !l.occupied k then ({ l with rungs := Table.put k c l.rungs, occ := l.occ ||| ((1 : BitVec 16) <<< k) }, 0)
    else if k = 15 then ({ l with rungs := Table.put 15 (l.mergeOf (l.rung 15) c) l.rungs }, 0)
    else
      let l1 := { l with rungs := Table.del k l.rungs, occ := l.occ &&& ~~~((1 : BitVec 16) <<< k) }
      let (l2, m) := Ladder.carry fuel (k + 1) l1 (l.mergeOf (l.rung k) c)
      (l2, m + 1)
/-- One step. -/
def Ladder.step (l : Ladder) (c : List W32) : Ladder × Nat :=
  let (l1, m) := Ladder.carry 16 0 l c
  ({ l1 with count := min (l1.count + 1) (2 ^ 32 - 1) }, m)
def Ladder.occList (l : Ladder) : List Nat := (List.range 16).filter l.occupied
/-- The blend of the occupied rungs (R209). -/
def Ladder.blend (l : Ladder) : List W32 :=
  match l.occList with
  | [] => List.replicate (l.rows * l.cols) 0
  | k :: ks =>
    if l.merge = 3 then ks.foldl (fun acc j => l.mergeOf acc (l.rung j)) (l.rung k)
    else
      let w := fun (j : Nat) => l.w.getD j 0
      ks.foldl (fun acc j => List.zipWith (fun x a => (f32Fma .rne (w j) x a).1) (l.rung j) acc)
        ((l.rung k).map fun x => (f32Mul .rne (w k) x).1)
/-- FP32 values of an operand. -/
def State.f32Of (s : State) (n : Nat) (o : Opnd) : List W32 := (groupsLE 4 o.len (s.opndBytes n o)).map (BitVec.ofNat 32)
def f32Bytes (xs : List W32) : List Byte := xs.flatMap fun x => leBytes 4 x.toNat
/-- A ladder command under way. -/
def ladderGo (s : State) (D : Nat) (ws : List CmdWrite) : Start := .go ⟨s, D, D, ws⟩

def State.startLcfg (s : State) (c : Cmd) : Start :=
  let o : Opnd := ⟨c.a, 80, true, descFmt c.a = some .raw⟩
  let bs := s.opndBytes c.core o
  let w0 := BitVec.ofNat 64 (leOf (bs.take 8))
  let ws := (groupsLE 4 20 bs).map (BitVec.ofNat 32)
  let l : Ladder :=
  { rows := 16 * ((w0.extractLsb' 0 3).toNat + 1), cols := 16 * ((w0.extractLsb' 4 3).toNat + 1),
    merge := w0.extractLsb' 8 2, wa := ws.getD 2 0, wb := ws.getD 3 0, w := ws.drop 4, rungs := [], occ := 0, count := 0 }
  let readable := (s.opndStops c.core c.asid [{ o with read := false }] false).isNone
  let bad := readable && (w0 &&& 0xFFFFFFFFFFFFFC88 ≠ 0 || 262144 < s.ladderUsed c.core + l.space)
  s.leased c (s.ladderBusy c.core) false (s.checked c [o] bad (ladderGo (s.setLadder c.core (some l)) 32 []))
/-- Order 6 of a command that needs a configuration. -/
def State.withLadder (s : State) (c : Cmd) (unsettled : Bool) (os : Ladder → List Opnd) (bad : Bool) (go : Ladder → Start) : Start :=
  s.leased c (s.ladderBusy c.core) unsettled
    (match s.ladder c.core with
     | some l => s.checked c (os l) bad (go l)
     | none =>
       let none' : Ladder := ⟨0, 0, 0, 0, 0, [], [], 0, 0⟩
       s.checked c (os none') true (.trap ⟨0x0D, 0, 0⟩))
def State.startLwgt (s : State) (c : Cmd) : Start :=
  let o : Opnd := ⟨c.a, 64, true, plainF32 c.a⟩
  s.withLadder c false (fun _ => [o]) false fun l => ladderGo (s.setLadder c.core (some { l with w := s.f32Of c.core o })) 32 []
def State.startLstep (s : State) (c : Cmd) (src : LSrc) : Start :=
  let o := fun (l : Ladder) => (⟨c.a, l.rows * rowBytes .fp32 0 l.cols, true, plainF32 c.a⟩ : Opnd)
  let tile := fun (t : Tile) (l : Ladder) =>
    let x := s.tile c.core t
    (List.range l.rows).flatMap fun i => (List.range l.cols).map fun j => x.at' i j
  let go := fun (l : Ladder) (xs : List W32) =>
    let (l1, m) := l.step xs
    ladderGo (s.setLadder c.core (some l1)) (32 + l.q * m) []
  match src with
  | .scr => s.withLadder c false (fun l => [o l]) false fun l => go l (s.f32Of c.core (o l))
  | .t0 => s.withLadder c (s.unsettled c.core .t0) (fun _ => []) false fun l => go l (tile .t0 l)
  | .t1 => s.withLadder c (s.unsettled c.core .t1) (fun _ => []) false fun l => go l (tile .t1 l)
/-- The destination of `LREAD` and `LRUNG`. -/
def ladderDest (c : Cmd) (l : Ladder) : Opnd := ⟨c.a, l.rows * rowBytes .fp32 0 l.cols, false, plainF32 c.a⟩
def State.startLread (s : State) (c : Cmd) : Start :=
  s.withLadder c false (fun l => [ladderDest c l]) false fun l =>
    ladderGo s (32 + l.q * l.occList.length) [s.opndWrite c.core c.a (f32Bytes l.blend)]
def State.startLrung (s : State) (c : Cmd) : Start :=
  s.withLadder c false (fun l => [ladderDest c l]) (c.b.extractLsb' 4 60 ≠ 0) fun l =>
    ladderGo s (32 + l.q) [s.opndWrite c.core c.a (f32Bytes (l.rung (c.b.extractLsb' 0 4).toNat))]
def State.startLclr (s : State) (c : Cmd) : Start :=
  s.leased c (s.ladderBusy c.core) false (ladderGo (s.setLadder c.core none) 4 [])

def execLcfg (st : Stall) (a c : Reg) (s : State) : Out :=
  .next (s.issue (.lcfg st a c) fun s => s.command (.lcfg st a c) st (s.g a) 0 (s.g c))
def execLwgt (st : Stall) (a c : Reg) (s : State) : Out :=
  .next (s.issue (.lwgt st a c) fun s => s.command (.lwgt st a c) st (s.g a) 0 (s.g c))
def execLstep (st : Stall) (src : LSrc) (a c : Reg) (s : State) : Out :=
  .next (s.issue (.lstep st src a c) fun s => s.command (.lstep st src a c) st (s.g a) 0 (s.g c))
def execLread (st : Stall) (a c : Reg) (s : State) : Out :=
  .next (s.issue (.lread st a c) fun s => s.command (.lread st a c) st (s.g a) 0 (s.g c))
def execLrung (st : Stall) (a b c : Reg) (s : State) : Out :=
  .next (s.issue (.lrung st a b c) fun s => s.command (.lrung st a b c) st (s.g a) (s.g b) (s.g c))
def execLclr (st : Stall) (c : Reg) (s : State) : Out :=
  .next (s.issue (.lclr st c) fun s => s.command (.lclr st c) st 0 0 (s.g c))

end Sys2Proof.Machine
end

