-- ==== Sys2Proof/Machine/Vitrine.lean ====
section
/-! DEFINITION. Vitrine pages (spec/11 R223–R226; spec/12 R261, R262): claims, tails, seal, recall, and the vitrine
instructions of major 0x3C. -/

namespace Sys2Proof.Machine

/-- (DEDUCED: log entry 46) -/
def State.setVrec (s : State) (asid : Asid) (va : VA) (r : VRec) : State := { s with vit := Table.put (vitKey asid va) r s.vit }
/-- INFL: claims whose data is not written (R223). -/
def VRec.infl (r : VRec) : Nat := (r.claims.filter fun c => !c.done).length
/-- Claims written at the front publish their ranges (R225). -/
def VRec.publish (r : VRec) : VRec :=
  let ready := r.claims.takeWhile fun c => c.done
  { r with claims := r.claims.drop ready.length, ptail := match ready.getLast? with | some c => c.stop | none => r.ptail }
def VRec.written (r : VRec) (id : Nat) : VRec :=
  ({ r with claims := r.claims.map fun c => if c.id = id then { c with done := true } else c } : VRec).publish
/-- A claim of `n` bytes from an alignment on, in the page at `pa` (R224): its offset with the bytes skipped, and the record, or the
cause. -/
def VRec.claim (r : VRec) (id n align pa : Nat) : Nat ⊕ (Nat × VRec) :=
  if r.state != .open' then .inl 0x10
  else
    let from' := ceilDiv r.rtail align * align
    if 65536 < from' + n then .inl 0x11
    else .inr (from', { r with rtail := from' + n, claims := r.claims ++ [⟨id, r.rtail, from' + n, false, pa⟩] })
/-- A page event passes R261's checks: the page's base, its entry. -/
def State.withPage (s : State) (a : Reg) (k : Kind) (body : State → VA → Pte → State) : State :=
  let va := addr (s.g a) &&& 0xFFFFFFFFFF0000
  if inLocal va || inRope va then s.trap ⟨0x06, ofVA va, 0⟩
  else match s.xlate s.asid va with
    | none => s.parkPage va k.writes
    | some e =>
      if e.malformed || !s.physOk (e.pa va) || !k.permitted e || e.cls ≠ .vitrine then s.trap ⟨0x06, ofVA va, 0⟩
      else if s.noRoute (e.pa va) then s.trap ⟨0x13, ofVA va, 0⟩
      else body (s.keepXlat s.asid va e) va e
/-- The fault of a page event. -/
def State.pageTrap (s : State) (cause : Nat) (va : VA) : State := s.trap ⟨cause, ofVA va, 0⟩
/-- The acting context as a HOLDER. -/
def State.holder (s : State) : Holder := ⟨s.act.1, s.act.2, s.myCore.task.bind⟩
/-- The instruction is done and its context waits for the home's answer. -/
def State.homeDone (s : State) (st : Stall) : State := (s.done st).parkHome s.lat.home

def execVclaim (st : Stall) (a : Reg) (s : State) : Out :=
  .next (s.issue (.vclaim st a) fun s => s.onceThenCairn st fun s => s.withPage a .vitWrite fun s va _ =>
    match s.vrec s.asid va with
    | some _ => s.pageTrap 0x10 va
    | none => (s.setVrec s.asid va ⟨.open', 0, 0, [], some s.holder, []⟩).cairnAfter st)
def execApnd (st : Stall) (d a b : Reg) (s : State) : Out :=
  .next (s.issue (.apnd st d a b) fun s => s.withPage a .vitWrite fun s va e =>
    match s.vrec s.asid va with
    | none => s.pageTrap 0x10 va
    | some r =>
      let (id, s1) := s.newId
      match r.claim id 8 8 (e.pa va) with
      | .inl cause => s.pageTrap cause va
      | .inr (at', r1) =>
        if s.poisoned (e.pa va + at') then s.pageTrap 0x13 va
        else
        let s2 := (s1.setPhys (e.pa va + at') 8 (s.g b).toNat).heatUp (e.pa va) true
        ((s2.setVrec s.asid va (r1.written id)).gset d (BitVec.ofNat 64 at')).homeDone st)
def execTailset (st : Stall) (a b : Reg) (s : State) : Out :=
  .next (s.issue (.tailset st a b) fun s => s.withPage a .vitWrite fun s va _ =>
    let t := (s.g b).toNat
    match s.vrec s.asid va with
    | none => s.pageTrap 0x10 va
    | some r =>
      if 2 ^ 17 ≤ t || t % 8 != 0 || r.state != .open' || r.holder != some s.holder || r.infl != 0 || r.ptail < t then
        s.pageTrap 0x10 va
      else (s.setVrec s.asid va { r with rtail := t, ptail := t }).homeDone st)
def execSeal (st : Stall) (a : Reg) (s : State) : Out :=
  .next (s.issue (.seal st a) fun s => s.withPage a .vitWrite fun s va _ =>
    if s.unclaimed s.act.1 s.act.2 then s.parkDrain
    else if s.vitrineBusy s.act.1 s.act.2 va then (s.onMe fun c => { c with answer := some waitsForClaims }).parkDrain
    else match s.vrec s.asid va with
      | none => s.pageTrap 0x10 va
      | some r =>
        match r.state with
        | .open' => (s.setVrec s.asid va { r with state := .sealed }).homeDone st
        | .sealed => s.homeDone st
        | .recalling => s.pageTrap 0x10 va)
/-- Recall starts (R226): every holder in PRES is asked; without one the record is free at once. -/
def State.recall (s : State) (asid : Asid) (va : VA) (r : VRec) : State :=
  if r.pres.isEmpty then { s with vit := Table.del (vitKey asid va) s.vit }
  else
    r.pres.foldl (fun s h => s.after s.lat.recallWait (.recallAck asid (va.toNat / 2 ^ 16) h))
      (s.setVrec asid va { r with state := .recalling })
def execVfree (st : Stall) (a : Reg) (s : State) : Out :=
  .next (s.issue (.vfree st a) fun s =>
    let free := fun (s : State) => s.withPage a .vitWrite fun s va _ =>
      if s.unclaimed s.act.1 s.act.2 then s.parkDrain
      else if s.vitrineBusy s.act.1 s.act.2 va then (s.onMe fun c => { c with answer := some waitsForClaims }).parkDrain
      else match s.vrec s.asid va with
        | none => s.pageTrap 0x10 va
        | some r =>
          let s1 := if r.state = .recalling then s else s.recall s.asid va r
          if (s1.vrec s.asid va).isSome then (s1.onMe fun c => { c with answer := some waitsForRecall }).parkDrain
          else s1.homeDone st
    if s.me.answer = some waitsForRecall then s.homeDone st else free s)
/-- A holder has dropped the page's lines and acknowledges (R226); the last one frees the record. -/
def execRecallAck (asid : Asid) (page holder : Nat) (s : State) : Out :=
  .next (
    let va := BitVec.ofNat 56 (page * 2 ^ 16)
    match s.vrec asid va with
    | none => s
    | some r =>
      if r.state != .recalling then s
      else
        let drop := fun (c : Core) => { c with
          lines := c.lines.filter fun l => !(l.asid == asid && l.line / 512 == page),
          icache := c.icache.filter fun w => w.1 / 2 ^ 16 != asid.toNat * 2 ^ 40 + page }
        let cores := s.cores.map fun e => if dieOf e.1 == holder then (e.1, drop e.2) else e
        let s1 : State := { s with cores := cores }
        let r1 := { r with pres := r.pres.filter fun h => h != holder }
        if r1.pres.isEmpty then { s1 with vit := Table.del (vitKey asid va) s1.vit } else s1.setVrec asid va r1)
def VState.code : VState → Nat
  | .open' => 1 | .sealed => 2 | .recalling => 3
/-- The status word of R262. -/
def vtailWord (r : Option VRec) (me : Holder) : W64 :=
  match r with
  | none => 0
  | some r => BitVec.ofNat 64 (r.state.code * 2 ^ 62 + (if r.holder = some me then 2 ^ 61 else 0) + r.rtail * 2 ^ 32 +
      min 4095 r.infl * 2 ^ 20 + r.ptail)
def execVtail (st : Stall) (d a : Reg) (s : State) : Out :=
  .next (s.issue (.vtail st d a) fun s => s.withPage a .vitRead fun s va _ =>
    (s.gset d (vtailWord (s.vrec s.asid va) s.holder)).homeDone st)
/-- Append rights of a task are released (R81, R82, R310): the records keep their tails. -/
def State.releaseRights (s : State) (core bind : Nat) : State :=
  { s with vit := s.vit.map fun e => (e.1, { e.2 with holder := match e.2.holder with
      | some h => if h.core == core && h.bind == bind then none else some h
      | none => none }) }

end Sys2Proof.Machine
end

