-- ==== Sys2Proof/Machine/Copy.lean ====
section
/-! DEFINITION. The copy engines (spec/12 R247–R254), and the steps of every engine command: its start, its completion
and a copy's data reaching its vitrine page. -/

namespace Sys2Proof.Machine

/-! ### Copy records (R247) -/

def Cmd.w (c : Cmd) (k : Nat) : W64 := c.recWords.getD k 0
def Cmd.mem (c : Cmd) : W64 := c.w 0
def Cmd.dir (c : Cmd) : Nat := ((c.w 1).extractLsb' 62 2).toNat
def Cmd.fresh (c : Cmd) : Bool := (c.w 1).getLsbD 61
def Cmd.rows (c : Cmd) : Nat := ((c.w 1).extractLsb' 44 12).toNat + 1
def Cmd.elems (c : Cmd) : Nat := ((c.w 1).extractLsb' 0 32).toNat
def Cmd.stride (c : Cmd) : Nat := (c.w 2).toNat
def Cmd.compVA (c : Cmd) : W64 := c.w 3
def Cmd.scr (c : Cmd) : W64 := c.w 4
/-- The limits of R247 that every copy with a record keeps; a misaligned COMP breaks its field (R248) (DEDUCED: log entry 34). -/
def Cmd.recordBad (c : Cmd) : Bool :=
  2 ≤ c.dir || (c.w 1).extractLsb' 56 5 ≠ 0 || (c.w 1).extractLsb' 32 12 ≠ 0 || c.elems = 0 || 65536 < c.elems ||
    c.w 6 ≠ 0 || c.w 7 ≠ 0 || c.compVA.toNat % 8 != 0
def memFmt (c : Cmd) : Fmt := (descFmt c.mem).getD .raw
/-- A raw side meets only a raw side (R249). -/
def rawMismatch (a b : W64) : Bool := (descFmt a = some .raw) != (descFmt b = some .raw)
/-- The record operand. -/
def recordOpnd (c : Cmd) : Opnd := ⟨c.b, 64, true, descFmt c.b = some .raw⟩
/-- The scratch operand a register names, of the record's rows. -/
def scratchOpnd (c : Cmd) (d : W64) (read : Bool) : Opnd :=
  ⟨d, c.rows * rowBytesOf (descFmt d) (descBlog d) (min c.elems 65536), read, true⟩
/-- The record read at the start cycle. -/
def State.withRecord (s : State) (c : Cmd) : Cmd :=
  let (bs, bad) := s.copyBytes c.core (recordOpnd c)
  { c with recWords := (groupsLE 8 8 bs).map (BitVec.ofNat 64), poison := bad }
/-- The scratch source read at the start cycle. -/
def State.withSource (s : State) (c : Cmd) (o : Opnd) : Cmd :=
  if c.dir = 1 then
    let (bs, bad) := s.copyBytes c.core o
    { c with src := bs, poison := c.poison || bad }
  else c

/-! ### Memory of an engine thread (R251, R271) -/

/-- Bytes of one page read under one translation, word by word: poisoned lines read zero and are noted (R249, R251). -/
def State.blockLoad (s : State) (n : Nat) (asid : Asid) (f : Table Nat) (fresh : Bool) (e : Pte) (first : Bool) (va : VA) : Nat → Nat →
    List Byte × Table Nat × Bool × State
  | 0, _ => ([], f, false, s)
  | fuel + 1, len =>
    if len = 0 then ([], f, false, s)
    else
      let k := min len (8 - va.toNat % 8)
      let pa := e.pa va
      let (bs, f1, bad, s1) : List Byte × Table Nat × Bool × State :=
        if s.poisoned pa then (List.replicate k 0, f, true, s)
        else
          let (x, f1, s1) := s.loadAt n f (fresh || e.cls = .device) asid va k e pa
          let s2 := if first || va.toNat % 128 = 0 then s1.readHeat n asid va e pa else s1
          (leBytes k x.toNat, f1, false, s2.present n asid va e)
      let (bs', f2, bad', s2) := s1.blockLoad n asid f1 fresh e false (va + BitVec.ofNat 56 k) fuel (len - k)
      (bs ++ bs', f2, bad || bad', s2)
/-- Blocks read, each translated once (R249); a page that does not translate reads zero. -/
def State.blocksLoad (s : State) (n : Nat) (asid : Asid) (f : Table Nat) (fresh : Bool) : List (VA × Nat) → List Byte × Table Nat × Bool × State
  | [] => ([], f, false, s)
  | (va, k) :: ps =>
    let (bs, f1, bad, s1) : List Byte × Table Nat × Bool × State := match s.entry asid va with
      | none => (List.replicate k 0, f, false, s)
      | some e =>
        let s0 := (s.keepXlat asid va e).classify n false asid va e (e.pa va)
        s0.blockLoad n asid f fresh (s0.classed e) true va k k
    let (bs', f2, bad', s2) := s1.blocksLoad n asid f1 fresh ps
    (bs ++ bs', f2, bad || bad', s2)
/-- Bytes of memory read by a thread. -/
def State.threadLoad (s : State) (n : Nat) (asid : Asid) (f : Table Nat) (fresh : Bool) (va : VA) (len : Nat) : List Byte × Table Nat × Bool × State :=
  s.blocksLoad n asid f fresh (pagesOf va len)
/-- The first trap or page fault of a range; poison does not stop a copy (R251) (DEDUCED: log entries 45 and 100). -/
def State.copyStop (s : State) (k : Kind) (asid : Asid) (va : VA) (n : Nat) : Option (Trap ⊕ (VA × Bool)) :=
  if inLocal va || inRope va then some (.inl ⟨0x06, ofVA va, 0⟩) else s.rangeStop true k asid va n
/-- What stops a Bump (R251, R252): the issuing core's bank, or memory as an atomic. -/
def State.bumpStop (s : State) (n : Nat) (asid : Asid) (va : VA) : Option (Trap ⊕ (VA × Bool)) :=
  if va.toNat % 8 ≠ 0 then some (.inl ⟨0x03, ofVA va, 0⟩)
  else if inLocal va then
    match s.placeLocal n va 8 true with
    | .scratch _ => none
    | .trap t => if t.cause = 0x13 then none else some (.inl t)
    | _ => some (.inl ⟨0x06, ofVA va, 0⟩)
  else s.copyStop .atomic asid va 8
/-- What a Bump meets when it is performed, poison or a stale granule: it adds nothing then (R100, R251, R326). -/
def State.bumpLost (s : State) (n : Nat) (asid : Asid) (va : VA) : Option Trap :=
  if inLocal va then
    match s.placeLocal n va 8 true with
    | .trap t => if t.cause = 0x06 then none else some t
    | _ => none
  else match s.entry asid va with
    | some e => if s.poisoned (e.pa va) then some ⟨0x13, ofVA va, 0⟩ else none
    | none => none
/-- Bump (R252): the thread's release of device scope, then the addition at home or in the bank. -/
def State.bump (s : State) (n : Nat) (asid : Asid) (f : Table Nat) (va : VA) (x : W64) : Table Nat × State :=
  let s1 := s.publish n .device f
  if (s.bumpLost n asid va).isSome then (f, s1)
  else if inLocal va then
    (f, s1.onCore n fun c =>
      let o := va.toNat - scrBase
      if o + 8 ≤ c.banks.slen then { c with banks := c.banks.store o 8 (c.banks.read o 8 + x) 0xFFFFFFFFFFFFFFFF } else c)
  else match s1.entry asid va with
    | none => (f, s1)
    | some e =>
      let pa := e.pa va
      let s2 := (s1.keepXlat asid va e).classify n true asid va e pa
      let e2 := s2.classed e
      let (old, f1, s3) := s2.loadAt n f true asid va 8 e2 pa
      let (f2, s4) := s3.storeAt f1 asid va 8 (old + x) 0xFFFFFFFFFFFFFFFF e2 pa
      (f2, (if hasOrder e2 pa then s4.fillHeat pa else s4.heatUp pa true).publish n .device f2)

/-! ### Rows (R249) -/

/-- Address of memory row r. -/
def Cmd.rowVA (c : Cmd) (r : Nat) : VA := addr c.mem + BitVec.ofNat 56 (r * c.stride)
/-- A row's bytes carried from one side's format to the other's, `len` of them. -/
def carry (fa : Fmt) (ba : Nat) (fb : Fmt) (bb n len : Nat) (bs : List Byte) : List Byte :=
  if fa = fb && ba = bb then fitLen len (blockBytesOf fb bb (blocksIn fa ba n bs)) else fitLen len (encodeRow fb bb (decodeRow fa ba n bs))
/-- The memory rows of a copy, read in order. -/
def State.loadRows (s : State) (c : Cmd) (f : Table Nat) (len : Nat) : Nat → Nat → List (List Byte) × Table Nat × Bool × State
  | 0, _ => ([], f, false, s)
  | k + 1, r =>
    let (bs, f1, bad, s1) := s.threadLoad c.core c.asid f c.fresh (c.rowVA r) len
    let (rest, f2, bad', s2) := s1.loadRows c f1 len k (r + 1)
    (bs :: rest, f2, bad || bad', s2)
/-- What stops the rows of memory. -/
def State.rowsStop (s : State) (c : Cmd) (k : Kind) (len : Nat) : Option (Trap ⊕ (VA × Bool)) :=
  (List.range c.rows).findSome? fun r => s.copyStop k c.asid (c.rowVA r) len
def State.compStop (s : State) (c : Cmd) : Option (Trap ⊕ (VA × Bool)) :=
  if c.compVA = 0 then none else s.bumpStop c.core c.asid (addr c.compVA)
/-- The completion object of a record. -/
def Cmd.compOf (c : Cmd) : Option (W64 × W64) := if c.compVA = 0 then none else some (c.compVA, 1)
/-- A copy under way: the thread's floors, its writes, its completion object. -/
def copyGo (s : State) (c : Cmd) (f : Table Nat) (bad : Bool) (bytes : Nat) (ws : List CmdWrite) : Start :=
  .go ⟨s.onCmd c.id fun d =>
      { d with floors := f, comp := c.compOf, poison := bad || c.poison, recWords := c.recWords, src := c.src, chain := c.chain },
    0, s.lat.copy + bytes / 256, ws⟩
def stopOr (o : Option (Trap ⊕ (VA × Bool))) (go : Start) : Start :=
  match o with | some (.inl t) => .trap t | some (.inr (va, w)) => .hold va w | none => go

/-! ### The commands -/

def State.copyLast (s : State) (n : Nat) : Option Nat := if n % 2 = 0 then (s.rope (ropeOf n)).copy0 else (s.rope (ropeOf n)).copy1
def isCopy (i : Instr) : Bool := majorOf i == 0x3B
/-- The copy engine of a core is busy (R250). -/
def State.copyBusy (s : State) (n : Nat) : Bool :=
  (match s.copyLast n with | some t => s.now < t + 16 | none => false) ||
    16 ≤ (s.cmds.filter fun c => isCopy c.instr && c.core / 8 == n / 8 && c.core % 2 == n % 2 && c.phase != .waiting).length
/-- Orders 3 to 5 of the two register descriptors of a copy, before its record is used. -/
def State.copyFirst (s : State) (c : Cmd) (a : Option W64) : Option Trap :=
  let ds := c.b :: a.toList
  firstTrap [(ds.any tagBad || (a.isNone && tagBad c.a), 0x07), (ds.any fun d => descOff d % 16 != 0, 0x03),
    (!s.descIn c.core c.asid (recordOpnd c), 0x06)]
/-- MEM's tag and alignment (orders 3 and 4). -/
def memFirst (c : Cmd) : Option Trap :=
  firstTrap [(tagBad c.mem, 0x07), (descBlog c.mem != 0 && (addr c.mem).toNat % 16 != 0, 0x03)]
def strideBad (c : Cmd) : Bool := descBlog c.mem != 0 && c.stride % 16 != 0
/-- The record's words of R247 limits and its descriptor (order 6). -/
def State.recordStop (s : State) (c : Cmd) : Bool := c.recordBad || s.descBad c.core (recordOpnd c)

/-- The part of `COPY` that translates and moves data (R249, R251) (DEDUCED: log entry 28). -/
def State.copyBody (s : State) (c : Cmd) : Start :=
  let fs := (descFmt c.a).getD .raw
  let bs := descBlog c.a
  let mlen := memRowBytes (memFmt c) (descBlog c.mem) c.elems
  let drow := rowBytes fs bs c.elems
  if c.dir = 0 then
    stopOr ((s.rowsStop c .read mlen).orElse fun _ => s.compStop c)
      (let (rows, f, bad, s1) := s.loadRows c c.floors mlen c.rows 0
       let data := rows.flatMap (carry (memFmt c) (descBlog c.mem) fs bs c.elems drow)
       copyGo s1 c f bad data.length [s1.opndWrite c.core c.a data])
  else
    stopOr ((s.rowsStop c .write mlen).orElse fun _ => s.compStop c)
      (let rows := pieces drow c.rows c.src
       let ws := (List.zip (List.range c.rows) rows).map fun e =>
         CmdWrite.mem (c.rowVA e.1) (carry fs bs (memFmt c) (descBlog c.mem) c.elems mlen e.2)
       copyGo s c c.floors false (c.rows * mlen) ws)
def State.startCopy (s : State) (c0 : Cmd) : Cmd × Start :=
  match s.copyFirst c0 (some c0.a) with
  | some t => (c0, .trap t)
  | none =>
    let c := s.withRecord c0
    let o := scratchOpnd c c.a (c.dir = 1)
    match (memFirst c).orElse fun _ => firstTrap [(!s.descIn c.core c.asid o, 0x06),
        (s.recordStop c || s.descBad c.core o || c.scr ≠ 0 || rawMismatch c.a c.mem || strideBad c, 0x0D)] with
    | some t => (c, .trap t)
    | none =>
      match s.rangeStops true (s.opndRange c.core (recordOpnd c) :: if c.dir = 1 then [s.opndRange c.core o] else []) with
      | some t => (c, .trap t)
      | none =>
        let c1 := s.withSource c o
        (c1, s.copyBody c1)

/-- The page a `COPY.apnd` names (R253). -/
def Cmd.pageVA (c : Cmd) : VA := addr c.a &&& 0xFFFFFFFFFF0000
/-- The part of `COPY.apnd` that translates, claims and moves data (R253). -/
def State.apndBody (s : State) (c : Cmd) : Start :=
  let fp := (descFmt c.a).getD .raw
  let bp := descBlog c.a
  let prow := rowBytes fp bp c.elems
  let mlen := memRowBytes (memFmt c) (descBlog c.mem) c.elems
  stopOr (((s.copyStop .vitWrite c.asid c.pageVA 1).orElse fun _ =>
      if c.dir = 0 then s.rowsStop c .read mlen else none).orElse fun _ => s.compStop c)
    (match s.vrec c.asid c.pageVA with
     | none => .trap ⟨0x10, ofVA c.pageVA, 0⟩
     | some r =>
       match r.claim c.id (c.rows * prow) 16 (match s.entry c.asid c.pageVA with | some e => e.pa c.pageVA | none => 0) with
       | .inl cause => .trap ⟨cause, ofVA c.pageVA, 0⟩
       | .inr (at', r1) =>
         let (rows, f, bad, s1) : List (List Byte) × Table Nat × Bool × State :=
           if c.dir = 0 then s.loadRows c c.floors mlen c.rows 0
           else (pieces (rowBytesOf (descFmt c.scr) (descBlog c.scr) c.elems) c.rows c.src, c.floors, false, s)
         let (fa, ba) := if c.dir = 0 then (memFmt c, descBlog c.mem) else ((descFmt c.scr).getD .raw, descBlog c.scr)
         let data := List.replicate (at' - r.rtail) 0 ++ rows.flatMap (carry fa ba fp bp c.elems prow)
         let res := CmdWrite.scratch (descOwner c.core c.b) ((s.descAt c.core c.b).getD 0 + 0x28)
           (leBytes 8 (2 ^ 63 + at')) none false
         let s2 := (s1.setVrec c.asid c.pageVA r1).onCmd c.id fun d => { d with claim := some (c.pageVA.toNat / 2 ^ 16, c.id) }
         copyGo s2 c f bad data.length [.mem (c.pageVA + BitVec.ofNat 56 r.rtail) data, res])
def State.startApnd (s : State) (c0 : Cmd) : Cmd × Start :=
  match s.copyFirst c0 none with
  | some t => (c0, .trap t)
  | none =>
    let c := s.withRecord c0
    let o := scratchOpnd c c.scr true
    let first := if c.dir = 1 then
        firstTrap [(tagBad c.scr, 0x07), (descOff c.scr % 16 != 0, 0x03), (!s.descIn c.core c.asid o, 0x06)]
      else memFirst c
    let bad6 := if c.dir = 1 then s.descBad c.core o || rawMismatch c.a c.scr
      else c.scr ≠ 0 || rawMismatch c.a c.mem || strideBad c
    match first.orElse fun _ => firstTrap [(s.recordStop c || bad6, 0x0D)] with
    | some t => (c, .trap t)
    | none =>
      match s.rangeStops true (s.opndRange c.core (recordOpnd c) :: if c.dir = 1 then [s.opndRange c.core o] else []) with
      | some t => (c, .trap t)
      | none =>
        let c1 := s.withSource c o
        (c1, s.apndBody c1)

/-- The part of `COPYL` that reads the deltas of its snapshot (R63, R254); elements of a tensor of one dimension are laid out as one run
(R54, R66). -/
def State.copylBody (s : State) (c : Cmd) : Start :=
  let fs := (descFmt c.a).getD .raw
  let bs := descBlog c.a
  let nd := leafOf c.chain
  let row0 := ((c.w 2).extractLsb' 0 32).toNat
  let col0 := ((c.w 2).extractLsb' 32 32).toNat
  stopOr ((s.chainStop true c.asid c.chain).orElse fun _ => s.compStop c)
    (let blks := s.resolve c.asid c.chain
     let drow := rowBytes fs bs c.elems
     let rows := (List.range c.rows).map fun r =>
       let part := sliceBlks ((row0 + r) * nd.cols + col0) c.elems blks
       if nd.format = fs && nd.blog = bs then fitLen drow (blockBytesOf fs bs (if nd.ndim = 0 then regroup fs bs part else part))
       else encodeRow fs bs (valsOf nd.format nd.blog part)
     copyGo s c c.floors (s.chainPoison c.asid c.chain) (c.rows * drow) [s.opndWrite c.core c.a rows.flatten])
/-- The snapshot of `COPYL`, held while a page of its records does not translate, its checks, and the rest (R63, R251, R254). -/
def State.copylSnap (s : State) (c : Cmd) (stop : Option Trap) : Cmd × Start :=
  let h := (c.mem.extractLsb' 0 24).toNat
  let w := 16 * c.core + c.ctx
  match s.chainGap (s.seenNode w c.asid) c.asid 8 h with
  | some va => (c, match stop with | some t => .trap t | none => .hold va false)
  | none =>
    let chain := s.snapshot w c.asid h
    let nd := leafOf chain
    let row0 := ((c.w 2).extractLsb' 0 32).toNat
    let col0 := ((c.w 2).extractLsb' 32 32).toNat
    match (firstTrap [(!nd.live, 0x0F), (nd.rows < row0 + c.rows || nd.cols < col0 + c.elems || col0 % 2 ^ nd.blog != 0, 0x0D)]).orElse
        fun _ => stop with
    | some t => (c, .trap t)
    | none =>
      let c1 := { c with chain := chain }
      (c1, s.copylBody c1)
def State.startCopyl (s : State) (c0 : Cmd) : Cmd × Start :=
  match s.copyFirst c0 (some c0.a) with
  | some t => (c0, .trap t)
  | none =>
    let c := s.withRecord c0
    let o := { scratchOpnd c c.a false with ok := match descFmt c.a with | some .raw => false | _ => true }
    match firstTrap [(!s.descIn c.core c.asid o, 0x06),
        (s.recordStop c || s.descBad c.core o || c.mem.extractLsb' 24 40 ≠ 0 || c.scr ≠ 0 || c.dir ≠ 0, 0x0D),
        (!s.handleOk c.asid (c.mem.extractLsb' 0 24).toNat, 0x0F)] with
    | some t => (c, .trap t)
    | none => s.copylSnap c (s.rangeStops true [s.opndRange c.core (recordOpnd c)])
def State.startCopyz (s : State) (c : Cmd) : Start :=
  let n := c.b.toNat
  let ok := n % 64 = 0 && 64 ≤ n && n ≤ 294912
  let len := if ok then n else 0
  let o : Opnd := ⟨c.a, len, false, true⟩
  s.checked c [o] (!ok) (.go ⟨s, 0, 16 + ceilDiv n 1024, [s.opndWrite c.core c.a (List.replicate len 0)]⟩)
/-- `CBUMP`: its checks; it completes once every earlier copy of the context has (R248). -/
def State.cbumpBody (s : State) (c : Cmd) : Start :=
  stopOr (s.bumpStop c.core c.asid (addr c.a)) (.go ⟨s.onCmd c.id fun d => { d with comp := some (c.a, c.b) }, 0, 0, []⟩)

/-- A command at its start cycle: with what it has read, and what comes of its checks. -/
def State.startOf (s : State) (c : Cmd) : Cmd × Start :=
  let cp := fun (go : Unit → Cmd × Start) => if s.late c || s.copyBusy c.core then (c, .trap ⟨0x0B, 0, 0⟩) else go ()
  match c.instr with
  | .mmul _ t _ _ _ => (c, s.startMmul c t)
  | .mmac _ t _ _ _ => (c, s.startMmac c t)
  | .mrun _ t _ _ _ => (c, s.startMrun c t)
  | .mread _ t _ _ _ => (c, s.startMread c t)
  | .mzero _ t _ => (c, s.startMzero c t)
  | .mcomb _ t _ _ => (c, s.startMcomb c t)
  | .mprog _ _ _ => (c, s.startMprog c)
  | .mload _ t _ _ _ => (c, s.startMload c t)
  | .lcfg _ _ _ => (c, s.startLcfg c)
  | .lwgt _ _ _ => (c, s.startLwgt c)
  | .lstep _ src _ _ => (c, s.startLstep c src)
  | .lread _ _ _ => (c, s.startLread c)
  | .lrung _ _ _ _ => (c, s.startLrung c)
  | .lclr _ _ => (c, s.startLclr c)
  | .copy _ _ _ _ => cp fun _ => s.startCopy c
  | .copyApnd _ _ _ _ => cp fun _ => s.startApnd c
  | .copyl _ _ _ _ => cp fun _ => s.startCopyl c
  | .copyz _ _ _ _ => cp fun _ => (c, s.startCopyz c)
  | .cbump _ _ _ _ => cp fun _ => (c, s.cbumpBody c)
  | _ => (c, .trap ⟨0x0D, 0, 0⟩)
/-- The part that is carried out again after a page fault's answer (R251). -/
def State.bodyOf (s : State) (c : Cmd) : Cmd × Start :=
  match c.instr with
  | .copy _ _ _ _ => (c, s.copyBody c)
  | .copyApnd _ _ _ _ => (c, s.apndBody c)
  | .copyl _ _ _ _ => if c.chain.isEmpty then s.copylSnap c none else (c, s.copylBody c)
  | _ => (c, s.cbumpBody c)
/-- A copy engine starts a command in this cycle (R250). -/
def State.copyStarts (s : State) (n : Nat) : State :=
  s.onRope (ropeOf n) fun x => if n % 2 = 0 then { x with copy0 := some s.now } else { x with copy1 := some s.now }
/-- A command that begins keeps its engine busy and has its completion to come (R187, R188, R195, R207, R250). -/
def State.beginCmd (s : State) (c : Cmd) (b : Begun) (fresh : Bool) : State :=
  let r := ropeOf c.core
  let mark := fun (s : State) => s.onCmd c.id fun d => { d with writes := b.writes, phase := .running, fedBy := s.now + b.busy }
  let s1 := mark (if fresh then b.s.started c id else b.s)
  if isCopy c.instr then
    let s2 := if fresh then s1.copyStarts c.core else s1
    match c.instr with
    | .copyz _ _ _ _ => s2.firstAt (s.now + b.stop) (.engineCommandComplete c.core c.id)
    | .copyApnd _ _ _ _ =>
      (s2.firstAt (s.now + b.stop) (.copyComplete c.core c.id)).firstAt (s.now + b.stop)
        (.vitrineDataWritten c.asid (c.pageVA.toNat / 2 ^ 16) c.id)
    | _ => s2.at' (s.now + b.stop) (.copyComplete c.core c.id)
  else
    let s2 := s1.onRope r fun x =>
      if majorOf c.instr = 0x38 then { x with arrayBusy := s.now + b.busy } else { x with ladderBusy := s.now + b.busy }
    (s2.countRun r).firstAt (s.now + b.stop) (.engineCommandComplete c.core c.id)
/-- What comes of a start or of a page fault's answer. -/
def State.startWith (s : State) (c : Cmd) (r : Start) (fresh : Bool) : State :=
  match r with
  | .trap t => s.cmdFault c t
  | .hold _ _ => (if fresh then (s.started c id).copyStarts c.core else s).onCmd c.id fun _ => { c with phase := .held }
  | .go b => s.beginCmd c b fresh
/-- A command comes to its start cycle; one of a task that is being failed is dropped (R310). -/
def execEngineCommandStart (core id : Nat) (s : State) : Out :=
  .next (if (s.core core).failing.isSome then s else match s.cmds.find? fun c => c.id == id && c.core == core && c.phase == .waiting with
    | none => s
    | some c => let (c1, r) := s.startOf c; s.startWith c1 r true)

def CmdWrite.toMem : CmdWrite → Bool
  | .mem _ _ => true
  | .scratch _ _ _ _ _ => false
/-- A write of the command falls in a poisoned line (R251). -/
def State.writesPoison (s : State) (c : Cmd) : Bool :=
  c.writes.any fun w => match w with
    | .mem va data => (pagesOf va data.length).any fun p => match s.entry c.asid p.1 with
      | some e => (s.poisonAt p.1 (e.pa p.1) p.2).isSome
      | none => false
    | .scratch _ _ _ _ _ => false
/-- What a copy writes to memory is performed, before its other writes. -/
def State.landMem (s : State) (c : Cmd) : State :=
  let bad := c.poison || s.writesPoison c
  let (f, s1) := s.landWrites c c.floors (c.writes.filter CmdWrite.toMem)
  s1.onCmd c.id fun d => { d with floors := f, poison := bad, writes := c.writes.filter fun w => !w.toMem }
/-- A claim whose data write fails is filled with zeros by the home (R225). -/
def State.fillClaim (s : State) (r : VRec) (id : Nat) : State :=
  match r.claims.find? fun x => x.id == id with
  | some x => if x.done then s else { s with mem := cellsPut s.mem (x.pa + x.start) (List.replicate (x.stop - x.start) 0) }
  | none => s
/-- A copy's data reaches its vitrine page and the claim counts as written (R225, R253). -/
def execVitrineDataWritten (asid : Asid) (page claim : Nat) (s : State) : Out :=
  .next (
    let va := BitVec.ofNat 56 (page * 2 ^ 16)
    match s.vrec asid va with
    | none => s
    | some r =>
      let s1 := match s.cmds.find? fun c => c.claim == some (page, claim) && c.asid == asid && c.phase == .running with
        | some c => match s.entry asid va with
          | none => s.fillClaim r claim
          | some e => if isRemote (e.pa va) then (s.fillClaim r claim).landMem c else s.landMem c
        | none => s.fillClaim r claim
      s1.setVrec asid va (r.written claim))
/-- A copy completes (R249, R251, R252): writes, the bump, a poison met; `CBUMP` waits for the context's earlier copies. -/
def execCopyComplete (core id : Nat) (s : State) : Out :=
  .next (match s.cmds.find? fun c => c.id == id && c.core == core && c.phase == .running with
    | none => s
    | some c =>
      let waits := (match c.instr with | .cbump _ _ _ _ => true | _ => false) &&
        s.cmds.any fun d => isCopy d.instr && d.core == c.core && d.ctx == c.ctx && d.id < c.id
      if waits then s.after 1 (.copyComplete core id)
      else
        let bad := if c.poison || s.writesPoison c then some ⟨0x13, 0, 0⟩
          else c.comp.bind fun p => s.bumpLost c.core c.asid (addr p.1)
        let join := match c.instr with
          | .cbump _ _ _ _ => (s.pubs.filter fun p => p.agent == engineAgent c.bind c.ctx).foldl (fun f p => mergeFloors f p.seen) c.floors
          | _ => c.floors
        let (f, s1) := s.landWrites c join c.writes
        let (f1, s2) := match c.comp with | some (a, n) => s1.bump c.core c.asid f (addr a) n | none => (f, s1)
        let s3 := s2.keepThread c f1
        match bad with | some t => s3.cmdFault c t | none => s3.finished c)

def execCopy (st : Stall) (a b c : Reg) (s : State) : Out :=
  .next (s.issue (.copy st a b c) fun s => s.command (.copy st a b c) st (s.g a) (s.g b) (s.g c))
def execCopyApnd (st : Stall) (a b c : Reg) (s : State) : Out :=
  .next (s.issue (.copyApnd st a b c) fun s => s.command (.copyApnd st a b c) st (s.g a) (s.g b) (s.g c))
def execCopyl (st : Stall) (a b c : Reg) (s : State) : Out :=
  .next (s.issue (.copyl st a b c) fun s => s.command (.copyl st a b c) st (s.g a) (s.g b) (s.g c))
def execCopyz (st : Stall) (a b c : Reg) (s : State) : Out :=
  .next (s.issue (.copyz st a b c) fun s => s.command (.copyz st a b c) st (s.g a) (s.g b) (s.g c))
def execCbump (st : Stall) (a b c : Reg) (s : State) : Out :=
  .next (s.issue (.cbump st a b c) fun s => s.command (.cbump st a b c) st (s.g a) (s.g b) (s.g c))

end Sys2Proof.Machine
end

