-- ==== Sys2Proof/Machine/Sha3.lean ====
section
/-! DEFINITION. SHA3-384, which the attestation report takes of the firmware and of the retirement list (spec/16 R340). The manual
names the function and does not define it: it is FIPS 202's (PRESUMED: log entry 17). -/

namespace Sys2Proof.Machine

/-- The 25 lanes of a Keccak state, lane (x, y) at x + 5 y. -/
abbrev Keccak := List W64

def lane (a : Keccak) (i : Nat) : W64 := a.getD i 0
/-- Rotation amounts of ρ by lane. -/
def rhoOffsets : List Nat := [0, 1, 62, 28, 27, 36, 44, 6, 55, 20, 3, 10, 43, 25, 39, 41, 45, 15, 21, 8, 18, 2, 61, 56, 14]
/-- The constants of ι by round. -/
def roundConstants : List W64 :=
  [0x0000000000000001, 0x0000000000008082, 0x800000000000808A, 0x8000000080008000, 0x000000000000808B, 0x0000000080000001,
   0x8000000080008081, 0x8000000000008009, 0x000000000000008A, 0x0000000000000088, 0x0000000080008009, 0x000000008000000A] ++
  [0x000000008000808B, 0x800000000000008B, 0x8000000000008089, 0x8000000000008003, 0x8000000000008002, 0x8000000000000080,
   0x000000000000800A, 0x800000008000000A, 0x8000000080008081, 0x8000000000008080, 0x0000000080000001, 0x8000000080008008]
/-- The 25 lanes, each from its number. -/
def lanes25 (f : Nat → W64) : Keccak := (List.range 25).map f
/-- θ: each lane takes the parities of two columns. -/
def theta (a : Keccak) : Keccak :=
  let c := (List.range 5).map fun x => lane a x ^^^ lane a (x + 5) ^^^ lane a (x + 10) ^^^ lane a (x + 15) ^^^ lane a (x + 20)
  lanes25 fun i => lane a i ^^^ lane c ((i + 4) % 5) ^^^ (lane c ((i + 1) % 5)).rotateLeft 1
/-- ρ and π: lane (x, y) comes from lane (x + 3 y, x), rotated. -/
def rhoPi (a : Keccak) : Keccak :=
  lanes25 fun i =>
    let j := (i % 5 + 3 * (i / 5)) % 5 + 5 * (i % 5)
    (lane a j).rotateLeft (rhoOffsets.getD j 0)
/-- χ: the one step that is not linear, along rows. -/
def chi (a : Keccak) : Keccak :=
  lanes25 fun i => lane a i ^^^ (~~~lane a (i / 5 * 5 + (i + 1) % 5) &&& lane a (i / 5 * 5 + (i + 2) % 5))
/-- A round, with ι in lane 0. -/
def keccakRound (a : Keccak) (rc : W64) : Keccak :=
  match chi (rhoPi (theta a)) with
  | x :: t => (x ^^^ rc) :: t
  | [] => []
def keccakF (a : Keccak) : Keccak := roundConstants.foldl keccakRound a
/-- Bytes as a lane, the first in the low bits, and the bytes of a lane. -/
def laneOf (bs : List Byte) : W64 := bs.foldr (fun b x => (x <<< 8) ||| b.zeroExtend 64) 0
def bytesOfLane (x : W64) : List Byte := (List.range 8).map fun k => x.extractLsb' (8 * k) 8
/-- A block of 104 bytes taken into the state. -/
def absorb (a : Keccak) (block : List Byte) : Keccak :=
  keccakF (lanes25 fun i => if i < 13 then lane a i ^^^ laneOf ((block.drop (8 * i)).take 8) else lane a i)
/-- The blocks of a padded message, `n` of them. -/
def absorbAll (a : Keccak) : Nat → List Byte → Keccak
  | 0, _ => a
  | n + 1, bs => absorbAll (absorb a (bs.take 104)) n (bs.drop 104)
/-- The padding: the two bits of SHA-3 and 1 0* 1. -/
def sha3Padded (bs : List Byte) : List Byte :=
  let k := 104 - bs.length % 104
  bs ++ (if k = 1 then [0x86] else 0x06 :: (List.replicate (k - 2) 0 ++ [0x80]))
/-- SHA3-384: 48 bytes. -/
def sha3 (bs : List Byte) : List Byte :=
  ((absorbAll (List.replicate 25 0) (bs.length / 104 + 1) (sha3Padded bs)).take 6).flatMap bytesOfLane

end Sys2Proof.Machine
end

