-- ==== Sys2Proof/Machine/Lineage.lean ====
section
/-! DEFINITION. The lineage instructions of major 0x3C (spec/03 R57–R63; spec/12 R255–R260) and the reclamation ring
(spec/16 R333–R335). -/

namespace Sys2Proof.Machine

/-! ### The reclamation ring (R333, R334) -/

/-- The entry of a record freed (KIND 0) or of a range released (KIND 1) is to be written (DEDUCED: log entry 39). -/
def State.reclaim (s : State) (asid : Asid) (kind : BitVec 2) (h : Nat) (n : Node) : State :=
  s.after s.lat.home (.reclamationEntryWrite asid kind (BitVec.ofNat 24 h) ⟨BitVec.ofNat 64 n.dbase, BitVec.ofNat 64 n.dsize⟩ s.now)
/-- A resolution that has not completed took its snapshot before an event of cycle `since`, or holds an old copy of the range in its
address space (R335, log entry 84). -/
def State.resolving (s : State) (asid : Asid) (dbase dsize : W64) (since : Nat) : Bool :=
  s.cmds.any fun c => c.phase != .waiting && (match c.instr with | .copyl _ _ _ _ => true | _ => false) &&
    (c.start ≤ since || c.asid == asid && c.chain.any fun e => e.2.dbase == dbase.toNat && e.2.dsize == dsize.toNat)
/-- An entry that has to wait waits in front of every later one of its ring, so that cascade order stays (R334). -/
def State.holdEntry (s : State) (asid : Asid) (e : Ev) : State :=
  let later := fun (q : Ev) => match q with | .reclamationEntryWrite a _ _ _ _ => a == asid | _ => false
  (e :: (s.queue.map (·.2)).filter later).foldl (fun s e => s.after 1 e) { s with queue := s.queue.filter fun q => !later q.2 }
/-- OVF rises by one where an entry is lost. -/
def State.loseEntry (s : State) (asid : Asid) (ring : VA) : State :=
  match s.devGet asid (ring + 16) 8 with
  | some v => (s.devPut asid (ring + 16) 8 (v + 1)).getD s
  | none => s
/-- Write words at ascending addresses, none where one of them faults. -/
def State.devPutAll (s : State) (asid : Asid) (va : VA) : List W64 → Option State
  | [] => some s
  | w :: ws => (s.devPut asid va 8 w).bind fun s1 => s1.devPutAll asid (va + 8) ws
/-- The entry is written once no resolution of before is left (R334, R335). -/
def execReclamationEntryWrite (asid : Asid) (kind : BitVec 2) (handle : BitVec 24) (range : DRange) (since : Nat) (s : State) : Out :=
  .next (
    if s.resolving asid range.base range.size since then s.holdEntry asid (.reclamationEntryWrite asid kind handle range since)
    else match s.recPA asid 0 with
    | none => s
    | some pa =>
      let ring := addr (s.phys64 pa)
      let log := ((s.phys64 (pa + 8)).extractLsb' 0 4).toNat
      if s.phys64 pa = 0 || log < 4 then s
      else match s.devGet asid ring 8, s.devGet asid (ring + 8) 8 with
        | some prod, some cons =>
          let s := s.devSeen asid ring
          if (prod - cons).toNat = 2 ^ log then s.loseEntry asid ring
          else
            let at' := ring + BitVec.ofNat 56 (64 + 32 * (prod.toNat % 2 ^ log))
            match s.devPutAll asid at' [kind.zeroExtend 64 <<< 62 ||| handle.zeroExtend 64, range.base, range.size, prod] with
            | some s1 => (s1.devPut asid ring 8 (prod + 1)).getD (s.loseEntry asid ring)
            | none => s.loseEntry asid ring
        | _, _ => s.loseEntry asid ring)

/-! ### Children lost, the cascade (R62) -/

/-- A record loses a child; one that is RETIRED without children becomes FREE, and so on upward. -/
def State.loseChild (s : State) (asid : Asid) : Nat → Nat → State
  | 0, _ => s
  | fuel + 1, h =>
    if h = 0 then s
    else
      let n := s.node asid h
      if 1 < n.kids then s.setNode asid h { n with kids := n.kids - 1 }
      else if n.retired then
        ((s.setNode asid h Node.free).reclaim asid 0 h n).loseChild asid fuel n.parent
      else s.setNode asid h { n with kids := 0 }

/-- The first record page that the cascade from `h` would meet and that does not translate (R256). -/
def State.cascadeGap (s : State) (asid : Asid) : Nat → Nat → Option VA
  | 0, _ => none
  | fuel + 1, h =>
    if h = 0 then none
    else if (s.recPA asid h).isNone then some (s.recVA asid h)
    else
      let n := s.node asid h
      if n.kids ≤ 1 && n.retired then s.cascadeGap asid fuel n.parent else none
/-- The first page of the provenance table that does not translate (R256). -/
def State.tableGap (s : State) (asid : Asid) : Option VA :=
  (List.range (ceilDiv (s.nrec asid) 1024)).findSome? fun k =>
    if (s.recPA asid (1024 * k)).isNone then some (s.recVA asid (1024 * k)) else none

/-! ### Faults and descriptors (R256, R257) -/

def State.lineageFault (s : State) (code : Nat) : State :=
  s.trap ⟨if code = 11 then 0x0E else 0x0F, 0, BitVec.ofNat 64 code⟩
/-- The first code whose condition holds. -/
def firstCode : List (Bool × Nat) → Option Nat
  | [] => none
  | (b, c) :: t => if b then some c else firstCode t
def handleOf (x : W64) : Nat := (x.extractLsb' 0 32).toNat
/-- Handles checked under R51, their records' pages translated, for a write or a read (R256). -/
def State.withHandles (s : State) (write : Bool) (hs : List Nat) (body : State → State) : State :=
  if hs.any fun h => !s.handleOk s.asid h then s.lineageFault 1
  else match hs.find? fun h => (s.walk s.asid (s.recVA s.asid h)).isNone with
    | some h => s.parkPage (s.recVA s.asid h) write
    | none => body s
/-- A page that does not translate parks the context before anything changes (R256). -/
def State.orPage (s : State) (gap : Option VA) (write : Bool) (body : State → State) : State :=
  match gap with
  | some va => s.parkPage va write
  | none => body s
/-- The eight words of a node descriptor (R257). -/
def State.withDescriptor (s : State) (va : VA) (body : State → (Nat → W64) → State) : State :=
  s.withPlace .read va 64 fun _ =>
    let s1 := s.settle s.act.1 s.act.2
    if s1.held s.act.1 s.act.2 then s1.parkDrain
    else
      let (ws, s2) := (List.range 8).foldl (fun (a : List W64 × State) k =>
        let va' := va + BitVec.ofNat 56 (8 * k)
        let (x, s') := a.2.readPlace a.2.act.1 a.2.act.2 false (a.2.place a.2.act.1 .read va' 8) va' 8
        (a.1 ++ [x], s')) ([], s1)
      body s2 fun k => ws.getD k 0
/-- Fields of a descriptor that are reserved or out of range, those of both instructions (code 4). -/
def descriptorBad (w : Nat → W64) : Bool :=
  (w 1).extractLsb' 48 16 ≠ 0 || (w 1).extractLsb' 28 4 ≠ 0 || (w 1).extractLsb' 8 16 ≠ 0 || (w 1).extractLsb' 2 2 ≠ 0 ||
    (w 4).extractLsb' 56 8 ≠ 0 || (w 5).extractLsb' 40 24 ≠ 0
/-- Extents of a new root that are out of range: unused ones are 1 (code 4). -/
def Node.dimsBad (n : Node) : Bool :=
  (List.range 4).any fun k =>
    let d := n.dims.toList.getD k 1
    d = 0 || 2 ^ 31 ≤ d || (n.ndim < k && d != 1)
/-- An address of an aperture, which is never translated (R95, R238). -/
def untranslated (va : VA) : Bool := inLocal va || inRope va
/-- The whole range lies in VITRINE pages below their PTAIL (code 5) (DEDUCED: log entry 40). -/
def State.deltaIn (s : State) (asid : Asid) (va : VA) (n : Nat) : Bool :=
  (pagesOf va n).all fun p => !untranslated p.1 &&
    (match s.walk asid p.1 with | some e => e.cls == .vitrine | none => false) &&
    match s.vrec asid p.1 with
    | some r => r.state != .recalling && p.1.toNat % 65536 + p.2 ≤ r.ptail
    | none => false
/-- Every page that overlaps the range is sealed (R57). -/
def State.deltaSealed (s : State) (asid : Asid) (va : VA) (n : Nat) : Bool :=
  (pagesOf va n).all fun p => match s.vrec asid p.1 with | some r => r.state == .sealed | none => false
def strictlyAscending : List Nat → Bool
  | a :: b :: t => a < b && strictlyAscending (b :: t)
  | _ => true
/-- Codes 5 to 7 of a new delta. -/
def State.deltaCode (s : State) (asid : Asid) (n : Node) : Option Nat :=
  firstCode [(n.dbase % 16 != 0 || !s.deltaIn asid (BitVec.ofNat 56 n.dbase) n.dsize, 5), (n.dsize < n.minSize, 6),
    (2 ^ 32 < n.elems || 2 ^ 31 ≤ n.dims.get 0, 7)]
/-- Code 8: the indices of a SPARSE delta. -/
def State.indexBad (s : State) (asid : Asid) (n : Node) : Bool :=
  let idx := groupsLE 4 n.count (s.homeBytes asid (4 * n.count) (BitVec.ofNat 56 n.dbase))
  n.enc = 1 && !(strictlyAscending idx && idx.all fun i => i < n.elems)
/-- What reading the indices of a SPARSE delta meets. -/
def State.indexStop (s : State) (asid : Asid) (n : Node) : Option (Trap ⊕ (VA × Bool)) :=
  if n.enc = 1 then s.rangeStop false .read asid (BitVec.ofNat 56 n.dbase) (4 * n.count) else none
/-- The pages of a range that do not translate park the context; an aperture is never translated (R95, R256). -/
def State.withDelta (s : State) (n : Node) (body : State → State) : State :=
  match (pagesOf (BitVec.ofNat 56 n.dbase) n.dsize).find? fun p => !untranslated p.1 && (s.walk s.asid p.1).isNone with
  | some p => s.parkPage p.1 false
  | none => body s
/-- A lineage instruction completes. -/
def State.lineageDone (s : State) (st : Stall) : State := (s.done st).parkHome s.lat.lineage

/-- An access that reading deltas meets is taken by the acting context. -/
def State.orStop (s : State) (o : Option (Trap ⊕ (VA × Bool))) (body : State → State) : State :=
  match o with
  | some (.inl t) => s.trap t
  | some (.inr (va, w)) => s.parkPage va w
  | none => body s
/-! ### The instructions (R255–R260) -/

/-- The handle is checked before the descriptor's place (DEDUCED: log entry 79). -/
def execLroot (st : Stall) (d a : Reg) (s : State) : Out :=
  .next (s.issue (.lroot st d a) fun s =>
    let va := addr (s.g a)
    let h := handleOf (s.g d)
    s.aligned va 64 fun s => s.withHandles true [h] fun s => s.withDescriptor va fun s w =>
      let n := { Node.ofWords w with parent := 0, kids := 0, sealed := false, depth := 0, state := 1 }
      let fmtBad := n.fmt = 0 || 10 < n.fmt || (n.blog != 0 && !n.format.scalable)
      if descriptorBad w || n.enc != 0 || n.rank != 0 || n.count != 0 || (w 1).extractLsb' 0 8 ≠ 0 || fmtBad || n.dimsBad then
        s.lineageFault 4
      else s.withDelta n fun s =>
        match s.deltaCode s.asid n with
        | some c => s.lineageFault c
        | none =>
          if (s.node s.asid h).state != 0 then s.lineageFault 2 else (s.setNode s.asid h n).lineageDone st)
/-- The child of a FORK: shape of the parent, delta of the descriptor (R56, R257). -/
def childOf (p : Nat) (np : Node) (w : Nat → W64) : Node :=
  let d := Node.ofWords w
  { np with parent := p, kids := 0, rank := d.rank, enc := d.enc, sealed := false, depth := np.depth + 1, state := 1,
            dims := if d.enc = 2 then np.dims.set 0 (np.dims.get 0 + d.count) else np.dims,
            dbase := d.dbase, dsize := d.dsize, count := d.count }
/-- Fields that FORK does not allow (code 4, R257). -/
def forkBad (w : Nat → W64) : Bool :=
  let d := Node.ofWords w
  descriptorBad w || d.enc = 0 || (if d.enc = 3 then d.rank = 0 || 64 < d.rank || d.count != 0 else d.rank != 0 || d.count = 0) ||
    (d.enc = 1 && 2 ^ 24 ≤ d.count)
/-- As `LROOT`, its checks in the same order (DEDUCED: log entry 79). SEALED that the fork itself finds is kept where the destination
step faults, and is not set where an earlier check does (R57, R62, DEDUCED: log entry 88). The steps of R63 are one moment at issue
(DESIGN CHOICE: log entry 90). -/
def execFork (st : Stall) (d a b : Reg) (s : State) : Out :=
  .next (s.issue (.fork st d a b) fun s =>
    let va := addr (s.g b)
    let c := handleOf (s.g d)
    let p := handleOf (s.g a)
    s.aligned va 64 fun s => s.withHandles true [c, p] fun s => s.withDescriptor va fun s w =>
      if forkBad w then s.lineageFault 4
      else
        let np := s.node s.asid p
        let n := childOf p np w
        s.withDelta n fun s =>
          let sealed := np.sealed || s.deltaSealed s.asid (BitVec.ofNat 56 np.dbase) np.dsize
          match (firstCode [(!np.live, 2), (!sealed, 3), (7 ≤ np.depth, 11)]).orElse fun _ => s.deltaCode s.asid n with
          | some code => s.lineageFault code
          | none => s.orStop (s.indexStop s.asid n) fun s =>
            if s.indexBad s.asid n then s.lineageFault 8
            else
            let s1 := s.setNode s.asid p { np with sealed := true, kids := np.kids + 1 }
            if (s1.node s.asid c).state != 0 then (s1.loseChild s.asid 8 p).lineageFault 2
            else (s1.setNode s.asid c n).lineageDone st)
def execLdrop (st : Stall) (a : Reg) (s : State) : Out :=
  .next (s.issue (.ldrop st a) fun s =>
    let h := handleOf (s.g a)
    s.withHandles true [h] fun s =>
      let n := s.node s.asid h
      if !n.live then s.lineageFault 2
      else if n.kids = 0 then s.orPage (s.cascadeGap s.asid 8 n.parent) true fun s =>
        (((s.setNode s.asid h Node.free).reclaim s.asid 0 h n).loseChild s.asid 8 n.parent).lineageDone st
      else (s.setNode s.asid h { n with state := 2 }).lineageDone st)
def execLinfo (st : Stall) (d a b : Reg) (s : State) : Out :=
  .next (s.issue (.linfo st d a b) fun s =>
    let h := handleOf (s.g a)
    s.withHandles false [h] fun s =>
      let x := match s.recPA s.asid h with | some pa => s.phys64 (pa + 8 * ((s.g b).extractLsb' 0 3).toNat) | none => 0
      (s.gset d x).homeDone st)
/-- What `LDL` delivers of an element (R260). -/
def ldlValue (n : Node) (b : Blk) (k : Nat) : W64 :=
  let c := b.codes.getD k 0
  if n.format.isInt && n.blog = 0 then
    (match n.format.dec c with
     | .fin m e => BitVec.ofInt 64 (m * 2 ^ e.toNat)
     | .zero _ | .inf _ | .nan _ => 0)
  else (ne32 (elemVal n.format n.blog b.slot c)).zeroExtend 64
def execLdl (st : Stall) (d a b : Reg) (s : State) : Out :=
  .next (s.issue (.ldl st d a b) fun s =>
    let h := handleOf (s.g a)
    let i := (s.g b).toNat
    let w := 16 * s.act.1 + s.act.2
    s.withHandles false [h] fun s => s.orPage (s.chainGap (s.seenNode w s.asid) s.asid 8 h) false fun s =>
      let chain := s.snapshot w s.asid h
      let n := leafOf chain
      if !n.live then s.lineageFault 2
      else if n.elems ≤ i then s.lineageFault 10
      else
        s.orStop (s.chainStop false s.asid chain) fun s =>
          match sliceBlks i 1 (s.resolve s.asid chain) with
          | blk :: _ => (s.gset d (ldlValue n blk 0)).lineageDone st
          | [] => s.lineageFault 10)

/-! ### FLATTEN and REBASE (R59–R61, R259) -/

/-- A new delta: its encoding's fields, its bytes, its parent. -/
structure NewDelta where
  enc : Nat
  rank : Nat
  count : Nat
  parent : Nat
  bytes : List Byte
  deriving DecidableEq, Repr

/-- Resolved elements laid out as one stored range (R54, R60): those of a tensor of one dimension are one run, in which full blocks
before any short one stay as they are (DESIGN CHOICE: log entry 85). -/
def Node.rangeOf (n : Node) (v : List Blk) : List Byte :=
  blockBytesOf n.format n.blog (if n.ndim = 0 then regroup n.format n.blog v else v)
/-- The DENSE layout of resolved elements (R60). -/
def Node.dense (n : Node) (v : List Blk) : NewDelta := ⟨0, 0, 0, 0, n.rangeOf v⟩
/-- The exact difference as a SPARSE value, none where it is not exact in FP32 or INT32; an infinite one is not (R60, DESIGN CHOICE:
log entry 89). -/
def sparseValue (f : Fmt) (x y : FVal) : Option Nat :=
  let d := (addExact .rne x y.negate).1
  if f.isInt then
    match d with
    | .fin m e =>
      let v := if 0 ≤ e then m * 2 ^ e.toNat else m / 2 ^ (-e).toNat
      if (0 ≤ e || m % 2 ^ (-e).toNat = 0) && clampInt 32 v = v then some (codeInt 32 v) else none
    | .zero _ | .inf _ | .nan _ => none
  else
    let c := ne32 d
    match d with
    | .fin _ _ => if (f32 c).cmp d = some 0 then some c.toNat else none
    | .zero _ | .inf _ | .nan _ => none
/-- Entries of a rebased SPARSE delta: none where one is not exact (R60). -/
def sparseEntries (f : Fmt) : Nat → List FVal → List FVal → Option (List (Nat × Nat))
  | i, x :: xs, y :: ys =>
    let same := x.cmp y = some 0 || (x.isNan && y.isNan)
    (sparseEntries f (i + 1) xs ys).bind fun r => if same then some r else (sparseValue f x y).map fun c => (i, c) :: r
  | _, _, _ => some []
def padded16 (bs : List Byte) : List Byte := fitLen (16 * ceilDiv bs.length 16) bs
/-- The delta that `REBASE` tries over ancestor `a` (R60). -/
def State.tryRebase (s : State) (asid : Asid) (chain : List (Nat × Node)) (a : Nat) (n : Node) (va vn : List Blk) : Option NewDelta :=
  let below := ((chain.dropWhile fun e => e.1 != a).drop 1).map (·.2)
  let skipped := below.dropLast
  let na := s.node asid a
  match n.enc with
  | 1 =>
    (sparseEntries n.format 0 (valsOf n.format n.blog vn) (valsOf n.format n.blog va)).bind fun es =>
      if 2 ^ 24 ≤ es.length then none
      else some ⟨1, 0, es.length, a, if es.isEmpty then [] else
        padded16 (es.flatMap fun e => leBytes 4 e.1) ++ es.flatMap fun e => leBytes 4 e.2⟩
  | 2 =>
    if !(skipped.all fun m => m.enc == 2) then none
    else some ⟨2, 0, n.dims.get 0 - na.dims.get 0, a, n.rangeOf (vn.drop va.length)⟩
  | 3 =>
    let rank := (below.map Node.rank).foldl (· + ·) 0
    if !(skipped.all fun m => m.enc == 3) || 64 < rank then none
    else
      let fs := below.map fun m => (m.rank, lowRankCodes n.rows m.rank n.cols (s.delta asid m))
      let u := (List.range n.rows).flatMap fun i => fs.flatMap fun f => (f.2.1.drop (i * f.1)).take f.1
      let v := fs.flatMap fun f => f.2.2
      some ⟨3, rank, 0, a, padded16 (u.flatMap (leBytes 2)) ++ v.flatMap (leBytes 2)⟩
  | _ => none
/-- A node with its new delta. -/
def Node.rewritten (n : Node) (d : NewDelta) (depth base : Nat) : Node :=
  { n with parent := d.parent, enc := d.enc, rank := d.rank, count := d.count, depth := depth, sealed := false,
           dbase := base, dsize := d.bytes.length }
/-- A new delta gives the resolved elements `vn` over those of the new parent: slots and codes, or where the rows of an APPEND are
grouped anew the values (R60, DESIGN CHOICE: log entry 85). -/
def Node.gives (n : Node) (d : NewDelta) (va vn : List Blk) : Bool :=
  let v := (n.rewritten d 0 0).level d.bytes va
  v = vn || (d.enc = 2 && sameVals (valsOf n.format n.blog v) (valsOf n.format n.blog vn))
/-- The delta of `REBASE`, checked to give the same values bit for bit (R59, R60); else that of `FLATTEN` (DEDUCED: log entry 42). -/
def State.newDelta (s : State) (asid : Asid) (chain : List (Nat × Node)) (target : Option Nat) (n : Node) : NewDelta :=
  let vn := s.resolve asid chain
  match target with
  | none => n.dense vn
  | some a =>
    let va := s.resolve asid (s.chain asid a)
    match s.tryRebase asid chain a n va vn with
    | some d => if n.gives d va vn then d else n.dense vn
    | none => n.dense vn
/-- Descendants of a node: the records from `k − 1` down to 1 whose chain holds it (R61). -/
def State.descendants (s : State) (asid : Asid) (h : Nat) : Nat → List Nat
  | 0 => []
  | k + 1 =>
    let up := (s.chain asid k).map (·.1)
    if k != 0 && k != h && (s.node asid k).state != 0 && up.contains h then k :: s.descendants asid h k
    else s.descendants asid h k
/-- The claims of a run of pages, in ascending order (R259, step 3): the first page that does not allow its claim, with
the pages before it filled with zeros. A claim is a multiple of 8 bytes (R250), filled up with zeros (DEDUCED: log entry 69). -/
def State.claimRun (s : State) (asid : Asid) : List ((VA × Nat) × List Byte) → State × Option VA
  | [] => (s, none)
  | (p, data) :: ps =>
    match s.vrec asid p.1, s.walk asid p.1 with
    | some r, some e =>
      if r.state != .open' || r.rtail != 0 then (s, some p.1)
      else
        let n := (p.2 + 7) / 8 * 8
        let s1 := { s with mem := cellsPut s.mem (e.pa p.1) (data ++ List.replicate (n - p.2) 0) }
        (s1.setVrec asid p.1 { r with rtail := n, ptail := n }).claimRun asid ps
    | _, _ => (s, some p.1)
/-- The pages of a run with the bytes each receives. -/
def runPages (base : VA) (bs : List Byte) : List ((VA × Nat) × List Byte) :=
  (List.zip (pagesOf base bs.length) (pieces 65536 (bs.length / 65536 + 1) bs))
/-- `FLATTEN` and `REBASE` (R59–R61, R259): every record is rewritten in one moment, at issue (DESIGN CHOICE: log entry 90). -/
def State.rewriteOp (s : State) (st : Stall) (d : Reg) (h : Nat) (target : Option Nat) : State :=
  let base := addr (s.g d)
  let asid := s.asid
  s.aligned base 65536 fun s => s.withHandles true (h :: target.toList) fun s =>
    let n := s.node asid h
    if !n.live then s.lineageFault 2
    else s.orPage (s.chainGap (s.node asid) asid 8 h) true fun s =>
    let chain := s.chain asid h
    let above := (chain.map (·.1)).filter fun x => x != h
    if (match target with | some a => !above.contains a || a == n.parent | none => false) then s.lineageFault 9
    else s.orPage (s.tableGap asid) true fun s => s.orStop (s.chainStop false asid chain) fun s =>
      let dl := s.newDelta asid chain target n
      let depth := if dl.parent = 0 then 0 else (s.node asid dl.parent).depth + 1
      let desc := s.descendants asid h (s.nrec asid)
      if desc.any fun k => (s.node asid k).depth + depth < n.depth || 7 < (s.node asid k).depth + depth - n.depth then s.lineageFault 11
      else
        let pages := runPages base dl.bytes
        match pages.find? fun p => !untranslated p.1.1 && (s.walk asid p.1.1).isNone with
        | some p => s.parkPage p.1.1 true
        | none =>
          match pages.find? fun p => untranslated p.1.1 || match s.walk asid p.1.1 with
              | some e => e.malformed || !s.physOk (e.pa p.1.1) || e.cls ≠ .vitrine || !e.wr
              | none => true with
          | some p => s.pageTrap 0x06 p.1.1
          | none =>
            match s.claimRun asid pages with
            | (_, some va) =>
              let ok := pages.takeWhile fun p => p.1.1 != va
              let zeros := ok.map fun p => (p.1, List.replicate p.1.2 (0 : Byte))
              ((s.claimRun asid zeros).1).pageTrap 0x10 va
            | (s1, none) =>
              let s2 := s1.setNode asid h (n.rewritten dl depth base.toNat)
              let s3 := if dl.parent = 0 then s2
                else s2.setNode asid dl.parent { s2.node asid dl.parent with kids := (s2.node asid dl.parent).kids + 1 }
              let s4 := (s3.reclaim asid 1 h n).loseChild asid 8 n.parent
              let s5 := desc.foldl (fun s k => s.setNode asid k { s.node asid k with depth := (s.node asid k).depth + depth - n.depth }) s4
              (s5.gset d (BitVec.ofNat 64 dl.bytes.length)).lineageDone st
def execFlatten (st : Stall) (d a : Reg) (s : State) : Out :=
  .next (s.issue (.flatten st d a) fun s => s.rewriteOp st d (handleOf (s.g a)) none)
/-- (DEDUCED: log entry 35) -/
def execRebase (st : Stall) (d a b : Reg) (s : State) : Out :=
  .next (s.issue (.rebase st d a b) fun s => s.rewriteOp st d (handleOf (s.g a)) (some (handleOf (s.g b))))

end Sys2Proof.Machine
end

