-- ==== Sys2Proof/Machine/Fetch.lean ====
section
/-! DEFINITION. Which word issues next (spec/06 R113–R117; spec/08 R129, R130; spec/15 R308): the ready contexts of
a cycle, and the clock. -/

namespace Sys2Proof.Machine

/-- A word of the resident handler region (R117). -/
def State.handlerWord (s : State) (va : VA) : W32 := BitVec.ofNat 32 (cellsLE s.regs.himage (va.toNat - resLo) 4)
/-- The fetched word at a context's PC, none where it is not fetched yet or cannot be fetched (R117). -/
def State.fetched (s : State) (n k : Nat) : Option W32 :=
  let c := s.ctx n k
  if c.hm && inHandler c.pc then
    (if (s.core n).badWords.contains ((c.pc.toNat - resLo) / 8) then none else some (s.handlerWord c.pc))
  else if inLocal c.pc || inRope c.pc then none
  else match Table.find? (byteKey (s.core n).asid c.pc) (s.core n).icache with
    | some w => some w
    | none => Table.find? c.pc.toNat c.fbuf

/-- The word that a context waits inside: it has issued, so it is not fetched again (R116, R130). -/
def Ctx.waiting (c : Ctx) : Option Instr :=
  match c.park with
  | .drain | .cond _ | .belay _ _ _ => c.word
  | .no | .home _ | .pageFault _ _ _ | .retry _ _ => none
/-- What a context's turn is. -/
inductive Turn
  | word (i : Instr) | bad (w : W32) | fetch | imprecise
  deriving DecidableEq, Repr

/-- The context may use the issue slot of this cycle, its own word apart (R130, R308, R310, R316). -/
def State.mayIssue (s : State) (n k : Nat) : Bool :=
  let core := s.core n
  let c := core.ctx k
  (c.live || c.hm) && core.halted.isNone && core.slotAt ≤ s.now && c.readyAt ≤ s.now && !s.held n k &&
    (c.hm || (core.failing.isNone && !core.inHM && (!core.preempt || c.answer.isSome))) &&
    (match c.park with | .pageFault _ _ _ => false | .retry _ _ => false | .home t => t ≤ s.now | _ => true)
/-- The turn of a context in this cycle, none where it is not ready. -/
def State.turnOf (s : State) (n k : Nat) : Option Turn :=
  if !s.mayIssue n k then none
  else
    let c := s.ctx n k
    if c.faulted && !c.midway then some .imprecise
    else match c.waiting with
    | some i => if s.unparked n k i && !s.interlocked n k i then some (.word i) else none
    | none => match s.fetched n k with
      | none => some .fetch
      | some w => match decode w with
        | none => some (.bad w)
        | some i => if s.unparked n k i && !s.interlocked n k i then some (.word i) else none

/-- Round robin: context indices from the one after `last` (R129). -/
def rotated (last : Nat) : List Nat := (List.range 11).map fun j => (last + 1 + j) % 11
/-- The turn a core takes in this cycle. -/
def State.corePick (s : State) (n : Nat) : Option (Nat × Nat × Turn) :=
  (rotated (s.core n).last).findSome? fun k => (s.turnOf n k).map fun t => (n, k, t)
/-- The next turn of this cycle: cores in ascending order. -/
def State.pick (s : State) : Option (Nat × Nat × Turn) := s.cores.findSome? fun e => s.corePick e.1
/-- The next cycle begins: the rewrites of `RENEW` of this cycle are made, the counter advances and due results land (R133, R136, R244). -/
def State.nextCycle (s : State) : State :=
  State.unaskGone { s with
    now := s.now + 1,
    cores := s.cores.map fun e =>
      (e.1, { (e.2.renewed s.now s.tick) with ctxs := e.2.ctxs.map fun c => (c.1, c.2.landAll (s.now + 1)) }) }

/-- The address where a placed word stands. -/
def placeVA : VA := 0x10000
/-- A word placed for the next step (DESIGN CHOICE: log entry 3): core 0 has a task whose lead stands at it, the word is in the
instruction cache, no event is due, and core 0 is not held up. -/
def State.placeWord (s : State) (w : W32) : State :=
  let core := s.core 0
  let slot := { core.slot 0 with v := true, bound := true, ctxloc := 0 }
  let lead := { core.ctx 0 with
    live := true, pc := placeVA, park := .no, readyAt := 0, fault := none, pend := [], answer := none }
  let quiet := (Table.put 0 lead core.ctxs).map fun e => (e.1, { e.2 with xstat := e.2.xstat &&& 0x4000000000000000 })
  let c0 := { core with
    slots := Table.put 0 slot core.slots, on := some 0, failing := none, halted := none, preempt := false, last := 10,
    slotAt := 0, icache := Table.put (byteKey slot.asid placeVA) w core.icache, ctxs := quiet }
  { s with cores := Table.put 0 c0 s.cores, act := (0, 0),
           flights := s.flights.filter fun f => !(f.core == 0 && f.ctx == 0),
           queue := s.queue.filter fun e => s.now < e.1 }

end Sys2Proof.Machine
end

