-- ==== Sys2Proof/Machine/Sync.lean ====
section
/-! DEFINITION. Atomics, fences, belays, events, completion waits, rope queues, futures and messages (spec/14
R282–R300). -/

namespace Sys2Proof.Machine

/-! ### Atomics and fences (R283–R286) -/

def State.atomOp (s : State) (i : Instr) (st : Stall) (op : AOp) (ty : ATy) (ret : Option Reg) (a b : Reg) : State :=
  s.deferredPoison fun s =>
    let ea := addr (s.g a)
    let size := ty.bits / 8
    let cmp := match ret with | some d => s.g d | none => 0
    let flight := fun (s : State) (d : Nat) =>
      let s1 := (s.fly (.atomic op ty cmp ret) ⟨ea, size, s.g b, 0⟩ 0 (wordOf i) d .atomicPerformed).done st
      if ret.isNone then s1.parkHome s.lat.home else s1
    s.aligned ea size fun s =>
      match s.place s.act.1 .atomic ea size with
      | .trap t =>
        if ret.isSome || t.cause ≠ 0x13 then s.trap t
        else if inLocal ea then (s.deferAt s.act.1 s.act.2 ea).done st
        else flight s s.lat.load
      | .page va w => s.parkPage va w
      | .scratch o => s.afterNet o size <|
        let (old, s1) := s.atomicScratch s.act.1 o op ty (s.g b) cmp
        (match ret with | some d => s1.gset d (ty.result old) | none => s1).done st
      | .memory e pa => flight (s.keepXlat s.asid ea e) (s.memLat pa)
      | .guard _ => s.trap ⟨0x06, ofVA ea, 0⟩
      | .rope _ _ => s.trap ⟨0x06, ofVA ea, 0⟩
def execAtom (st : Stall) (op : AOp) (t : ATy) (d a b : Reg) (s : State) : Out :=
  .next (s.issue (.atom st op t d a b) fun s => s.atomOp (.atom st op t d a b) st op t (some d) a b)
def execAtomnr (st : Stall) (op : AOp) (t : ATy) (a b : Reg) (s : State) : Out :=
  .next (s.issue (.atomnr st op t a b) fun s => s.atomOp (.atomnr st op t a b) st op t none a b)
def execFenceAcq (st : Stall) (sc : Scope) (s : State) : Out :=
  .next (s.issue (.fenceAcq st sc) fun s => s.acquiring sc fun s => s.done st)
def execFenceRel (st : Stall) (sc : Scope) (s : State) : Out :=
  .next (s.issue (.fenceRel st sc) fun s => s.releasing sc fun s => s.done st)
def execFenceAr (st : Stall) (sc : Scope) (s : State) : Out :=
  .next (s.issue (.fenceAr st sc) fun s => s.releasing sc fun s => (s.acquire s.act.1 s.act.2 sc).done st)

/-! ### Belays (R287–R290) -/

/-- The top level of a belay's scope: 0 rope, 1 die, 2 package. -/
def topLevel (sc : Scope) : Nat := match sc with | .core | .rope => 0 | .die => 1 | .device | .system => 2
def narr (w : W64) : Nat := (w.extractLsb' 0 7).toNat
def nrope (w : W64) : Nat := (w.extractLsb' 8 6).toNat
def ndie (w : W64) : Nat := (w.extractLsb' 16 3).toNat
/-- A word in range for its identifier (R287). -/
def belayIdOk (sc : Scope) (w : W64) : Bool := belayId w < (if topLevel sc = 0 then 32 else 16)
/-- A belay word that R287 accepts. -/
def belayOk (sc : Scope) (w : W64) : Bool :=
  w.extractLsb' 30 34 = 0 && w.extractLsb' 19 5 = 0 && w.extractLsb' 14 2 = 0 && w.extractLsb' 7 1 = 0 && belayIdOk sc w &&
    (topLevel sc = 2 || ndie w = 0) && (topLevel sc != 0 || nrope w = 0) && 1 ≤ narr w && narr w ≤ 88
/-- EXPECT that a word names at a level (R288) (DEDUCED: log entry 21). -/
def expectOf (level : Nat) (w : W64) : Nat := if level = 0 then narr w else if level = 1 then nrope w + 1 else ndie w + 1
/-- The parent of a node. -/
def parentOf (k : BKey) : BKey := if k.level = 0 then { k with level := 1, node := k.node / 48 } else { k with level := 2, node := 0 }
/-- A release at a node: GEN advances, and it travels to the children that arrived in that count (R288). -/
def State.belayRelease (s : State) (k : BKey) : State :=
  let c := s.belayAt k
  let s1 := s.setBelay k { c with gen := c.gen + 1, sent := c.sent.drop 1 }
  if k.level = 0 then s1
  else (c.sent.headD []).foldl (fun s ch => s.after s.lat.belay (.belayRelease { k with level := k.level - 1, node := ch })) s1
/-- An arrival at a node (R288). -/
def State.arrive (s : State) (k : BKey) (expect child : Nat) (w : W64) : State :=
  let c := s.belayAt k
  let e := if c.count = 0 then expect else c.expect
  let who := child :: c.who
  if c.count + 1 < e then s.setBelay k { c with count := c.count + 1, expect := e, who := who }
  else
    let s1 := s.setBelay k { c with count := 0, expect := e, who := [], sent := c.sent ++ [who] }
    if k.level = topLevel k.scope then s1.belayRelease k
    else
      let p := parentOf k
      s1.after s1.lat.belay (.belayArrival p (expectOf p.level w) k.node w)
def execBelayArrival (node : BKey) (expect child : Nat) (word : W64) (s : State) : Out := .next (s.arrive node expect child word)
def execBelayRelease (node : BKey) (s : State) : Out := .next (s.belayRelease node)

/-- The guard fault at a belay or `TDONE` (R96). -/
def State.guardFree (s : State) (body : State → State) : State :=
  if s.myCore.guardrec.getLsbD 63 then s.deferred ⟨0x09, guardAddr s.myCore.guardrec, 0⟩ else body s
/-- The same, looked at as the word first issues and not again after a wait (R96, R289). -/
def State.guardOnce (s : State) (body : State → State) : State :=
  match s.me.park with
  | .drain => body s
  | .cond _ => body s
  | _ => s.guardFree body
/-- The node of the acting core's rope. -/
def State.ropeNode (s : State) (sc : Scope) (w : W64) : BKey := ⟨0, ropeOf s.act.1, sc, belayId w⟩
/-- The context as a child of its rope's node, with the bind of its task (R290). -/
def State.arriver (s : State) : Nat := s.myCore.task.bind * 32768 + s.act.1 * 16 + s.act.2
/-- `BELAY` and `BARR` up to the arrival: the word, the guard, the wait for commands, the release. -/
def State.beforeArrival (s : State) (i : Instr) (sc : Scope) (w : W64) (body : State → State) : State :=
  if !belayOk sc w then s.illegal (wordOf i)
  else s.guardOnce fun s =>
    if !(s.unstarted s.act.1 s.act.2).isEmpty then s.parkDrain else s.releasing sc body
/-- The end of a word that records a cairn when no command waits. -/
def State.cairnDone (s : State) (st : Stall) : State :=
  (s.onMe fun c => c.recordCairn (s.holdsLease s.act.1) (c.pc + 4)).done st
def execBelay (st : Stall) (sc : Scope) (a : Reg) (s : State) : Out :=
  .next (s.issue (.belay st sc a) fun s =>
    match s.me.park with
    | .belay _ _ _ => s.acquiring sc fun s => s.cairnDone st
    | _ =>
      let w := s.g a
      s.beforeArrival (.belay st sc a) sc w fun s =>
        let g := s.genOf s.act.1 sc (belayId w)
        (s.arrive (s.ropeNode sc w) (narr w) s.arriver w).onMe fun c => { c with park := .belay sc (belayId w) g })
def execBarr (st : Stall) (sc : Scope) (d a : Reg) (s : State) : Out :=
  .next (s.issue (.barr st sc d a) fun s =>
    let w := s.g a
    s.beforeArrival (.barr st sc d a) sc w fun s =>
      let g := s.genOf s.act.1 sc (belayId w)
      ((s.arrive (s.ropeNode sc w) (narr w) s.arriver w).gset d (g.zeroExtend 64)).cairnDone st)
def execBwait (st : Stall) (sc : Scope) (a b : Reg) (s : State) : Out :=
  .next (s.issue (.bwait st sc a b) fun s =>
    if !belayIdOk sc (s.g a) then s.illegal (wordOf (.bwait st sc a b))
    else s.guardOnce fun s =>
      s.wait (.bwait st sc a b) (s.waitHolds s.act.1 s.act.2 (.bwait st sc a b)) fun s => s.acquiring sc fun s => s.done st)

/-! ### Events and completion waits (R291, R292) -/

def execWfe (st : Stall) (d a : Reg) (s : State) : Out :=
  .next (s.issue (.wfe st d a) fun s => s.deferredPoison fun s =>
    if s.myCore.task.event then s.afterLoads fun s =>
      (((s.onMyCore fun c => c.onTask fun t => { t with event := false }).gset d 1).acquire s.act.1 s.act.2 .device).done st
    else match s.me.answer with
      | some (v, _, _) => s.afterLoads fun s => ((s.gset d v).acquire s.act.1 s.act.2 .device).done st
      | none =>
        let n := ((s.g a).extractLsb' 0 32).toNat
        s.parkCond (.wfe st d a) (if n = 0 then none else some n) fun id => .wfeTimeout s.act.1 s.act.2 id)
/-- The wait that a token names still stands. -/
def Ctx.waitsOn (c : Ctx) (token : Nat) : Bool := match c.park with | .cond w => w.token == token | _ => false
/-- The bound of a `WFE` has run out: it will return 0 unless the latch is set by then, or it has been woken (R291). -/
def execWfeTimeout (core ctx token : Nat) (s : State) : Out :=
  .next (s.onCtx core ctx fun c => if c.waitsOn token && c.answer.isNone then { c with answer := some (0, 0, 0) } else c)
def execEvsig (st : Stall) (a : Reg) (s : State) : Out :=
  .next (s.issue (.evsig st a) fun s =>
    if (s.g a).extractLsb' 11 53 ≠ 0 then s.illegal (wordOf (.evsig st a))
    else s.releasing .device fun s =>
      match coreOfCoord ((s.g a).extractLsb' 0 11) with
      | some n => (s.after s.lat.evsig (.eventSignalArrival n s.asid)).done st
      | none => s.done st)
/-- The context is parked in a `WFE`. -/
def Ctx.inWfe (c : Ctx) : Bool := match c.park with | .cond w => (match w.instr with | .wfe _ _ _ => true | _ => false) | _ => false
/-- The latch of every bound task of the identifier is set; each context of the task on the core that is parked in `WFE` is
woken and will return 1 (R291). -/
def execEventSignalArrival (core : Nat) (asid : Asid) (s : State) : Out :=
  let c := s.core core
  let woken := if c.on.isSome && c.asid == asid then c.live.filter (fun k => (c.ctx k).inWfe) else []
  .next (woken.foldl (fun s k => s.onCtx core k fun c => { c with answer := some (1, 0, 0) })
    (s.onCore core fun c => { c with slots := c.slots.map fun e =>
      (e.1, if e.2.v && e.2.asid == asid then { e.2 with event := true } else e.2) }))
/-- `CWAIT` and `CWAITB` past the checks of R233. -/
def State.objectWait (s : State) (a : Reg) (body : State → Place → State) : State :=
  let ea := addr (s.g a)
  s.deferredPoison fun s => s.aligned ea 8 fun s => s.withPlace .read ea 8 fun p => body s p
/-- The first test of a condition that does not hold has read the object: a guard's touch is recorded (R96, R292). -/
def State.tested (s : State) (p : Place) (holds : Bool) : State :=
  match p with
  | .guard o => if holds then s else s.onMyCore fun c => c.touchGuard s.act.2 false o
  | _ => s
def execCwait (st : Stall) (a b : Reg) (s : State) : Out :=
  .next (s.issue (.cwait st a b) fun s => s.objectWait a fun s p =>
    let holds := s.waitHolds s.act.1 s.act.2 (.cwait st a b)
    (s.tested p holds).wait (.cwait st a b) holds fun s => s.afterLoads fun s =>
      let (_, s1) := s.readPlace s.act.1 s.act.2 true p (addr (s.g a)) 8
      (s1.acquire s.act.1 s.act.2 .device).done st)
def execCwaitb (st : Stall) (d a b : Reg) (s : State) : Out :=
  .next (s.issue (.cwaitb st d a b) fun s => s.objectWait a fun s p =>
    let holds := s.waitHolds s.act.1 s.act.2 (.cwaitb st d a b)
    (s.tested p holds).boundedWait (.cwaitb st d a b) holds ((s.g d).extractLsb' 0 32).toNat fun s => s.afterLoads fun s =>
      let (y, s1) := s.readPlace s.act.1 s.act.2 true p (addr (s.g a)) 8
      let x := match s.me.answer with | some (x, _, _) => x | none => y
      ((s1.gset d x).acquire s.act.1 s.act.2 .device).done st)
/-- Messages on their way to a task. -/
def State.underWay (s : State) (core : Nat) (asid : Asid) (taskid : W32) : Nat :=
  (s.queue.filter fun e => match e.2 with
    | .messageDelivery c t x _ _ _ _ => c == core && t == taskid && x == asid
    | _ => false).length
/-- Space for one more message to a task, those under way counted; a task that is not there needs none (R298) (DEDUCED: log entry 25). -/
def State.sendRoom (s : State) (core : Nat) (asid : Asid) (taskid : W32) (ahead : Nat) : Bool :=
  let c := s.core core
  match c.slotOf asid taskid with
  | none => true
  | some j =>
    let inbox := if c.on = some j && c.banks.role 18 = 2 then 2048 - (c.banks.fifoAt 18).length else 0
    ahead < inbox + (2048 - (c.slot j).msgs.length)
/-- Messages ahead of the one a token names, none where it is not under way. -/
def aheadOf (token : Nat) : Nat → List (Nat × Ev) → Option (Nat × Asid × W32 × Nat)
  | _, [] => none
  | k, e :: t =>
    match e.2 with
    | .messageDelivery c id x _ _ _ tok =>
      if tok = token then some (c, x, id, k) else aheadOf token (k + 1) t
    | _ => aheadOf token k t
/-- A message with the wait of its sender has space, so its bound no longer counts (R300). -/
def State.sendHolds (s : State) (token : Nat) : Bool :=
  match aheadOf token 0 s.queue with
  | none => false
  | some (core, asid, id, _) =>
    let before := (s.queue.takeWhile fun e => match e.2 with | .messageDelivery _ _ _ _ _ _ t => t != token | _ => true).filter fun e =>
      match e.2 with | .messageDelivery c t x _ _ _ _ => c == core && t == id && x == asid | _ => false
    s.sendRoom core asid id before.length
/-- A bounded wait's count has run out: a condition that holds in this cycle wins, as does a message that has its space (R300), and is
judged again while the word has not gone on; else the trap is taken, a request for the lease withdrawn (R189, R282). -/
def execBoundedWaitExpiry (core ctx token : Nat) (s : State) : Out :=
  .next (match (s.ctx core ctx).park with
    | .cond w =>
      if w.token != token || (s.core core).failing.isSome || s.sendHolds token then s
      else if s.waitHolds core ctx w.instr then s.after 1 (.boundedWaitExpiry core ctx token)
      else
        let s1 := (s.unaskLease core ctx).onCtx core ctx fun c => { c with left := none }
        s1.takeTrap core ctx (boundTrap w.instr) (s1.ctx core ctx).pc false false false
    | _ => s)

/-! ### Rope queues (R293, R294) -/

def execQpush (st : Stall) (a b : Reg) (s : State) : Out :=
  .next (s.issue (.qpush st a b) fun s => s.onceThenCairn st fun s =>
    let x := s.g a
    if x &&& 0xFFFFFFFFFFFFFF88 ≠ 0 then s.illegal (wordOf (.qpush st a b))
    else match s.pushTarget s.act.1 x with
      | none => s.trap0 0x06
      | some k => if s.me.pushGone (s.core k).task.bind then s.trap0 0x06 else s.releasing .rope fun s =>
        s.wait (.qpush st a b) (s.waitHolds s.act.1 s.act.2 (.qpush st a b)) fun s =>
          (s.after 10 (.queueEntryArrival k (s.core k).task.bind (x.extractLsb' 4 3).toNat (s.g b))).cairnAfter st)
/-- `QPOP` and `QPOPB` past the checks. -/
def State.popOp (s : State) (i : Instr) (a : Reg) (body : State → Nat → State) : State :=
  let x := s.g a
  if x &&& 0xFFFFFFFFFFFFFF8F ≠ 0 then s.illegal (wordOf i)
  else
    let q := (x.extractLsb' 4 3).toNat
    if !s.myCore.banks.hasQueue q then s.trap0 0x06 else body s q
/-- The oldest entry is taken (R294); one of a poisoned granule stops the read (R326). -/
def State.takeEntry (s : State) (st : Stall) (d : Reg) (q : Nat) : State :=
  match s.myCore.queueHead q with
  | none => s
  | some e =>
    if e.bad then s.trap0 0x13
    else s.acquiring .rope fun s => ((s.gset d e.val).onMyCore fun c => c.queueDrop q).cairnAfter st
def execQpop (st : Stall) (d a : Reg) (s : State) : Out :=
  .next (s.issue (.qpop st d a) fun s => s.onceThenCairn st fun s => s.popOp (.qpop st d a) a fun s q =>
    s.wait (.qpop st d a) (s.waitHolds s.act.1 s.act.2 (.qpop st d a)) fun s => s.takeEntry st d q)
def execQpopb (st : Stall) (d a b : Reg) (s : State) : Out :=
  .next (s.issue (.qpopb st d a b) fun s => s.onceThenCairn st fun s => s.popOp (.qpopb st d a b) a fun s q =>
    s.boundedWait (.qpopb st d a b) (s.waitHolds s.act.1 s.act.2 (.qpopb st d a b)) ((s.g b).extractLsb' 0 32).toNat
      fun s => s.takeEntry st d q)
/-- A push arrives at the target bank (R294); discarded where its task has ended or changed (R367). -/
def execQueueEntryArrival (core task q : Nat) (val : W64) (s : State) : Out :=
  let c := s.core core
  .next (
    if c.on.isSome && c.task.bind == task && c.banks.hasQueue q then
      let (n, s1) := s.newId
      s1.onCore core fun c =>
        { c with banks := c.banks.setFifo (queueBank q) (c.banks.fifoAt (queueBank q) ++ [⟨n, val, s.tick, false⟩]) }
    else s)

/-! ### Futures (R295, R296) -/

def State.futureOp (s : State) (a : Reg) (k : Kind) (body : State → Nat → State) : State :=
  let ea := addr (s.g a)
  s.aligned ea 16 fun s => s.withPlace k ea 16 fun p =>
    match p with
    | .memory e pa => body (s.keepXlat s.asid ea e) pa
    | _ => s
def execFutset (st : Stall) (d a b : Reg) (s : State) : Out :=
  .next (s.issue (.futset st d a b) fun s => s.futureOp a .futWrite fun s pa => s.releasing .device fun s =>
    if s.noRoute pa then
      let (n, s1) := s.freshen
      (((s1.deferAt s.act.1 s.act.2 (addr (s.g a))).gset d (Config.lostAnswer n)).done st).parkHome (s.memLat pa)
    else
      let g := s.phys64 (pa + 8) + 1
      let s1 := (((s.setPhys pa 8 (s.g b).toNat).setPhys (pa + 8) 8 g.toNat).heatUp pa true).gset d g
      (s1.done st).parkHome (s.memLat pa))
/-- The satisfying home step of a future wait (R296). -/
def State.takeFuture (s : State) (st : Stall) (d : Reg) (pa : Nat) : State :=
  s.acquiring .device fun s => ((s.heatUp pa false).gset d (s.phys64 pa)).done st
def execFutwait (st : Stall) (d a : Reg) (s : State) : Out :=
  .next (s.issue (.futwait st d a) fun s => s.futureOp a .futRead fun s pa =>
    s.wait (.futwait st d a) (reached (s.phys64 (pa + 8)) (s.g d)) fun s => s.takeFuture st d pa)
def execFutwaitb (st : Stall) (d a b : Reg) (s : State) : Out :=
  .next (s.issue (.futwaitb st d a b) fun s => s.futureOp a .futRead fun s pa =>
    s.boundedWait (.futwaitb st d a b) (reached (s.phys64 (pa + 8)) (s.g d)) ((s.g b).extractLsb' 0 32).toNat
      fun s => s.takeFuture st d pa)

/-! ### Messages (R297–R300) -/

/-- A message leaves for its receiver's interface, and the sender parks until it is placed or dropped. -/
def State.post (s : State) (i : Instr) (a b : Reg) (limit : Option Nat) : State :=
  match s.me.park with
  | .cond _ => s
  | _ =>
    let x := s.g a
    let token := s.next
    let s1 := s.parkCond i limit fun id => .boundedWaitExpiry s.act.1 s.act.2 id
    match coreOfCoord (x.extractLsb' 0 11) with
    | none => s1.onMe fun c => { c with answer := some (1, 0, 0) }
    | some n => s1.after s.lat.msg (.messageDelivery n (x.extractLsb' 32 32) s.asid (s.g b) s.act.1 s.act.2 token)
/-- `SEND` and `SENDB`: `bound` is none for the unbounded form. -/
def State.sendOp (s : State) (i : Instr) (st : Stall) (d a b : Reg) (bound : Option Nat) : State :=
  let x := s.g a
  if x.extractLsb' 11 21 ≠ 0 then s.illegal (wordOf i)
  else match s.me.answer with
    | some (v, _, _) => (s.gset d v).done st
    | none => s.releasing .device fun s =>
      let room := match coreOfCoord (x.extractLsb' 0 11) with
        | none => true
        | some n => s.sendRoom n s.asid (x.extractLsb' 32 32) (s.underWay n s.asid (x.extractLsb' 32 32))
      match bound with
      | none => s.post i a b none
      | some n =>
        if s.boundLeft n = 0 then
          if room && s.me.leftHere.isNone then s.post i a b none
          else (s.onMe fun c => { c with left := none, park := .no }).trap (boundTrap i)
        else s.post i a b (some n)
def execSend (st : Stall) (d a b : Reg) (s : State) : Out := .next (s.issue (.send st d a b) fun s => s.sendOp (.send st d a b) st d a b none)
def execSendb (st : Stall) (d a b : Reg) (s : State) : Out :=
  .next (s.issue (.sendb st d a b) fun s => s.sendOp (.sendb st d a b) st d a b (some ((s.g d).extractLsb' 0 32).toNat))
/-- Two messages for one task. -/
def Ev.sameReceiver (e f : Ev) : Bool :=
  match e, f with
  | .messageDelivery c t x _ _ _ _, .messageDelivery c' t' x' _ _ _ _ => c == c' && t == t' && x == x'
  | _, _ => false
/-- A message without space waits for the next cycle with those behind it that are due, before any that comes later (R298, R300). -/
def State.waitForSpace (s : State) (e : Ev) : State :=
  let due := fun (x : Nat × Ev) => x.1 ≤ s.now && x.2.sameReceiver e
  let s1 : State := { s with queue := s.queue.filter fun x => !due x }
  (e :: (s.queue.filter due).map (·.2)).foldr (fun e s => s.firstAt (s.now + 1) e) s1
/-- A message at the receiver's interface (R298): placed, dropped, or waiting for space in arrival order; a message whose
sender no longer waits is not sent (R300). -/
def execMessageDelivery (core : Nat) (taskid : W32) (asid : Asid) (val : W64) (fromCore fromCtx token : Nat) (s : State) : Out :=
  .next (
    if !(s.ctx fromCore fromCtx).waitsOn token then s
    else
      let (n, s1) := s.newId
      match (s1.core core).deliver n s1.tick asid taskid val with
      | none => s.waitForSpace (.messageDelivery core taskid asid val fromCore fromCtx token)
      | some (c, dropped) =>
        (s1.setCore core c).onCtx fromCore fromCtx fun c => { c with answer := some (if dropped then 1 else 0, 0, 0) })
/-- The oldest message is taken (R299); one of a poisoned granule stops the read (R326). -/
def State.takeMessage (s : State) (st : Stall) (d : Reg) : State :=
  match s.myCore.msgHead with
  | none => s
  | some e =>
    if e.bad then s.trap0 0x13
    else s.acquiring .device fun s => ((s.gset d e.val).onMyCore fun c => c.msgDrop e.n).cairnAfter st
def execRecv (st : Stall) (d : Reg) (s : State) : Out :=
  .next (s.issue (.recv st d) fun s => s.onceThenCairn st fun s =>
    s.wait (.recv st d) (s.waitHolds s.act.1 s.act.2 (.recv st d)) fun s => s.takeMessage st d)
def execRecvb (st : Stall) (d a : Reg) (s : State) : Out :=
  .next (s.issue (.recvb st d a) fun s => s.onceThenCairn st fun s =>
    s.boundedWait (.recvb st d a) (s.waitHolds s.act.1 s.act.2 (.recvb st d a)) ((s.g a).extractLsb' 0 32).toNat
      fun s => s.takeMessage st d)

/-! ### Rope-net arrivals (R238, R245, R367) -/

def execRopeNetStoreArrival (core : Nat) (ends : NetEnds) (bytes : List WByte) (s : State) : Out :=
  .next (s.onCore core fun c => if c.stillOn ends.task then { c with banks := bytes.foldl Banks.putByte c.banks } else c)
def execSeqsetTagWrite (core task slot : Nat) (tag : BitVec 16) (s : State) : Out :=
  .next (s.onCore core fun c => if c.stillOn task then { c with banks := c.banks.setTag slot tag } else c)

end Sys2Proof.Machine
end

