-- ==== Sys2Proof/Machine/Task.lean ====
section
/-! DEFINITION. Tasks as the device sees them: task control blocks and their transitions, launch records and their
counts, queue errors, the curator's call, reports to the host, and a task leaving its core (spec/01 R9–R24; spec/04
R70–R79, R85; spec/15 R310; spec/16 R336). -/

namespace Sys2Proof.Machine

/-! ### Vectors, queues, functions (R67, R70, R85, R337) -/

/-- A vector of a function (64: the physical function): raised if its table holds it and it is not masked, by its driver's leave or
by a reset in progress (R82). -/
def State.raiseVec (s : State) (f vec : Nat) : State :=
  if vec < (if f = 64 then 16 else 64) && !(f != 64 && ((s.func f).masked || s.flr.contains f)) then { s with msix := (f, vec) :: s.msix } else s
def QBlock.asidHi (b : QBlock) : Nat := (b.cfg.extractLsb' 51 13).toNat
def QBlock.asidLo (b : QBlock) : Nat := (b.cfg.extractLsb' 38 13).toNat
def QBlock.func (b : QBlock) : Nat := (b.cfg.extractLsb' 32 6).toNat
def QBlock.pitchOk (b : QBlock) (p : Nat) : Bool := b.cfg.getLsbD (16 + p)
def QBlock.ageThr (b : QBlock) : Nat := (b.cfg.extractLsb' 8 8).toNat
def QBlock.prio (b : QBlock) : Nat := (b.cfg.extractLsb' 5 3).toNat
def QBlock.qlog (b : QBlock) : Nat := (b.cfg.extractLsb' 0 5).toNat
def FEntry.asidHi (f : FEntry) : Nat := (f.w18.extractLsb' 51 13).toNat
def FEntry.asidLo (f : FEntry) : Nat := (f.w18.extractLsb' 38 13).toNat
/-- EPRIO of R78. -/
def QBlock.aged (b : QBlock) : QBlock :=
  { b with eprio := BitVec.ofNat 3 (if b.ageThr = 0 then b.prio else min 7 (b.prio + b.age.toNat / b.ageThr)) }
/-- ERR of a queue set (R72): the vector is raised when it becomes nonzero. `force`: R81 and R82 set it over another (DEDUCED: log entry 47). -/
def State.queueError (s : State) (q : Nat) (err : Nat) (force : Bool) : State :=
  let b := s.queueOf q
  if b.err = 0 then (s.onQueue q fun b => { b with err := BitVec.ofNat 8 err }).raiseVec b.func b.errvec.toNat
  else if force then s.onQueue q fun b => { b with err := BitVec.ofNat 8 err }
  else s

/-! ### Stores at a TCB's home (R11, R366) -/

/-- A store to a TCB at home, written through so that the host sees the task's state: the floors after it. -/
def State.homeStore (s : State) (f : Table Nat) (asid : Asid) (va : VA) (size : Nat) (x : W64) (e : Pte) : Table Nat × State :=
  let pa := e.pa va
  let key := wordKey asid va
  let s1 := if hasOrder e pa then s.setLoc key (s.synced (s.loc key pa)) else s
  let (g, s2) := s1.storeAt f asid va size x (spanBits 0 size) e pa
  (g, if hasOrder e pa then s2.through key else s2.heatUp pa true)
/-- Code, and fields, of a STATE word (R10). -/
def tcbCode (x : W64) : Nat := (x.extractLsb' 0 8).toNat
def tcbQueue (x : W64) : Nat := (x.extractLsb' 8 6).toNat
/-- A STATE word with a new code, the device's reserved bits zero (R10). -/
def withCode (x : W64) (code : Nat) : W64 := (x &&& 0x000007FFFF013F00) ||| BitVec.ofNat 64 code
def withReason (x : W64) (reason : Nat) : W64 := (withCode x 6 &&& 0xFFFFFFFF00FFFFFF) ||| BitVec.ofNat 64 (reason * 2 ^ 24)
def withQueue (x : W64) (code q : Nat) : W64 := (withCode x code &&& 0xFFFFFFFFFFFF00FF) ||| BitVec.ofNat 64 (q * 2 ^ 8)
def withCore (x : W64) (n : Nat) : W64 := (withCode x 3 &&& 0xFFFFF800FFFFFFFF) ||| BitVec.ofNat 64 ((coord11 n).toNat * 2 ^ 32)
/-- STATE of a TCB at its home. -/
def State.tcbState (s : State) (asid : Asid) (tcb : VA) : Option W64 := (s.walk asid tcb).map fun e => s.devRead asid (tcb + 8) 8 e
/-- The device agent changes STATE (R366). -/
def State.setTcb (s : State) (asid : Asid) (tcb : VA) (f : W64 → W64) : State :=
  match s.walk asid tcb with
  | some e => s.devWrite asid (tcb + 8) 8 (f (s.devRead asid (tcb + 8) 8 e)) e
  | none => s
/-- Both lines of a TCB can be read (R22, R73) (DEDUCED: log entry 53). -/
def State.tcbReadable (s : State) (asid : Asid) (tcb : VA) : Bool :=
  (s.devGet asid tcb 8).isSome && (s.devGet asid (tcb + 128) 8).isSome
/-- A word of a TCB that can be read. -/
def State.tcbWord (s : State) (asid : Asid) (tcb : VA) (off : Nat) : W64 := (s.devGet asid (tcb + BitVec.ofNat 56 off) 8).getD 0

/-! ### Launch records: counting and settling (R23, R24) -/

/-- How a TCB counts in a record. -/
inductive Ended | done | failed | cancelled | rejected
  deriving DecidableEq, Repr
def Rec.count (r : Rec) (e : Ended) : Rec :=
  match e with
  | .done => { r with done := r.done + 1 }
  | .failed => { r with failed := r.failed + 1 }
  | .cancelled => { r with cancelled := r.cancelled + 1 }
  | .rejected => { r with rejected := r.rejected + 1 }
/-- A device write of a record's object, none where it is dropped (R24). -/
def State.objectPut (s : State) (asid : Asid) (a : W64) (f : W64 → W64) : Option State :=
  if tagOf a ≠ 0 || a.toNat % 8 != 0 then none
  else match s.walk asid (addr a) with
    | some e => s.devPut asid (addr a) 8 (f (s.devRead asid (addr a) 8 e))
    | none => none
/-- RCOMP rises by one (R23) (DEDUCED: log entry 49). -/
def State.addRcomp (s : State) (r : Rec) : Rec × State :=
  if r.rcomp = 0 then (r, s)
  else match s.objectPut r.asid r.rcomp (· + 1) with
    | some s1 => (r, s1)
    | none => ({ r with bad := true }, s)
def State.setRec (s : State) (r : Rec) : State := { s with recs := s.recs.map fun x => if x.id = r.id then r else x }
/-- A record counts one of its TCBs; it settles when none is left. -/
def State.countIn (s : State) (r : Rec) (tcb : Nat) (e : Ended) : State :=
  let (r1, s1) := s.addRcomp { r.count e with waiting := r.waiting.erase tcb }
  let s2 := s1.setRec r1
  if r1.waiting.isEmpty then s2.after 1 (.recordSettle r1.id) else s2
/-- A task has ended: every record that names it counts it. -/
def State.ended (s : State) (asid : Asid) (tcb : VA) (e : Ended) : State :=
  (s.recs.filter fun r => r.asid == asid && r.waiting.contains tcb.toNat).foldl (fun s r => s.countIn r tcb.toNat e) s
/-- No earlier record of the queue stands before this one. -/
def State.firstOf (s : State) (r : Rec) : Bool :=
  match s.recs.find? fun x => x.queue == r.queue with | some x => x.id == r.id | none => true
/-- A record settles (R23, R24): the status word, then the vector, then ERR 0x07 if a write was dropped. -/
def State.settleRec (s : State) (r : Rec) : State :=
  let (r1, s1) := if r.kind = 3 then s.addRcomp r else (r, s)
  let word := BitVec.ofNat 64 (r1.done + r1.failed * 2 ^ 16 + r1.cancelled * 2 ^ 32 + r1.rejected * 2 ^ 48)
  let (bad, s2) :=
    if r1.flags / 2 % 2 = 1 && r1.rstat != 0 then
      match s1.objectPut r1.asid r1.rstat fun _ => word with
      | some s2 => (r1.bad, s2)
      | none => (true, s1)
    else (r1.bad, s1)
  let s3 := if r1.flags % 2 = 1 then s2.raiseVec (s2.queueOf r1.queue).func r1.vec else s2
  let s4 := if bad then s3.queueError r1.queue 7 false else s3
  let s5 : State := { s4 with recs := s4.recs.filter fun x => x.id != r1.id }
  match s5.recs.find? fun x => x.queue == r1.queue with
  | some x => if x.kind = 3 then s5.after 1 (.recordSettle x.id) else s5
  | none => s5
def execRecordSettle (id : Nat) (s : State) : Out :=
  .next (match s.recs.find? fun r => r.id == id with
    | some r => if r.waiting.isEmpty && (r.kind != 3 || s.firstOf r) then s.settleRec r else s
    | none => s)

/-! ### The ready lists and the curator's choice (R73, R231, R343) -/

def State.unready (s : State) (asid : Asid) (tcb : VA) : State :=
  { s with queues := s.queues.map fun e => (e.1, { e.2 with ready := e.2.ready.filter fun t => t != (asid, tcb.toNat) }) }
/-- The curator may bind: the retirement list is loaded, the firmware runs, nothing is too hot. -/
def State.mayBind (s : State) : Bool :=
  s.regs.fwstat == 2 && s.regs.rlctl.getLsbD 62 && s.regs.rlctl.extractLsb' 0 8 == 0 && s.thermal == 0
def inMask (m : BitVec 192) (n : Nat) : Bool := m.getLsbD (ropeOf n)
def Core.freeSlot (c : Core) : Option Nat := (List.range 11).find? fun j => !(c.slot j).v
/-- The core may take a bind. -/
def State.takesBind (s : State) (n : Nat) : Bool := (s.core n).halted.isNone && (s.core n).freeSlot.isSome
def State.coresIn (s : State) (m : BitVec 192) : List Nat := (List.range Config.cores).filter fun n => inMask m n && s.takesBind n
/-- The queue to be served (R73): the highest EPRIO, round robin after the queue served last. -/
def State.nextQueue (s : State) : Option Nat :=
  let qs := ((List.range 64).map fun j => (s.served + 1 + j) % 64).filter fun q =>
    !(s.queueOf q).ready.isEmpty && (List.range Config.cores).any fun n => inMask (s.queueOf q).qmask n && s.takesBind n
  qs.foldl (fun b q => match b with
    | some p => if (s.queueOf p).eprio < (s.queueOf q).eprio then some q else some p
    | none => some q) none
/-- PRIO of a TCB, 0 where it cannot be read (DEDUCED: log entry 50). -/
def State.tcbPrio (s : State) (t : Asid × Nat) : Nat := ((s.tcbWord t.1 (BitVec.ofNat 56 t.2) 0x38).extractLsb' 61 3).toNat
/-- The ready TCB with the highest PRIO, the first of equals. -/
def State.nextReady (s : State) (q : Nat) : Option (Asid × Nat) :=
  (s.queueOf q).ready.foldl (fun b t => match b with
    | some u => if s.tcbPrio u < s.tcbPrio t then some t else some u
    | none => some t) none
/-- ROPEMASK of a TCB. -/
def State.tcbRopes (s : State) (asid : Asid) (tcb : VA) : BitVec 192 :=
  (s.tcbWord asid tcb 0x30 ++ s.tcbWord asid tcb 0x28 ++ s.tcbWord asid tcb 0x20).setWidth 192
/-- The power target in watts: a PWRCAP outside 500 to 2,800 acts as 2,800 (R343). -/
def HostRegs.powerTarget (r : HostRegs) : Nat := if 500 ≤ r.pwrcap.toNat && r.pwrcap.toNat ≤ 2800 then r.pwrcap.toNat else 2800
/-- The curator's next bind (R73): its choices of core, start and spill area are free (DESIGN CHOICE: log entry 12). Where the chosen
TCB's ropes hold no core with a free slot, it binds nothing until one is free, of other queues either (DESIGN CHOICE: log entry 96). -/
def State.callCurator (s : State) : State :=
  let w := s.regs.powerTarget
  if !s.mayBind then s
  else match s.nextQueue with
    | none => s
    | some q => match s.nextReady q with
      | none => s
      | some t =>
        let tcb := BitVec.ofNat 56 t.2
        let cs := s.coresIn ((s.queueOf q).qmask &&& s.tcbRopes t.1 tcb)
        let (f, s1) := s.freshen
        let n := cs.getD (Config.curatorCore f w % max 1 cs.length) 0
        if cs.isEmpty && s.tcbReadable t.1 tcb && (s.queueOf q).qmask &&& s.tcbRopes t.1 tcb ≠ 0 then s
        else s1.after s1.lat.home (.curatorBind n ((s1.core n).freeSlot.getD 0) (Config.curatorStart f) (Config.curatorDelay f w) (Config.curatorSpill f))
def State.enqueue (s : State) (asid : Asid) (tcb : VA) (q : Nat) : State :=
  (s.onQueue q fun b => { b with ready := b.ready ++ [(asid, tcb.toNat)] }).callCurator

/-! ### Reports (R336) -/

def State.ringFull (s : State) : Bool := 2 ^ (s.regs.crlog.extractLsb' 0 4).toNat ≤ (s.regs.crhead - s.regs.crtail).toNat
/-- A report record is written, CRHEAD advances, CRVEC is raised; a full ring drops it. -/
def State.report (s : State) (kind code q : Nat) (taskid : W32) (epc : W64) (loc : W64) : State :=
  if s.ringFull then { s with regs := { s.regs with crdrop := true } }
  else
    let i := s.regs.crhead.toNat % 2 ^ (s.regs.crlog.extractLsb' 0 4).toNat
    let pa := s.regs.crbase.toNat + 32 * i
    let w0 := kind * 2 ^ 56 + code % 256 * 2 ^ 48 + q % 64 * 2 ^ 42 + taskid.toNat
    let s1 := (((s.setPhys pa 8 w0).setPhys (pa + 8) 8 epc.toNat).setPhys (pa + 16) 8 loc.toNat).setPhys (pa + 24) 8 s.now
    let s2 : State := { s1 with regs := { s1.regs with crhead := s1.regs.crhead + 1 } }
    s2.raiseVec 64 (s2.regs.crvec.extractLsb' 0 16).toNat
/-- Bits 25:0 of COORD. -/
def State.coord26 (s : State) (n : Nat) : W64 := s.coord n 0 &&& 0x3FFFFFF

/-! ### A task leaves its core (R81, R106, R155, R310) -/

/-- A slot that dispatch has cleared. -/
def Slot.clear (j : Slot) : Slot :=
  { j with v := false, bound := false, wd := 0, cancel := false, event := false, msgs := [], spilled := [], hbm := none }
/-- The contexts end, with what the task had in flight, and the core is free; a copy of a task saved in the bivouac store goes on (R367). -/
def State.vacate (s : State) (n : Nat) : State :=
  let c := s.core n
  let s1 := (List.range 11).foldl (fun s k => s.unaskLease n k) s
  let s2 := (s1.dropLease n).releaseRights n c.task.bind
  let s3 : State := { s2 with
    flights := s2.flights.filter fun f => f.core != n, cmds := s2.cmds.filter fun d => !(d.core == n && d.bind == c.task.bind),
    pubs := s2.pubs.filter fun p => p.agent < 2000 || (p.agent - 2000) / 16 != c.task.bind }
  s3.onCore n fun c =>
    let c1 := c.onTask Slot.clear
    { c1 with
      ctxs := c1.ctxs.map fun e => (e.1, { e.2 with live := false, xstat := 0, park := .no, answer := none, fault := none }),
      active := { c1.active with ladder := none }, renewing := [], on := none, failing := none, preempt := false, restored := none,
      stopped := none, incoming := none, held := none }
/-- The core passes to dispatch, and the curator may use its slot. -/
def State.freed (s : State) (n : Nat) : State := (s.after 1 (.dispatchSelect n)).callCurator
/-- Where a task is bound: core and slot. -/
def State.slotWith (s : State) (asid : Asid) (tcb : VA) : Option (Nat × Nat) :=
  s.cores.findSome? fun e =>
    (List.find? (fun (j : Nat × Slot) => j.2.v && j.2.asid == asid && addr j.2.tcb == tcb) e.2.slots).map fun j => (e.1, j.1)
/-- A bound task that is not on its core fails (R12, R81, R82): its image and its slot are gone. -/
def State.failSlot (s : State) (n j reason : Nat) : State :=
  let t := (s.core n).slot j
  let s1 := ((s.setTcb t.asid (addr t.tcb) fun x => withReason x reason).ended t.asid (addr t.tcb) .failed).releaseRights n t.bind
  s1.onCore n fun c =>
    let c1 := c.onSlot j Slot.clear
    match c1.biv with
    | some i => if i.slot = j then { c1 with biv := none, shadow := Pair.init } else c1
    | none => c1

/-! ### The transitions of R12 -/

/-- Submission of one TCB by a record: the record's TCBs still to end, or a rejection. -/
def State.submitTcb (s : State) (id q : Nat) (asid : Asid) (tcb : VA) : State :=
  match s.recs.find? fun r => r.id == id, s.tcbState asid tcb with
  | some r, some x =>
    if tcbCode x = 0 then
      let preds := (s.tcbWord asid tcb 0x10).extractLsb' 0 32
      let code := if preds = 0 then 2 else 1
      let s1 := (s.setTcb asid tcb fun x => withQueue x code q).setRec { r with waiting := r.waiting ++ [tcb.toNat] }
      if preds = 0 then s1.enqueue asid tcb q else s1
    else
      let (r1, s1) := s.addRcomp (r.count .rejected)
      s1.setRec r1
  | _, _ => s
/-- A slot that dispatch may select. -/
def Slot.selectable (j : Slot) : Bool := j.v && j.ctxloc != 0 && (j.ctxloc != 3 || j.bound)
/-- A valid slot pre-empts (R76): PE set and a strictly higher PRIO. -/
def Core.outranked (c : Core) : Bool :=
  match c.on with
  | none => false
  | some _ => c.slots.any fun e => e.2.selectable && e.2.pe && c.task.prio < e.2.prio
/-- The pre-emption request of R76. -/
def State.request (s : State) (n : Nat) : State :=
  let c := s.core n
  if c.preempt || c.failing.isSome || c.halted.isSome || c.on.isNone || c.restored.isSome then s
  else (s.onCore n fun c => { c with preempt := true }).at' s.now (.preemptTake n)
/-- The bind's swap (R75): READY becomes BOUND with BCORE, else V is cleared (DEDUCED: log entry 51). -/
def State.bindSwap (s : State) (n j : Nat) : State :=
  let t := (s.core n).slot j
  if !t.v || t.bound || t.ctxloc != 3 then s
  else
    let ok := match s.tcbState t.asid (addr t.tcb) with | some x => tcbCode x == 2 | none => false
    if ok then
      let s1 := (s.setTcb t.asid (addr t.tcb) fun x => withCore x n).unready t.asid (addr t.tcb)
      let s2 := (s1.onQueue t.queue.toNat fun b => { b with age := 0, bound := true }.aged).onCore n fun c =>
        c.onSlot j fun t => { t with bound := true }
      s2.after 1 (.dispatchSelect n)
    else (s.onCore n fun c => c.onSlot j Slot.clear).callCurator
/-- The bind, and dispatch's comparison of its slot with the task on the core (R76). -/
def State.bindSwapped (s : State) (n j : Nat) : State :=
  let s1 := s.bindSwap n j
  if (s1.core n).outranked then s1.request n else s1
/-- A bind that reaches the home in this cycle is serialised before a cancel (R79). -/
def State.bindFirst (s : State) (asid : Asid) (tcb : VA) : State :=
  match s.slotWith asid tcb with
  | some (n, j) =>
    let due := s.queue.any fun e => e.1 ≤ s.now && e.2 == .dispatchBind n j
    if due then State.bindSwapped { s with queue := s.queue.filter fun e => e.2 != .dispatchBind n j } n j else s
  | none => s
/-- The cancel's swap (R12, R79): 1 made CANCELLED, 2 found BOUND and latched, 0 otherwise; `f` are an issuing context's
floors, none for the device agent. -/
def State.cancelSwap (s : State) (f : Option (Table Nat)) (asid : Asid) (tcb : VA) : Nat × Table Nat × State :=
  let s := s.bindFirst asid tcb
  let floors := f.getD []
  match s.walk asid tcb with
  | none => (0, floors, s)
  | some e =>
    let x := s.devRead asid (tcb + 8) 8 e
    if tcbCode x < 3 then
      let (g, s1) := match f with
        | some fl => s.homeStore fl asid (tcb + 8) 8 (withCode x 5) e
        | none => ([], s.devWrite asid (tcb + 8) 8 (withCode x 5) e)
      (1, g, (s1.unready asid tcb).ended asid tcb .cancelled)
    else if tcbCode x = 3 then
      (2, floors, match s.slotWith asid tcb with
        | some (n, j) => s.onCore n fun c => c.onSlot j fun t => { t with cancel := true }
        | none => s)
    else (0, floors, s)
/-- The entry under which a decrement is performed on a word: the location `pa` that its checks translated, in memory itself where the
word is held under another translation by now (R17). -/
def State.pteAt (s : State) (asid : Asid) (va : VA) (pa : Nat) : Pte :=
  let uc := match Table.find? (wordKey asid va) s.locs with | some l => l.pa != pa / 8 * 8 | none => true
  let there : Pte := ⟨0, 0, BitVec.ofNat 64 ((if uc then 2 ^ 61 else 0) + pa / 65536)⟩
  match s.walk asid va with
  | some e => if e.pa va = pa && (!uc || (Table.find? (wordKey asid va) s.locs).isNone) then e else there
  | none => there
/-- A successor whose PREDS is poisoned (R12, R17). -/
def State.poisonedSuccessor (s : State) (asid : Asid) (tcb : VA) (e : Pte) : State :=
  let x := s.devRead asid (tcb + 8) 8 e
  let fail := fun (s : State) => ((s.devWrite asid (tcb + 8) 8 (withReason x 0x13) e).unready asid tcb).ended asid tcb .failed
  if 3 < tcbCode x then s
  else if tcbCode x < 3 then fail s
  else match s.slotWith asid tcb with
    | some (n, j) => if (s.core n).on = some j then s.failTask n 0x13 else (s.failSlot n j 0x13).freed n
    | none => fail s
/-- A decrement at home (R12, R16, R17, R19), with the issuer's floors (DEDUCED: log entry 54) (DEDUCED: log entry 55). -/
def State.decrement (s : State) (f : Table Nat) (asid : Asid) (tcb : VA) (pa : Nat) : Table Nat × State :=
  let e := s.pteAt asid (tcb + 8) (pa + 8)
  let p := s.pteAt asid (tcb + 16) (pa + 16)
  if s.poisoned pa then (f, s.poisonedSuccessor asid tcb e)
  else
    let n := s.devRead asid (tcb + 16) 4 p
    let x := s.devRead asid (tcb + 8) 8 e
    if n = 0 then s.homeStore f asid (tcb + 8) 8 (x ||| 0x10000) e
    else
      let (g, s1) := s.homeStore f asid (tcb + 16) 4 (n - 1) p
      if n = 1 && tcbCode x = 1 then
        let (h, s2) := s1.homeStore g asid (tcb + 8) 8 (withCode x 2) e
        (h, s2.enqueue asid tcb (tcbQueue x))
      else (g, s1)
def execPredsDecrement (asid : Asid) (tcb : VA) (pa : Nat) (s : State) : Out :=
  .next (if s.decs.contains (asid, tcb.toNat, pa) then
      (({ s with decs := s.decs.erase (asid, tcb.toNat, pa) } : State).decrement [] asid tcb pa).2
    else s)

/-! ### TDEC and TCANCEL (R156) -/

/-- What refuses the TCB's location: permission, home, and class and poison as for an atomic (R156, R216) (DEDUCED: log entry 78);
a decrement that meets poison fails its TCB instead (R12). -/
def State.tcbRefused (s : State) (poison : Bool) (va : VA) (e : Pte) : Option Nat :=
  if e.malformed || !s.physOk (e.pa va) || !e.wr || isRemote (e.pa va) then some 0x06
  else (s.classCheck .atomic s.asid va 8 e).orElse fun _ => if poison && s.poisoned (e.pa va) then some 0x13 else none
/-- The checks both share, and the release. -/
def State.onTcb (s : State) (i : Instr) (a : Reg) (poison : Bool) (body : State → VA → Nat → State) : State :=
  let n := s.act.1
  let x := s.g a
  let va := addr x
  if x.extractLsb' 0 8 ≠ 0 then s.trap ⟨0x03, x, 0⟩
  else if tagOf x ≠ 0 then s.trap ⟨0x07, x, 0⟩
  else if inLocal va || inRope va then s.trap ⟨0x06, x, 0⟩
  else match s.xlate s.asid va with
    | none => s.parkPage va true
    | some e => match s.tcbRefused poison va e with
      | some c => s.trap ⟨c, x, 0⟩
      | none => if s.blocked s.act.1 s.act.2 i then s.parkDrain else s.releasing .device fun s =>
          body (s.classify n true s.asid va e (e.pa va)) va (e.pa va)
/-- A cairn recorded with no command waiting, and the home's answer. -/
def State.homeCairn (s : State) (st : Stall) : State := ((s.onMe fun c => c.recordCairn (s.holdsLease s.act.1) (c.pc + 4)).done st).parkHome s.lat.home
def execTdec (st : Stall) (a : Reg) (s : State) : Out :=
  .next (s.issue (.tdec st a) fun s => s.onTcb (.tdec st a) a false fun s va pa =>
    let (f, s1) := s.decrement s.me.floors s.asid va pa
    (s1.onMe fun c => { c with floors := f }).homeCairn st)
def execTcancel (st : Stall) (d a : Reg) (s : State) : Out :=
  .next (s.issue (.tcancel st d a) fun s => s.onTcb (.tcancel st d a) a true fun s va _ =>
    let (r, f, s1) := s.cancelSwap (some s.me.floors) s.asid va
    ((s1.onMe fun c => { c with floors := f }).gset d (BitVec.ofNat 64 r)).homeCairn st)

/-! ### TDONE (R16, R17, R155) -/

/-- A check of R17 that stops: a trap, or a page fault. -/
abbrev SuccStop := Trap ⊕ (W64 × Bool)
/-- A page that the access may use (R17, order 2): its permission, and its class (R216, DEDUCED: log entry 32). -/
def State.pageOk (s : State) (k : Kind) (va : VA) (e : Pte) : Bool :=
  !e.malformed && s.physOk (e.pa va) && (match k with | .read => e.rd | _ => e.wr) && (s.classCheck k s.asid va 8 e).isNone
/-- A check's address lies in an aperture, which is never translated (R95, R238): it is refused as a page without permission is
(DESIGN CHOICE: log entry 83). -/
def noPage (va : VA) : Bool := inLocal va || inRope va
/-- A word of the list, with the checks of R17 on its page and line. -/
def State.listWord (s : State) (va : VA) : SuccStop ⊕ (W64 × State) :=
  if noPage va then .inl (.inl ⟨0x06, ofVA va, 0⟩)
  else match s.xlate s.asid va with
    | none => .inl (.inr (ofVA va, false))
    | some e =>
      if !s.pageOk .read va e then .inl (.inl ⟨0x06, ofVA va, 0⟩)
      else if s.poisoned (e.pa va) then .inl (.inl ⟨0x13, ofVA va, 0⟩)
      else .inr (s.readMem s.act.1 s.act.2 false s.asid va 8 (sizeMask 8) e (e.pa va))
/-- One entry of the list and its successor, every check in order. -/
def State.listEntry (s : State) (va : VA) : SuccStop ⊕ ((VA × Pte) × State) :=
  if noPage va then .inl (.inl ⟨0x06, ofVA va, 0⟩)
  else match s.xlate s.asid va with
    | none => .inl (.inr (ofVA va, false))
    | some e =>
      let pa := e.pa va
      let (x, s1) := s.readMem s.act.1 s.act.2 false s.asid va 8 (sizeMask 8) e pa
      let tcb := addr x
      match if noPage tcb then some ⟨0, 0, 0⟩ else s1.xlate s1.asid tcb with
      | none => .inl (.inr (x, true))
      | some t =>
        if !s1.pageOk .read va e then .inl (.inl ⟨0x06, ofVA va, 0⟩)
        else if noPage tcb || !s1.pageOk .atomic tcb t then .inl (.inl ⟨0x06, x, 0⟩)
        else if tagOf x ≠ 0 then .inl (.inl ⟨0x07, x, 0⟩)
        else if x.extractLsb' 0 8 ≠ 0 then .inl (.inl ⟨0x03, x, 0⟩)
        else if isRemote (t.pa tcb) then .inl (.inl ⟨0x06, x, 0⟩)
        else if s1.poisoned pa then .inl (.inl ⟨0x13, ofVA va, 0⟩)
        else .inr ((tcb, t), s1)
def State.listScan (s : State) (va : VA) : Nat → SuccStop ⊕ (List (VA × Pte) × State)
  | 0 => .inr ([], s)
  | n + 1 => match s.listEntry va with
    | .inl x => .inl x
    | .inr (t, s1) => match s1.listScan (va + 8) n with
      | .inl x => .inl x
      | .inr (ts, s2) => .inr (t :: ts, s2)
/-- The successors of the running task: its TCB copy names the list (R13, DEDUCED: log entry 19) (DEDUCED: log entry 37). -/
def State.successors (s : State) : SuccStop ⊕ (List (VA × Pte) × State) :=
  let p := s.myCore.task.copy.succ
  if p = 0 then .inr ([], s)
  else match s.listWord (addr p) with
    | .inl x => .inl x
    | .inr (n, s1) => s1.listScan (addr p + 8) (n.extractLsb' 0 16).toNat
/-- The task is DONE: the decrements are on their way, STATE is written by the finishing task, the core is free. -/
def State.finish (s : State) (succ : List (VA × Pte)) : State :=
  let n := s.act.1
  let t := s.myCore.task
  let s1 := succ.foldl (fun (s : State) p =>
    let pa := p.2.pa p.1
    let s1 := s.classify n true t.asid p.1 p.2 pa
    ({ s1 with decs := s1.decs ++ [(t.asid, p.1.toNat, pa)] } : State).after s1.lat.home (.predsDecrement t.asid p.1 pa)) s
  let s2 := match s1.walk t.asid (addr t.tcb) with
    | some e =>
      let s2 := s1.classify n false t.asid (addr t.tcb) e (e.pa (addr t.tcb))
      (s2.homeStore [] t.asid (addr t.tcb + 8) 8 (withCode (s2.devRead t.asid (addr t.tcb + 8) 8 e) 4) e).2
    | none => s1
  ((s2.ended t.asid (addr t.tcb) .done).vacate n).freed n
/-- The lead joins every completed engine thread of its task (R155, R271). -/
def State.joinTask (s : State) : State :=
  let bind := s.myCore.task.bind
  let mine := s.pubs.filter fun p => 2000 ≤ p.agent && (p.agent - 2000) / 16 == bind
  s.onMe fun c => { c with floors := mine.foldl (fun f p => mergeFloors f p.seen) c.floors }
def execTdone (st : Stall) (s : State) : Out :=
  .next (s.issue (.tdone st) fun s => s.leadOnly fun s =>
    if s.blocked s.act.1 s.act.2 (.tdone st) then s.parkDrain
    else
      let s1 := s.settle s.act.1 s.act.2
      if s1.held s.act.1 s.act.2 || s1.me.fault.isSome then s1.parkDrain
      else if s1.now < s1.me.reportsBy then s1.parkTill s1.me.reportsBy
      else s1.guardFree fun s =>
        match s.successors with
        | .inl (.inl t) => s.trap t
        | .inl (.inr (x, w)) => s.onMe fun c => { c with park := .pageFault s.asid x w }
        | .inr (succ, s2) => s2.joinTask.releasing .device fun s => s.finish succ)

end Sys2Proof.Machine
end

