-- ==== Sys2Proof/Machine/Launch.lean ====
section
/-! DEFINITION. Host queues and their records, the curator's bind, dispatch, ageing (spec/01 R20–R25; spec/04 R70–R79;
spec/05 R90–R93). -/

namespace Sys2Proof.Machine

/-! ### Reading records (R21, R22, R71, R72) -/

def State.devGetAll (s : State) (asid : Asid) (va : VA) : Nat → Option (List W64)
  | 0 => some []
  | n + 1 => (s.devGet asid va 8).bind fun x => (s.devGetAll asid (va + 8) n).map fun xs => x :: xs
/-- The words of the record at QHEAD, none where a read faults. -/
def State.recordAt (s : State) (q : Nat) : Option (List W64) :=
  let b := s.queueOf q
  s.devGetAll (BitVec.ofNat 13 b.asidLo) (addr b.qbase + BitVec.ofNat 56 (64 * (b.qhead.toNat % 2 ^ b.qlog))) 8
/-- Records are waiting to be read. -/
def QBlock.eligible (b : QBlock) : Bool := b.en && b.err == 0 && b.qhead != b.seen
/-- The queue goes on to its next record. -/
def State.pollQueue (s : State) (q : Nat) : State :=
  if !(s.queueOf q).eligible then s
  else
    let k := (((s.recordAt q).getD []).getD 0 0).extractLsb' 0 8
    s.after s.lat.home (if k = 2 then .cancelRecord q else if k = 3 then .markerRecord q else .submitRecord q)
/-- Fields of a launch record. -/
def recKind (ws : List W64) : Nat := ((ws.getD 0 0).extractLsb' 0 8).toNat
def recFlags (ws : List W64) : Nat := ((ws.getD 0 0).extractLsb' 8 8).toNat
def recCount (ws : List W64) : Nat := ((ws.getD 0 0).extractLsb' 16 16).toNat
def recBase (ws : List W64) : W64 := ws.getD 1 0
def recAsid (ws : List W64) : Nat := ((ws.getD 2 0).extractLsb' 0 16).toNat
def recVec (ws : List W64) : Nat := ((ws.getD 5 0).extractLsb' 0 16).toNat
/-- ERR 0x01 of R72 (DEDUCED: log entry 48). -/
def recBad (b : QBlock) (ws : List W64) : Bool :=
  let k := recKind ws
  k = 0 || 3 < k || 4 ≤ recFlags ws || (if k = 3 then recCount ws != 0 else recCount ws = 0 || 4096 < recCount ws) ||
    (ws.getD 0 0).extractLsb' 32 32 ≠ 0 || recAsid ws < b.asidLo || b.asidHi < recAsid ws ||
    (ws.getD 2 0).extractLsb' 16 48 ≠ 0 || (ws.getD 5 0).extractLsb' 16 48 ≠ 0 || ws.getD 6 0 ≠ 0 || ws.getD 7 0 ≠ 0 ||
    (recBase ws).toNat % 256 != 0 || tagOf (recBase ws) ≠ 0 || 64 ≤ recVec ws
/-- The TCBs that a record names. -/
def recTcbs (ws : List W64) : List VA := (List.range (recCount ws)).map fun k => addr (recBase ws) + BitVec.ofNat 56 (256 * k)
/-- A record read, checked, and applied by `body`, which takes the new record's name; an error leaves QHEAD (R72). -/
def State.takeRecord (s : State) (q kind : Nat) (body : State → Nat → List VA → State) : State :=
  let b := s.queueOf q
  if !b.eligible then s
  else match s.recordAt q with
    | none => s.queueError q 3 false
    | some ws =>
      let s := s.devSeen (BitVec.ofNat 13 b.asidLo) (addr b.qbase + BitVec.ofNat 56 (64 * (b.qhead.toNat % 2 ^ b.qlog)))
      let asid := BitVec.ofNat 13 (recAsid ws)
      if recBad b ws then s.queueError q 1 false
      else if recKind ws != kind then s.pollQueue q
      else if (recTcbs ws).any fun t => !s.tcbReadable asid t then s.queueError q 3 false
      else
        let (id, s1) := s.newId
        let r : Rec := ⟨id, q, kind, recFlags ws, asid, ws.getD 3 0, ws.getD 4 0, recVec ws, [], 0, 0, 0, 0, false⟩
        let s2 := body { s1 with recs := s1.recs ++ [r] } id (recTcbs ws)
        let last := match s2.recs.find? fun r => r.id == id with | some r => r.waiting.isEmpty && (kind != 3 || s2.firstOf r) | none => false
        let s3 := if last then s2.after 1 (.recordSettle id) else s2
        (s3.onQueue q fun b => { b with qhead := b.qhead + 1 }).pollQueue q
def execSubmitRecord (q : Nat) (s : State) : Out :=
  .next (s.takeRecord q 1 fun s id ts =>
    let asid := match s.recs.find? fun r => r.id == id with | some r => r.asid | none => 0
    ts.foldl (fun s t => s.submitTcb id q asid t) s)
/-- A CANCEL record meets one TCB (R24). -/
def State.cancelIn (s : State) (id : Nat) (tcb : VA) : State :=
  match s.recs.find? fun r => r.id == id with
  | none => s
  | some r =>
    let (k, _, s1) := s.cancelSwap none r.asid tcb
    if k = 2 then s1.setRec { r with waiting := r.waiting ++ [tcb.toNat] }
    else
      let (r1, s2) := s1.addRcomp (r.count (if k = 1 then .cancelled else .rejected))
      s2.setRec r1
def execCancelRecord (q : Nat) (s : State) : Out := .next (s.takeRecord q 2 fun s id ts => ts.foldl (fun s t => s.cancelIn id t) s)
def execMarkerRecord (q : Nat) (s : State) : Out := .next (s.takeRecord q 3 fun s _ _ => s)
/-- A cancel requested by the curator (R79). -/
def execCuratorCancel (asid : Asid) (tcb : VA) (s : State) : Out := .next (s.cancelSwap none asid tcb).2.2

/-! ### The queue's registers (R70–R72) -/

/-- A write of QTAIL: with the queue enabled and ERR zero it makes the records before it eligible. Records of a tail written at another
time stay unread, after EN or CLR too, until QTAIL is written again (DESIGN CHOICE: log entry 93). -/
def State.writeQtail (s : State) (q : Nat) (v : W32) : State :=
  let b := s.queueOf q
  let s1 := s.onQueue q fun b => { b with qtail := v }
  if 2 ^ b.qlog < (v - b.qhead).toNat then s1.queueError q 2 false
  else if b.en && b.err == 0 then (s1.onQueue q fun b => { b with seen := v }).pollQueue q
  else s1
def execQtailWrite (q : Nat) (v : W32) (s : State) : Out := .next (s.writeQtail q v)
/-- ERR 0x06 of R72; an empty range, ASIDHI below ASIDLO, is invalid too (DESIGN CHOICE: log entry 94). -/
def State.configBad (s : State) (b : QBlock) : Bool :=
  let f := s.func b.func
  16 < b.qlog || b.asidHi < b.asidLo || b.asidLo < f.asidLo || f.asidHi < b.asidHi || b.qmask &&& ~~~f.fropes ≠ 0
def State.writeEn (s : State) (q : Nat) (en : Bool) : State :=
  let s1 := s.onQueue q fun b => { b with en := en }
  if !en then s1
  else if s.configBad (s.queueOf q) then s1.queueError q 6 false
  else s1.pollQueue q
def execQueueEnable (q : Nat) (en : Bool) (s : State) : Out := .next (s.writeEn q en)
def State.clearErr (s : State) (q : Nat) : State := (s.onQueue q fun b => { b with err := 0 }).pollQueue q
def execQueueClear (q : Nat) (s : State) : Out := .next (s.clearErr q)

/-! ### The curator's bind (R13, R14, R20, R69, R73, R74) -/

/-- The first failing check of R20, with R73's check of the identifier entry at 0xE2. -/
def State.launchReason (s : State) (b : QBlock) (asid : Asid) (tcb : VA) : Option Nat :=
  let w := s.tcbWord asid tcb
  let x := w 0x38
  let id := x.extractLsb' 32 13
  let entry := s.idWord id 8
  let wins := (List.range 8).map fun k => (w (0x40 + 16 * k), w (0x48 + 16 * k))
  let pitch := (x.extractLsb' 57 4).toNat
  firstCode [
    (x.extractLsb' 45 12 ≠ 0 || (List.range 8).any fun k => w (0xC0 + 8 * k) ≠ 0, 0xE0),
    ((w 0).extractLsb' 0 2 ≠ 0 || tagOf (w 0) ≠ 0, 0xE1),
    (id.toNat < b.asidLo || b.asidHi < id.toNat || !entry.getLsbD 63 || (entry.extractLsb' 57 6).toNat != b.func, 0xE2),
    (b.qmask &&& s.tcbRopes asid tcb = 0, 0xE3),
    (294912 < (x.extractLsb' 0 32).toNat, 0xE4),
    (wins.any fun e => e.2.extractLsb' 40 24 ≠ 0 || (e.2 ≠ 0 && (descFmt e.1).isNone), 0xE5),
    (w 0x18 ≠ 0 && ((w 0x18).toNat % 8 != 0 || tagOf (w 0x18) ≠ 0), 0xE6),
    (!b.pitchOk pitch, 0xE7)]
/-- The slot the curator writes (R74), with the copy the task runs by (R13, R14); PE as the core's task stands now (R76). Its
identifier is the TCB's, though the record may name another (DESIGN CHOICE: log entry 106). -/
def State.bindRecord (s : State) (q core : Nat) (asid : Asid) (tcb : VA) (start spill : W64) : Slot :=
  let w := s.tcbWord asid tcb
  let x := w 0x38
  let c := s.core core
  { Slot.init with
    v := true, pe := c.on.isSome && c.task.prio < (s.queueOf q).eprio, prio := (s.queueOf q).eprio, pitch := x.extractLsb' 57 4,
    ctxloc := 3, asid := x.extractLsb' 32 13, queue := BitVec.ofNat 6 q, taskid := (w 0x10).extractLsb' 32 32, tcb := ofVA tcb, start := start,
    spill := spill &&& 0xFFFFFFFFFFFF0000, bind := s.binds + 1,
    copy := ⟨w 0, w 0x18, (x.extractLsb' 0 32).toNat, Vector.ofFn fun (k : Fin 8) => (w (0x40 + 16 * k.val), w (0x48 + 16 * k.val))⟩ }
/-- The curator binds the next task (R73), its START delayed by the power it has to keep to (R343); `core` and `slot` are its choice,
and a choice it may not make binds nothing. The queue counts as served also where the TCB is refused (DESIGN CHOICE: log entry 107). -/
def execCuratorBind (core slot : Nat) (start delay spill : W64) (s : State) : Out :=
  .next (
    if !s.mayBind then s
    else match s.nextQueue with
      | none => s
      | some q => match s.nextReady q with
        | none => s
        | some (asid, a) =>
          let tcb := BitVec.ofNat 56 a
          let s0 : State := { s with served := q }
          if !s.tcbReadable asid tcb then
            (((s0.unready asid tcb).ended asid tcb .failed).queueError q 8 false).callCurator
          else
            let s0 := (s0.devSeen asid tcb).devSeen asid (tcb + 128)
            match s.launchReason (s.queueOf q) asid tcb with
            | some r => (((s0.setTcb asid tcb fun x => withReason x r).unready asid tcb).ended asid tcb .failed).callCurator
            | none =>
              if Config.cores ≤ core || 11 ≤ slot || ((s.core core).slot slot).v || !s.takesBind core ||
                  !inMask ((s.queueOf q).qmask &&& s.tcbRopes asid tcb) core then s
              else
                let s1 := (s0.unready asid tcb).onCore core fun c => c.onSlot slot fun _ => s.bindRecord q core asid tcb (start + delay) spill
                (({ s1 with binds := s.binds + 1 } : State).after s.lat.home (.dispatchBind core slot)).callCurator)

/-! ### Dispatch (R75–R77, R87, R90, R93) -/

/-- A core is free: no task, no failure, no halt, no handler (R77). -/
def Core.free (c : Core) : Bool := c.on.isNone && c.failing.isNone && c.halted.isNone && !c.inHM
/-- The slot of R77 among those but one: the highest PRIO, then CTXLOC 1, 2, 3, then the lowest index. -/
def Core.best (c : Core) (but : Option Nat) : Option (Nat × Slot) :=
  c.slots.foldl (fun b e =>
    if !e.2.selectable || but = some e.1 then b
    else match b with
      | none => some e
      | some d => if d.2.prio < e.2.prio || (d.2.prio = e.2.prio && e.2.ctxloc < d.2.ctxloc) then some e else some d) none
def execDispatchBind (core slot : Nat) (s : State) : Out :=
  .next (s.bindSwapped core slot)
/-- Dispatch selects a slot for a free core (R77, R321, R324); nothing while the package is too hot (R343). -/
def execDispatchSelect (core : Nat) (s : State) : Out :=
  .next (
    let c := s.core core
    if !c.free || s.thermal = 2 then s
    else match c.best none with
      | none => s
      | some (j, t) =>
        if t.ctxloc = 3 then s.at' (max t.start.toNat (s.now + 1)) (.dispatchStart core j)
        else
          let s1 := (s.onCore core fun c => { c with incoming := some j }).after 1 (.handlerEntry core 0 3)
          if t.ctxloc = 2 then s1.after s.lat.fail (.spillLoadBack core j) else s1)
/-- TICK as it stands after a number of cycles (R98). -/
def State.tickIn (s : State) (d : Nat) : BitVec 16 :=
  s.tick + BitVec.ofNat 16 (match s.queue.find? fun e => e.2 == .tick with
    | some e => if e.1 ≤ s.now + d then 1 + (s.now + d - e.1) / Config.tickCycles else 0
    | none => 0)
/-- The lead at a first start (R75, R90). -/
def leadAt (entry : VA) (ready : Nat) : Ctx := { Ctx.init with live := true, pc := entry, readyAt := ready, anchor := true }
/-- A first start (R75, R90, R93): the write-backs, the banks, the registers, the lead, the acquire of R18. -/
def State.startTask (s : State) (n j : Nat) : State :=
  let t := (s.core n).slot j
  let S := (t.copy.scratch + 63) / 64 * 64
  let gone := Line.lost (spcfgWord S 0)
  let d := s.writeBackTime n gone + 256
  let s0 := s.giveUpLines n gone
  let s1 : State := { s0 with fresh := s0.fresh + 1 }
  let old := (s.core n).banks
  let banks : Banks := { Banks.init with
    base := ⟨s.tickIn d, false, false⟩, spcfg := spcfgWord S 0, gran := (upFrom 608 32).map fun g => (g, old.granAt g),
    bytes := old.bytes.filter fun c => saveBase ≤ c.1 }
  let s2 := s1.onCore n fun c =>
    let c1 := c.onSlot j fun t => { t with ctxloc := 0, wd := 0, event := false }
    { c1 with
      ctxs := [(0, leadAt (addr t.copy.entry) (s.now + d))], on := some j, check := 0x30, guardrec := 0,
      pitch := t.pitch.zeroExtend 64, wins := t.copy.wins, wstat := 0, utvec := 0, utmask := 0, spkeep := 0, resinfo := 0,
      banks := banks, zeroAt := s.now + d, active := Pair.init, incoming := none }
  s2.acquire n 0 .device
def execDispatchStart (core slot : Nat) (s : State) : Out :=
  .next (
    let c := s.core core
    match c.best none with
    | some (j, t) =>
      if c.free && j = slot && t.ctxloc = 3 && t.start.toNat ≤ s.now && s.thermal != 2 then
        let s1 := s.startTask core slot
        if (s1.core core).outranked then s1.request core else s1
      else s
    | none => s)

/-! ### Ageing (R78) -/

/-- AGE of a queue with a READY task of which none was bound in the interval; a task whose slot is written waits no longer (DESIGN
CHOICE: log entry 108). -/
def QBlock.interval (b : QBlock) : QBlock :=
  { b with age := if !b.ready.isEmpty && !b.bound && b.age != 0xFFFFFF then b.age + 1 else b.age, bound := false }.aged
def execAgeInterval (s : State) : Out :=
  .next (({ s with queues := s.queues.map fun e => (e.1, e.2.interval) } : State).after Config.ageCycles .ageInterval)

end Sys2Proof.Machine
end

