-- ==== Sys2Proof/Machine/Switch.lean ====
section
/-! DEFINITION. Handler entry, failure, pre-emption, the save bank, the bivouac store, the spill to HBM and the resume
(spec/15 R308, R310, R313, R316–R325, R329–R331, R367). -/

namespace Sys2Proof.Machine

/-! ### Failure (R310, R313) -/

/-- The failed task's last step: STATE, the counts, everything released, the core free; a halted core is reported and
waits for the curator. -/
def State.failNow (s : State) (n reason : Nat) : State :=
  let t := (s.core n).task
  let epc := match (s.core n).live.find? fun k => ((s.core n).ctx k).hm with | some k => (s.ctx n k).epc | none => 0
  let s1 := if (s.core n).on.isSome then (s.setTcb t.asid (addr t.tcb) fun x => withReason x reason).ended t.asid (addr t.tcb) .failed else s
  let s2 := s1.vacate n
  if (s.core n).halted.isSome then
    (s2.report 2 reason t.queue.toNat t.taskid epc (s.coord26 n)).after s.lat.fail (.haltedFaultRecovery n)
  else s2.freed n
/-- A failure that no trap brought enters the handler with ENT 4 by context 0 (R308). -/
def State.enterFailure (s : State) (n : Nat) : State :=
  (s.onCtx n 0 fun c => ({ c with live := true } : Ctx).enter s.now 4).after s.lat.fail (.taskFailure n)
/-- A failure under way (R308, R310, R332): the contexts stop, an instruction at its home first, and the vector unit drains; unstarted
commands are dropped, and a failure outside the handler enters it; started commands run to completion before the task's last step. -/
def execTaskFailure (core : Nat) (s : State) : Out :=
  .next (match (s.core core).failing with
    | none => s
    | some reason =>
      let s1 : State := { s with cmds := s.cmds.filter fun c => !(c.core == core && c.phase == .waiting) }
      let s2 := (s1.core core).live.foldl (fun s k => s.settle core k) s1
      let c := s2.core core
      if c.on.isSome && c.halted.isNone && !c.inHM then
        if c.live.any fun k => match (c.ctx k).park with | .home t => s.now < t | _ => false then s2.after 1 (.taskFailure core)
        else s2.enterFailure core
      else if s2.cmds.any fun d => d.core == core && d.bind == c.task.bind then s2.after 1 (.taskFailure core)
      else s2.failNow core reason)

/-! ### Handler entry without a trap (R308, R324, R329, R336) -/

/-- A `TRAP` of code 32–63: the post, and the resume at EPC + 4 once the report ring has taken it. -/
def State.postTrap (s : State) (n k : Nat) : State :=
  let c := s.ctx n k
  let t := (s.core n).task
  let code := (c.finfo.extractLsb' 0 6).toNat
  if !c.live || !c.hm || c.cause.extractLsb' 0 8 ≠ 0x20 || code < 32 || (s.core n).failing.isSome then s
  else if s.ringFull then s.onCore n fun c => { c with held := some (k, code) }
  else
    let s1 := s.report 1 code t.queue.toNat t.taskid c.epc (s.coord n k &&& 0x3FFFFFF)
    (s1.onCore n fun c => { c with held := none }).onCtx n k fun c =>
      { c with xstat := c.xstat &&& 0x7FFFFFFFFFFFFFFF, pc := addr c.epc + 4, readyAt := s.now }
/-- The handler of a free core is entered to bring in the task of the slot that dispatch selected (R324). -/
def State.enterResume (s : State) (n : Nat) : State :=
  let c := s.core n
  match c.incoming with
  | some j =>
    if c.free && (c.slot j).selectable && (c.slot j).ctxloc != 3 then
      s.onCore n fun c => { c with ctxs := [(0, ({ Ctx.init with live := true } : Ctx).enter s.now 3)] }
    else s
  | none => s
def execHandlerEntry (core ctx : Nat) (ent : BitVec 3) (s : State) : Out :=
  .next (if ent = 0 then s.postTrap core ctx else if ent = 3 then s.enterResume core else s)
/-- The host frees report-ring space (R336): a held post goes on. -/
def State.writeCrtail (s : State) (v : W32) : State :=
  let s1 : State := { s with regs := { s.regs with crtail := v } }
  s1.cores.foldl (fun s e => match e.2.held with | some (k, _) => s.after 1 (.handlerEntry e.1 k 0) | none => s) s1
def execCrtailWrite (v : W32) (s : State) : Out := .next (s.writeCrtail v)

/-! ### The pre-emption request is taken (R316, R317, R319) -/

/-- A context that has to go on before the task can be stopped: an instruction at its home, unstarted commands outside a region,
a lead whose bind still zeroes. -/
def State.mustFinish (s : State) (n k : Nat) : Bool :=
  let c := s.ctx n k
  s.now < (s.core n).zeroAt || c.answer.isSome || (!c.cairnV && !(s.unstarted n k).isEmpty) ||
    match c.park with | .home t => s.now < t | .cond w => s.sendHolds w.token | _ => false
/-- A context stopped (R317): words of the vector unit completed, unstarted commands dropped, its wait withdrawn. -/
def State.stopCtx (s : State) (n k : Nat) : State :=
  let s1 := s.settle n k
  let mine := fun (f : Flight) => f.core == n && f.ctx == k
  let fl := s1.flights.filter mine
  let s2 : State := { s1 with
    flights := s1.flights.filter fun f => !mine f,
    cmds := s1.cmds.filter fun c => !(c.core == n && c.ctx == k && c.phase == .waiting) }
  (s2.unaskLease n k).onCtx n k fun c =>
    let c1 := c.landRest
    let left := match c.park with
      | .cond w => match w.limit with | some l => some (c.pc.toNat, l - (s.now - w.since)) | none => c.left
      | _ => c.left
    let park := match c.park with | .belay a b g => .belay a b g | .pageFault a b w => .pageFault a b w | _ => .no
    { c1 with left := left, park := park, dly := false, fbuf := [], replay := fl }
/-- Unstarted commands of a core's contexts that stand in a region are dropped (R316). -/
def State.dropRegional (s : State) (n : Nat) : State :=
  { s with cmds := s.cmds.filter fun c => !(c.core == n && c.phase == .waiting && (s.ctx n c.ctx).cairnV) }
/-- The request is taken, and the handler entered with ENT 2 once every context has stopped. -/
def execPreemptTake (core : Nat) (s : State) : Out :=
  .next (
    let c := s.core core
    let again := fun (s : State) => s.after 1 (.preemptTake core)
    if !c.preempt || c.on.isNone || c.failing.isSome || c.halted.isSome then
      s.onCore core fun c => { c with preempt := false }
    else if c.inHM then again s
    else
      let s1 := (s.dropLease core).dropRegional core
      if c.live.any fun k => s1.mustFinish core k then again s1
      else
        let s2 := c.live.foldl (fun s k => s.stopCtx core k) s1
        s2.onCore core fun c =>
          let c1 := c.spillInbox fun _ => true
          { c1.setCtx 0 ((c1.ctx 0).enter s.now 2) with stopped := some (c1.ctx 0), preempt := false })

/-! ### CTXSV and CTXLD (R318, R330) -/

/-- The registers that are saved (R318). -/
def Ctx.saved (c : Ctx) : Ctx :=
  let keep := (match c.park with | .belay _ _ _ => true | .pageFault _ _ _ => true | _ => false) || !c.replay.isEmpty
  if c.cairnV && !keep then (match c.image with | some i => c.fromImage i | none => c) else c
/-- Context 0 as it stood when it was stopped, with what the handler has made of its registers. -/
def Ctx.behind (c : Ctx) (st : Option Ctx) : Ctx :=
  match st with
  | none => c
  | some t => { c with pc := t.pc, park := t.park, word := t.word, left := t.left, replay := t.replay, fault := t.fault, defer := t.defer,
                       suppress := t.suppress, issued := t.issued, floors := t.floors,
                       xstat := (c.xstat &&& 0xBFFFFFFFFFFFFFFF) ||| (t.xstat &&& 0x4000000000000000) }
/-- The set of context k. -/
def Core.setOf (c : Core) (k : Nat) : SavedCtx := ⟨k, (if k = 0 then (c.ctx 0).behind c.stopped else c.ctx k).saved⟩
/-- The task area (R318). -/
def Core.areaNow (c : Core) : TaskArea :=
  { wstat := c.wstat, guardrec := c.guardrec, check := c.check, utvec := c.utvec, utmask := c.utmask, spkeep := c.spkeep,
    resinfo := c.resinfo, live := c.live.foldl (fun m k => m ||| ((1 : BitVec 11) <<< k)) 0 }
/-- The contexts a mask names. -/
def maskCtxs (x : W64) : List Nat := (List.range 11).filter fun k => x.getLsbD k
/-- B of R330: the bytes of the selected sets plus 512. -/
def setBytes (ks : List Nat) : Nat := (ks.map fun k => if k = 0 then 2496 else 928).foldl (· + ·) 0 + 512
/-- An empty image of a slot. -/
def Image.empty (slot : Nat) : Image :=
  { slot := slot, ctxs := [], area := .init, banks := .init, pair := .init, tsave := 0, lost := false, hbm := false, bad := [] }
/-- Where the set of context `k` begins in the save bank, and its bytes (R318). -/
def setPlace (k : Nat) : Nat × Nat := if k = 0 then (0, 2496) else (0x9C0 + 0x3A0 * (k - 1), 928)
/-- The ranges that `CTXSV` writes and `CTXLD` reads for a mask: its sets and the task area. -/
def setPlaces (ks : List Nat) : List (Nat × Nat) := ks.map setPlace ++ [(0x2E00, 512)]
/-- A 64-bit word of the save bank lies in one of the ranges. -/
def inPlaces (w : Nat) (ps : List (Nat × Nat)) : Bool := ps.any fun p => p.1 ≤ 8 * w && 8 * w < p.1 + p.2
/-- The save bank with the selected sets written into it. -/
def Core.saveSets (c : Core) (ks : List Nat) (tick : BitVec 16) : Image :=
  let j := c.on.getD 0
  let old := match c.save with | some i => if i.slot = j then i.ctxs else [] | none => []
  let bad := match c.save with | some i => i.bad.filter fun w => !inPlaces w (setPlaces ks) | none => []
  { Image.empty j with ctxs := old.filter (fun e => !ks.contains e.idx) ++ ks.map c.setOf, area := c.areaNow, tsave := tick, bad := bad }
/-- The save bank written whole, which stamps its granules (R101, R318). -/
def Banks.stampSave (b : Banks) (tick : BitVec 16) : Banks := (upFrom 608 32).foldl (fun b g => b.setGran g ⟨tick, false, false⟩) b
/-- The registers of a set as bytes, in the order of R318; a helper has v0–v7 and p0–p3. -/
def SavedCtx.bytes (x : SavedCtx) : List Byte :=
  let c := x.ctx
  c.g.toList.flatMap (fun w => leBytes 8 w.toNat) ++
    (c.v.toList.take (if x.idx = 0 then 32 else 8)).flatMap (fun l => l.toList.flatMap fun w => leBytes 4 w.toNat) ++
    ((List.range (if x.idx = 0 then 8 else 4)).flatMap fun k => leBytes 8 (c.pget (BitVec.ofNat 3 k)).toNat)
/-- The bytes of bank 19 that `CTXSV` writes: a set's registers and its control area, and the task area (R318). The manual gives no
layout of a control area and of the task area: their bytes are free (DESIGN CHOICE: log entry 10). -/
def Banks.saveBytes (b : Banks) (f : Nat) (sets : List SavedCtx) : Banks :=
  let free := fun (off n : Nat) => (List.range n).map fun i => Config.spillByte f (off + i)
  let put := fun (m : List Host.Cell) (x : SavedCtx) =>
    let p := setPlace x.idx
    cellsPut m (saveBase + p.1) (x.bytes ++ free (p.1 + p.2 - 128) 128)
  { b with bytes := cellsPut (sets.foldl put b.bytes) (saveBase + 0x2E00) (free 0x2E00 512) }
def execCtxsv (st : Stall) (a : Reg) (s : State) : Out :=
  .next (s.issue (.ctxsv st a) fun s => s.handlerOnly fun s =>
    let x := s.g a
    let ks := maskCtxs x
    if x.extractLsb' 11 53 ≠ 0 || ks.any fun k => k != 0 && !s.myCore.isLive k then s.illegal (wordOf (.ctxsv st a))
    else
      let (f, s1) := s.freshen
      ((s1.onMyCore fun c => { c with
        save := some (c.saveSets ks s.tick), banks := (c.banks.saveBytes f (ks.map c.setOf)).stampSave s.tick }).done st).parkHome
        (4 + ceilDiv (setBytes ks) 64))
/-- A context loaded from the save bank. -/
def Image.ctxAt (i : Image) (k : Nat) : Ctx := match i.ctxs.find? fun e => e.idx == k with | some e => e.ctx | none => Ctx.init
/-- The core with the selected sets and the task area loaded; exactly the selected contexts are live, and the context in the handler
goes on there. -/
def Core.loadSets (c : Core) (i : Image) (ks : List Nat) (h : Nat) : Core :=
  let ctxs := (List.range 11).filterMap fun k =>
    if k = h then
      let me := c.ctx k
      let l := i.ctxAt k
      some (k, if ks.contains k then
        { l with live := true, pc := me.pc, hg := me.hg, readyAt := me.readyAt, park := .no, replay := [], fault := none, answer := none,
                 left := none, fbuf := [], xstat := (me.xstat &&& 0xBFFFFFFFFFFFFFFF) ||| (l.xstat &&& 0x4000000000000000) }
        else { me with live := false })
    else if ks.contains k then some (k, { i.ctxAt k with live := true })
    else (Table.find? k c.ctxs).map fun x => (k, { x with live := false })
  { c with
    ctxs := ctxs, stopped := if ks.contains h then some (i.ctxAt h) else c.stopped, wstat := i.area.wstat, guardrec := i.area.guardrec,
    check := i.area.check, utvec := i.area.utvec, utmask := i.area.utmask, spkeep := i.area.spkeep, resinfo := i.area.resinfo }
def execCtxld (st : Stall) (a : Reg) (s : State) : Out :=
  .next (s.issue (.ctxld st a) fun s => s.handlerOnly fun s =>
    let x := s.g a
    let ks := maskCtxs x
    let i := s.myCore.save.getD (Image.empty 0)
    if x.extractLsb' 11 53 ≠ 0 then s.illegal (wordOf (.ctxld st a))
    else if i.bad.any fun w => inPlaces w (setPlaces ks) then s.fail s.act.1 0x13
    else ((s.done st).onMyCore fun c => c.loadSets i ks s.act.2).parkHome (4 + ceilDiv (setBytes ks) 64))

/-! ### The bivouac store (R320, R321, R367) -/

/-- Stale granules keep EXP (R102). -/
def Banks.expire (b : Banks) (tick : BitVec 16) : Banks :=
  let mark := fun (g : Gran) => if g.stale tick then { g with exp := true } else g
  { b with base := mark b.base, gran := b.gran.map fun e => (e.1, mark e.2) }
/-- Banks written into the core: every granule that is not stale is stamped, and every FIFO entry (R99, R320). -/
def Banks.restamp (b : Banks) (tick : BitVec 16) : Banks :=
  let mark := fun (g : Gran) => if g.exp then g else { g with stamp := tick }
  { b with base := mark b.base, gran := b.gran.map fun e => (e.1, mark e.2),
           fifo := b.fifo.map fun e => (e.1, e.2.map fun x => { x with stamp := tick }) }
/-- A write into the core's scratch is still due (R367). -/
def State.scratchDue (s : State) (n : Nat) : Bool :=
  (s.queue.any fun e => match e.2 with
    | .ropeNetStoreArrival k _ _ => k == n
    | .queueEntryArrival k _ _ _ => k == n
    | .seqsetTagWrite k _ _ _ => k == n
    | _ => false) ||
  (s.cmds.any fun c =>
    let here := c.writes.any fun w => match w with | .scratch k _ _ _ _ => k == n | .mem _ _ => false
    let bumps := match c.comp with | some (a, _) => inLocal (addr a) | none => false
    here || (c.core == n && (c.phase == .waiting || s.now < c.fedBy || (isCopy c.instr && bumps) || (c.phase == .held && c.src.isEmpty)))) ||
  (s.xfers.any fun x => x.core == n && !x.mcast && inLocal (addr x.dst)) ||
  s.rounds.any fun r => r.sent && (match r.key with | .rope _ _ _ => true | .group _ => false) && r.members.any fun m => m.core == n
/-- Every started array and ladder command has settled (R320). -/
def State.tilesSettled (s : State) (n : Nat) : Bool :=
  (s.core n).active.t0.settled ≤ s.now && (s.core n).active.t1.settled ≤ s.now &&
    !s.cmds.any fun c => c.core == n && c.phase == .running && !isCopy c.instr
/-- The slot that the exchange brings in: the one selected for a free core, else the best but the outgoing one, and none where the
outgoing one is better still, because the slot that pre-empted it is gone (R77, R83). -/
def State.comingIn (s : State) (n : Nat) : Option (Nat × Slot) :=
  let c := s.core n
  if s.thermal = 2 then none
  else match c.on with
    | some j => (c.best (some j)).filter fun e => !(c.slot j).v || (c.slot j).prio < e.2.prio
    | none => c.incoming.map fun j => (j, c.slot j)
/-- What the bivouac store still needs before the exchange, and whether it is ready; with nothing going out and nothing coming in, it
keeps what it holds. -/
def State.prepare (s : State) (n : Nat) : Bool × State :=
  let c := s.core n
  let post := fun (e : Ev) (d : Nat) => if s.queue.any fun x => x.2 == e then s else s.after d e
  match s.comingIn n, c.biv with
  | some (j, t), some i =>
    if t.ctxloc != 3 && i.slot = j then (true, s) else (false, post (.bivouacSpill n) s.lat.fail)
  | some (j, t), none => if t.ctxloc = 3 then (true, s) else (false, post (.spillLoadBack n j) s.lat.fail)
  | none, some _ => if c.on.isNone then (true, s) else (false, post (.bivouacSpill n) s.lat.fail)
  | none, none => (true, s)
/-- The exchange (R320) (DEDUCED: log entry 59). -/
def State.exchange (s : State) (n : Nat) : State :=
  let inc := s.comingIn n
  if inc.isNone && (s.core n).on.isNone then s.onCore n fun c => { c with save := none, restored := none, incoming := none, preempt := false }
  else s.onCore n fun c =>
    let out := match c.on with
      | some j => some { c.save.getD (Image.empty j) with slot := j, banks := c.banks.expire s.tick, tsave := s.tick, hbm := false, lost := false }
      | none => none
    let back := match inc, c.biv with | some (j, t), some i => if t.ctxloc != 3 && i.slot = j then some i else none | _, _ => none
    let c1 := match c.on with | some j => c.onSlot j fun t => { t with ctxloc := 1 } | none => c
    let c2 := { c1 with biv := out, active := c1.shadow, shadow := c1.active }
    match back with
    | some i =>
      let c3 := c2.onSlot i.slot fun t => { t with ctxloc := 0, hbm := none }
      { c3 with on := some i.slot, banks := i.banks.restamp s.tick, save := some i, restored := some i, incoming := none, preempt := false,
                pitch := (c3.slot i.slot).pitch.zeroExtend 64, wins := (c3.slot i.slot).copy.wins }
    | none => { c2 with on := none, banks := Banks.init, save := none, restored := none, incoming := none, preempt := false }
/-- Data begins to move: the lines of the cache ways are given up, and the exchange ends 1,536 cycles later, or when their
write-backs are acknowledged (R320). The mark in `answer` says that it has begun. -/
def State.beginExchange (s : State) (n : Nat) : State :=
  let d := max 1536 (s.writeBackTime n fun _ => true)
  let s1 := s.giveUpLines n fun _ => true
  ({ s1 with fresh := s1.fresh + 1 }.onMe fun c => { c with answer := some (0, 0, 0) }).parkHome d
/-- `BXCH` ends at the latest of the four times of R320; until then the task counts as on the core (R325). -/
def execBxch (st : Stall) (s : State) : Out :=
  .next (s.issue (.bxch st) fun s => s.handlerOnly fun s =>
    let n := s.act.1
    let (ready, s1) := s.prepare n
    if !ready || s1.scratchDue n then s1.parkDrain
    else if s1.me.answer.isNone then s1.beginExchange n
    else if !s1.tilesSettled n then s1.parkDrain
    else (s1.exchange n).done st)
/-- What is kept of an image that goes to HBM (R321, R359): granules that SPKEEP names, every slot tag, and the other
granules as zero with EXP (DEDUCED: log entry 68). -/
def Image.trimmed (i : Image) : Image :=
  let b := i.banks
  let off := (i.area.spkeep.extractLsb' 0 10).toNat
  let len := (i.area.spkeep.extractLsb' 32 10).toNat
  let n := (b.slen + 511) / 512
  let kept := fun g => off ≤ g && g < off + len && g < n
  let gone : Gran := ⟨0, true, false⟩
  let lost := i.lost || (List.range n).any fun g => !kept g && !(b.granAt g).exp
  { i with
    lost := lost, hbm := true,
    banks := { b with
      bytes := b.bytes.filter fun c => kept (c.1 / 512) || saveBase ≤ c.1, base := gone,
      gran := (((List.range n).filter kept) ++ upFrom 608 32).map fun g => (g, b.granAt g) } }
/-- The header and the register image go to the lower 32 KiB of the spill area; the manual gives no layout of the header or of a
control area, so the bytes are free (R321, DESIGN CHOICE: log entry 10). -/
def State.spillBytes (s : State) (pa : Nat) : State :=
  let (f, s1) := s.freshen
  { s1 with mem := cellsPut s1.mem pa ((List.range 32768).map (Config.spillByte f)) }
/-- The curator spills the bivouac store's task to HBM (R321). -/
def State.spillOut (s : State) (n : Nat) : State :=
  match (s.core n).biv with
  | none => s
  | some i => (s.spillBytes ((s.core n).slot i.slot).spill.toNat).onCore n fun c =>
    let img := { i.trimmed with pair := c.shadow }
    { c.onSlot i.slot fun t => { t with ctxloc := 2, hbm := some img } with biv := none, shadow := Pair.init }
def execBivouacSpill (core : Nat) (s : State) : Out := .next (s.spillOut core)
/-- The rope's ladder store has room for an image's configuration. -/
def State.ladderRoom (s : State) (n : Nat) (i : Image) : Bool :=
  let size := fun (o : Option Ladder) => match o with | some l => l.space | none => 0
  s.ladderUsed n + size (s.core n).active.ladder + size i.pair.ladder ≤ 262144
/-- A spilled image comes back into the bivouac store (R321); it waits until there is room. Its copy in HBM stays until the exchange
(R81). -/
def execSpillLoadBack (core slot : Nat) (s : State) : Out :=
  .next (
    let t := (s.core core).slot slot
    match t.hbm with
    | none => s
    | some i =>
      if !t.v || t.ctxloc != 2 then s
      else if (s.core core).biv.isSome || !s.ladderRoom core i then
        (match (s.core core).biv with
          | some b => if b.slot = slot then s else s.after s.lat.fail (.spillLoadBack core slot)
          | none => s.after s.lat.fail (.spillLoadBack core slot))
      else s.onCore core fun c => { c with biv := some i, shadow := i.pair })

/-! ### The end of the handler (R331, R323) -/

/-- A context resumes as its kind gives (R139, R140, R142, R317). -/
def State.resumeCtx (s : State) (n k : Nat) (c : Ctx) : State :=
  let c0 := { c with live := true, xstat := c.xstat &&& 0x7FFFFFFFFFFFFFFF, dly := false, anchor := true, fbuf := [], readyAt := s.now + 1 }
  match c.replay, c.park with
  | _ :: _, _ =>
    let s1 := s.setCtx n k { c0 with park := .no, replay := [] }
    State.settle { s1 with flights := s1.flights ++ c.replay.map fun f => { f with stuck := false } } n k
  | [], .belay _ _ _ => s.setCtx n k c0
  | [], .pageFault _ _ _ => s.setCtx n k { c0 with park := .no }
  | [], _ =>
    if c.cairnV then
      let c1 := { c0.atCairn c.rcnt with left := c.left }
      if c.cairnpc.getLsbD 62 && !s.holdsLease n then (s.askLease n k).setCtx n k { c1 with park := .retry s.now true }
      else s.setCtx n k { c1 with park := .no }
    else s.setCtx n k { c0 with park := .no }
/-- RESINFO after a resume (R323). -/
def resinfoAfter (x : W64) (i : Image) (tick : BitVec 16) : W64 :=
  let n := min 0xFFFF ((x.extractLsb' 48 16).toNat + 1)
  BitVec.ofNat 64 (n * 2 ^ 48 + (if i.hbm then 2 ^ 39 else 0) + (if i.lost then 2 ^ 38 else 0) + i.tsave.toNat * 2 ^ 16 + tick.toNat)
/-- (DEDUCED: log entry 60) -/
def execCresume (st : Stall) (s : State) : Out :=
  .next (s.issue (.cresume st) fun s => s.handlerOnly fun s =>
    let n := s.act.1
    let c := s.core n
    match c.restored with
    | some i =>
      let s1 := s.onCore n fun c => { c with restored := none, stopped := none, resinfo := resinfoAfter c.resinfo i s.tick }
      let s2 := (c.live.foldl (fun s k => s.resumeCtx n k (if k = s.act.2 then (c.ctx k).behind c.stopped else c.ctx k)) s1).onMe fun c =>
        { c with readyAt := max c.readyAt (s.now + 1 + st.toNat) }
      let s3 := s2.onCore n fun c => { c with ctxs := c.ctxs.map fun e => (e.1, if e.2.live then e.2 else { e.2 with xstat := e.2.xstat &&& 0x7FFFFFFFFFFFFFFF }) }
      if (s3.core n).outranked || s3.thermal = 2 then s3.request n else s3
    | none =>
      let s1 := s.onCore n fun c => { c with
        stopped := none, ctxs := c.ctxs.map fun e => (e.1, { e.2 with live := false, xstat := e.2.xstat &&& 0x7FFFFFFFFFFFFFFF, park := .no }) }
      s1.after 1 (.dispatchSelect n))

/-! ### Leaving halted-fault (R313) -/

/-- What a halted core holds is zeroed; `keep`: the bivouac store is not. -/
def Core.wiped (c : Core) (keep : Bool) : Core :=
  { c with
    ctxs := [], check := 0, guardrec := 0, pitch := 0, wins := Vector.replicate 8 (0, 0), wstat := 0, utvec := 0, utmask := 0,
    spkeep := 0, resinfo := 0, banks := Banks.init, renewing := [], lines := [], active := Pair.init, save := none, halted := none, badWords := [],
    biv := if keep then c.biv else none, shadow := if keep then c.shadow else Pair.init }
/-- The curator spills the bivouac image, rewrites the handler region, zeroes the core and frees it. -/
def execHaltedFaultRecovery (core : Nat) (s : State) : Out :=
  .next (if (s.core core).halted.isNone || (s.core core).failing.isSome then s
    else
      let s1 := (s.spillOut core).onCore core fun c => { c.wiped false with stopped := none, restored := none, incoming := none }
      s1.freed core)

end Sys2Proof.Machine
end

