-- ==== Sys2Proof/Machine/Upkeep.lean ====
section
/-! DEFINITION. What the device does by itself as time passes and what the curator answers: the tick, retention, page
faults, translation invalidation, heat, migration, retirement and uncorrectable errors (spec/05 R98–R102; spec/04 R80;
spec/11 R215, R219, R220, R227–R232; spec/15 R314, R326; spec/16 R343). -/

namespace Sys2Proof.Machine

/-! ### Retention (R98, R101) -/

/-- A granule of scratch, of a FIFO bank or of the save bank. -/
def Banks.kept (b : Banks) (g : Nat) : Bool := 512 * g < b.slen || b.role (g / 32) == 2 || b.role (g / 32) == 3
/-- The checker's visit of one granule: EXP is set when the age exceeds 60; not while the zeroing of a bind stamps (R93). -/
def execGranuleCheckerVisit (core g : Nat) (s : State) : Out :=
  .next (s.onCore core fun c =>
    if c.zeroAt ≤ s.now && c.banks.kept g && (c.banks.granAt g).stale s.tick then
      { c with banks := c.banks.setGran g { c.banks.granAt g with exp := true } }
    else c)
def Line.age (l : Line) (tick : BitVec 16) : Nat := (tick - l.stamp).toNat
def Core.lineAt (c : Core) (asid : Asid) (line : Nat) : Option Line := c.lines.find? fun l => l.asid == asid && l.line == line
/-- A dirty line of age 48 is written back and becomes clean. -/
def execCacheLineSweep (core : Nat) (asid : Asid) (line : Nat) (s : State) : Out :=
  .next (match (s.core core).lineAt asid line with
    | some l =>
      if l.dirty && 48 ≤ l.age s.tick then
        (s.writeBackAll (rangeKeys asid (line * 128) (line * 128 + 128))).onCore core fun c => { c with
          lines := c.lines.map fun x => if x.asid = asid && x.line = line then { x with dirty := false } else x }
      else s
    | none => s)
/-- A clean line older than 60 becomes invalid. -/
def execCacheLineExpire (core : Nat) (asid : Asid) (line : Nat) (s : State) : Out :=
  .next (match (s.core core).lineAt asid line with
    | some l =>
      if !l.dirty && 60 < l.age s.tick then
        s.onCore core fun c => { c with lines := c.lines.filter fun x => !(x.asid == asid && x.line == line) }
      else s
    | none => s)
def FifoEnt.old (e : FifoEnt) (tick : BitVec 16) : Bool := 48 ≤ (tick - e.stamp).toNat
/-- Unread entries of a FIFO bank that have reached age 48 go to the task's spill area, in arrival order. -/
def execFifoEntrySpill (core bank : Nat) (s : State) : Out :=
  .next (s.onCore core fun c =>
    if c.banks.role bank ≠ 2 then c
    else if bank = 18 then c.spillInbox fun e => e.old s.tick
    else c.spillQueue (17 - bank) fun e => e.old s.tick)

/-! ### The tick (R80, R98, R227, R343) -/

/-- SLICE of the queue of the task on a core. -/
def State.sliceOf (s : State) (c : Core) : Nat := ((s.queueOf c.task.queue.toNat).slice.extractLsb' 0 32).toNat
/-- Steps that a tick makes due on one core: the watchdog, the sweeper, the expiry of lines, the FIFO banks. -/
def State.dueOn (s : State) (n : Nat) : List Ev :=
  let c := s.core n
  let dog := match c.on with
    | some j => if s.sliceOf c != 0 && s.sliceOf c < c.task.wd then [.watchdogExpiry n j] else []
    | none => []
  dog ++
  (c.lines.filterMap fun l =>
    if l.dirty && 48 ≤ l.age s.tick then some (.cacheLineSweep n l.asid l.line)
    else if !l.dirty && 60 < l.age s.tick then some (.cacheLineExpire n l.asid l.line) else none) ++
  (c.banks.fifo.filterMap fun b => if b.2.any fun e => e.old s.tick then some (.fifoEntrySpill n b.1) else none)
/-- HL of R227. -/
def HostRegs.halving (r : HostRegs) : Nat :=
  let h := (r.heatctl.extractLsb' 0 5).toNat
  if 10 ≤ h && h ≤ 20 then h else 20
/-- Steps that the tick of a number makes due in the package. -/
def State.dueAll (s : State) (k : Nat) : List Ev :=
  (if k % 2 ^ s.regs.halving = 0 then [.heatHalve] else []) ++
  (if k % 1024 = 0 then [.heatArrayWrite 0, .heatArrayWrite 1, .heatArrayWrite 2, .heatArrayWrite 3] else []) ++
  (if k % 100 = 0 then [.telemUpdate (Config.watts s.fresh) (Config.celsius s.fresh)] else [])
/-- TICK rises by one on every core; the checker visits every granule; every slot whose task is on its core counts (DEDUCED: log entry 5). -/
def execTick (s : State) : Out :=
  .next (
    let t := s.tick + 1
    let s1 := ({ s with
      tick := t, fresh := s.fresh + 1,
      cores := s.cores.map fun e =>
        let c := e.2.onTask fun j => { j with wd := j.wd + 1 }
        (e.1, { c with banks := if c.zeroAt ≤ s.now then c.banks.expire t else c.banks }) } :
        State).after Config.tickCycles .tick
    let due := (s1.cores.flatMap fun e => s1.dueOn e.1) ++ s1.dueAll (s.now / Config.tickCycles)
    due.foldl (fun s e => s.at' s.now e) s1)
/-- TELEM (R343). -/
def execTelemUpdate (watts : BitVec 12) (temp : BitVec 8) (s : State) : Out :=
  .next { s with regs := { s.regs with telem := watts.zeroExtend 64 ||| (temp.zeroExtend 64 <<< 16) } }

/-! ### The curator's answer to a page fault (R180, R251, R314) -/

/-- Held vector accesses of a context go again. -/
def State.release' (s : State) (n k : Nat) : State :=
  { s with flights := s.flights.map fun f => if f.core = n && f.ctx = k then { f with stuck := false } else f }
/-- The entry is written, and what waited for it goes on: a context at its word, vector accesses in issue order, a copy (DEDUCED: log entry 65). -/
def execPageFaultAnswer (who : FaultWho) (pte : Nat) (w0 w8 : W64) (s : State) : Out :=
  .next (
    let s1 := (s.setPhys pte 8 w0.toNat).setPhys (pte + 8) 8 w8.toNat
    match who with
    | .ctx n k =>
      let s2 := s1.onCtx n k fun c => match c.park with
        | .pageFault _ _ _ => { c with park := .no, readyAt := max c.readyAt s.now }
        | _ => c
      (s2.release' n k).settle n k
    | .cmd n id =>
      match s1.cmds.find? fun c => c.id == id && c.core == n && c.phase == .held with
      | some c => s1.startWith (s1.bodyOf c).1 (s1.bodyOf c).2 false
      | none => s1)
/-- The address a held vector access faults at. -/
def State.faultVA (s : State) (f : Flight) : VA :=
  let at' := fun (k : Kind) (p : W64) (sc : Bool) (idx : List Nat) (m : BitVec 16) =>
    let ls := (lanesOf p sc idx m).map fun l => if sc && k = .write then l.forStore (vfmt p).1 else l
    match s.lanesStop f.core k ls with | some (.inr (va, _)) => va | some (.inl _) => f.acc.va | none => f.acc.va
  match f.kind with
  | .vload _ p sc idx m => at' .read p sc idx m
  | .vstore _ p sc idx m _ => at' .write p sc idx m
  | .load _ _ => f.acc.va
  | .store => f.acc.va
  | .atomic _ _ _ _ => f.acc.va
def Flight.cause (f : Flight) : Nat := match f.kind with | .vstore _ _ _ _ _ _ => 0x05 | _ => 0x04
/-- The curator denies the fault: the context, or the issuer of the copy, takes cause 0x04 or 0x05, and the task fails. -/
def execPageFaultDenial (who : FaultWho) (s : State) : Out :=
  .next (match who with
    | .ctx n k =>
      let c := s.ctx n k
      match c.park, (s.flightsOf n k).find? fun f => f.stuck with
      | .pageFault _ x w, _ => s.takeTrap n k ⟨if w then 0x05 else 0x04, x, 0⟩ c.pc false false false
      | _, some f =>
        let s1 : State := { s with flights := s.flights.filter fun g => !(g.core == n && g.ctx == k && f.id ≤ g.id) }
        s1.reportImprecise n k ⟨f.cause, ofVA (s.faultVA f), f.word.zeroExtend 64, f.seq⟩
      | _, none => s
    | .cmd n id =>
      match s.cmds.find? fun c => c.id == id && c.core == n && c.phase == .held with
      | some c => match s.bodyOf c with
        | (_, .hold va w) => s.cmdFault c ⟨if w then 0x05 else 0x04, ofVA va, 0⟩
        | (c1, r) => s.startWith c1 r false
      | none => s)

/-! ### Classification and invalidation (R215, R219, R220) -/

/-- A page becomes SHARED. -/
def execPageReclassify (asid : Asid) (va : VA) (s : State) : Out :=
  .next (match s.walk asid va with
    | some e => if hasOrder e (e.pa va) && !e.sh then s.reclassify asid va e else s
    | none => s)
/-- The size exponent of the page an address lies in: the greatest among the cached entries and the table's. -/
def State.pageSize (s : State) (asid : Asid) (va : VA) : Nat :=
  let cached := (s.tlb.filter fun t => t.asid == asid && (Pte.mk t.pte t.w0 t.w8).covers va).map fun t => (t.w0.extractLsb' 61 2).toNat
  let table := match s.walk asid va with | some e => [e.sz] | none => []
  szBits ((cached ++ table).foldl max 0)
/-- Every context of the package that runs in an identifier has its accesses performed, and every copy its writes to memory. -/
def State.settleAsid (s : State) (asid : Asid) : State :=
  let s1 := (s.flights.filter fun f => f.asid == asid).foldl (fun s f => s.settle f.core f.ctx) s
  (s1.cmds.filter fun c => c.asid == asid && c.phase == .running && c.writes.any CmdWrite.toMem).foldl State.landMem s1
/-- What the device does before GO clears (R215): accesses under the old entry performed, dirty bytes written back, held
lines and translations dropped, decrements that the page's translation waits on performed. -/
def State.invalidate (s : State) (asid : Asid) (va : Option VA) : State :=
  let k := match va with | some a => s.pageSize asid a | none => 0
  let inPage := fun (a : Nat) => match va with | some b => a / 2 ^ (16 + k) == b.toNat / 2 ^ (16 + k) | none => true
  let keys := fun key => match va with | some a => pageKeys asid a k key | none => asidKeys asid key
  let s1 := ((s.settleAsid asid).writeBackAll keys).dropLocs keys
  let s2 := (s1.dropLines fun a l => a == asid && inPage (l * 128)).dropXlat asid va
  let due := s2.decs.filter fun d => d.1 == asid && inPage d.2.1
  due.foldl (fun s d => (State.decrement { s with decs := s.decs.erase d } [] d.1 (BitVec.ofNat 56 d.2.1) d.2.2).2) s2
/-- A write that sets GO, by the physical function or a virtual function within its range. -/
def State.xlatGo (s : State) (func : Option (BitVec 6)) (all : Bool) : State :=
  let a := (s.regs.xreg.extractLsb' 0 13).toNat
  let foreign := match func with
    | none => false
    | some f => a < (s.func f.toNat).asidLo || (s.func f.toNat).asidHi < a
  if s.regs.xreg.getLsbD 63 || foreign then s
  else
    let x := (s.regs.xreg &&& 0x1FFF) ||| (if all then 0xC000000000000000 else 0x8000000000000000)
    ({ s with regs := { s.regs with xreg := x } } : State).after s.lat.xlat .xlatInvalidateComplete
def execXlatInvalidatePage (func : Option (BitVec 6)) (s : State) : Out := .next (s.xlatGo func false)
def execXlatInvalidateAll (func : Option (BitVec 6)) (s : State) : Out := .next (s.xlatGo func true)
def execXlatInvalidateComplete (s : State) : Out :=
  .next (
    let x := s.regs.xreg
    if !x.getLsbD 63 then s
    else
      let s1 := s.invalidate (x.extractLsb' 0 13) (if x.getLsbD 62 then none else some (addr s.regs.xva))
      { s1 with regs := { s1.regs with xreg := x &&& 0x7FFFFFFFFFFFFFFF } })

/-! ### Heat (R227) -/

/-- (DEDUCED: log entry 67) -/
def execHeatHalve (s : State) : Out := .next { s with heat := s.heat.map fun e => (e.1, (e.2.1 / 2, e.2.2 / 2)) }
/-- The physical page of a heat index. -/
def heatPage (i : Nat) : Nat := if i < 2 ^ 23 then i * 2 ^ 16 else 2 ^ 40 + (i - 2 ^ 23) * 2 ^ 16
/-- An address of the heat array that holds the counts of a die's pages. -/
def State.heatCell (s : State) (die a : Nat) : Bool :=
  let o := a - s.regs.heatbase.toNat
  s.regs.heatbase.toNat ≤ a && o < 4 * 75497472 && homeDie (heatPage (o / 4)) == die
/-- A die's counts go to the array, zero for a page that has none; while EN is clear nothing is written (DEDUCED: log entry 72). -/
def execHeatArrayWrite (die : Nat) (s : State) : Out :=
  .next (
    if !s.regs.heatctl.getLsbD 63 then s
    else
      let s1 : State := { s with mem := s.mem.filter fun c => !s.heatCell die c.1 }
      (s.heat.filter fun e => homeDie (heatPage e.1) == die).foldl (fun s e =>
        s.setPhys (s.regs.heatbase.toNat + 4 * e.1) 4 (e.2.1 * 2 ^ 16 + e.2.2)) s1)

/-! ### Migration (R228, R229) -/

/-- `n` bytes of physical memory. -/
def State.physBytes (s : State) (pa : Nat) : Nat → List Byte
  | 0 => []
  | n + 1 => s.byte pa :: s.physBytes (pa + 1) n
def State.setBytes (s : State) (pa : Nat) (bs : List Byte) : State := { s with mem := cellsPut s.mem pa bs }
/-- A page's bytes in another format (R229). -/
def transcode (sf : Fmt) (sb : Nat) (tf : Fmt) (tb : Nat) (bs : List Byte) : List Byte :=
  let n := if sb = 0 then 65536 * 8 / sf.bits else 65536 / blockBytes sf sb * 2 ^ sb
  encodeRow tf tb (decodeRow sf sb n bs)
/-- A page moves: its words keep their home order, no copy of them is left, and a decrement on its way goes where the page is
(R17, R229, R263). -/
def State.movePage (s : State) (asid : Asid) (va : VA) (old new : Nat) : State :=
  let there := fun (pa : Nat) => if pa / 65536 = old / 65536 then new / 65536 * 65536 + pa % 65536 else pa
  let loc := fun (s : State) (l : Loc) => let l1 := s.synced { l with pa := there l.pa }; { l1 with least := l1.top }
  let s1 : State := { s with
    locs := s.locs.map fun e => if pageKeys asid va 0 e.1 then (e.1, loc s e.2) else e
    decs := s.decs.map fun d => if d.1 == asid && d.2.1 / 65536 == va.toNat / 65536 then (d.1, d.2.1, there d.2.2) else d
    queue := s.queue.map fun e => match e.2 with
      | .predsDecrement a t pa => if a == asid && t.toNat / 65536 == va.toNat / 65536 then (e.1, .predsDecrement a t (there pa)) else e
      | _ => e }
  (s1.dropLines fun a l => a == asid && l / 512 == va.toNat / 65536).dropXlat asid (some va)
/-- What becomes of a request: its status, and the bytes and the entry of a page that moves. -/
def State.migrated (s : State) (w : W64) (e? : Option Pte) (va : VA) : Byte ⊕ (Pte × List Byte) :=
  let mode := (w.extractLsb' 62 2).toNat
  let ptr := fun (lo : Nat) => tagged (w.extractLsb' lo 8 ++ (0 : BitVec 56))
  if mode = 0 || mode = 3 then .inl (Config.rejectStat s.fresh)
  else match e? with
    | none => .inl 3
    | some e =>
      let src := fun (_ : Unit) => s.physBytes (e.pa va / 65536 * 65536) 65536
      if e.malformed || e.cls ≠ .normal || e.sz ≠ 0 then .inl 3
      else if e.mig ≠ 0 then .inl 2
      else if mode = 1 then .inr (e, src ())
      else if e.wr then .inl 4
      else match ptr 8, ptr 0 with
        | some sf, some tf =>
          let out := transcode sf.fmt sf.blog tf.fmt tf.blog (src ())
          if 65536 < out.length then .inl 6 else .inr (e, fitLen 65536 out)
        | _, _ => .inl 5
/-- A ring with a request to process. -/
def State.migReady (s : State) : Bool := s.regs.migctl.getLsbD 63 && s.regs.mighead != s.regs.migtail
/-- One request of the migration ring, in order, its steps of R229 together: no other step sees MIG 1, and a store comes before the copy
or after the switch (DEDUCED: log entry 31). MLOG above 12, and a NEWPA that is no page of this package, are taken as they stand (DESIGN
CHOICE: log entries 114 and 115). -/
def execMigrationRequest (s : State) : Out :=
  .next (
    if !s.migReady then s
    else
      let pa := s.regs.migbase.toNat + 32 * (s.regs.mighead.toNat % 2 ^ (s.regs.migctl.extractLsb' 0 4).toNat)
      let w := s.phys64 (pa + 8)
      let asid : Asid := w.extractLsb' 16 13
      let va := addr (s.phys64 pa)
      let new := (s.phys64 (pa + 16)).toNat
      let s0 := s.writeBackLocs (pageKeys asid va 0)
      let (stat, s1) := match s0.migrated w (s0.walk asid va) va with
        | .inl c => (c, { s0 with fresh := s0.fresh + 1 })
        | .inr (e, bs) =>
          let w8 := (e.w8 &&& 0xFF3FFFF000000000) ||| BitVec.ofNat 64 (new / 2 ^ 16 % 2 ^ 36)
          let old := e.pa va / 65536 * 512
          let moved := if w.extractLsb' 62 2 = 1 then
              (s0.poison.filter fun l => old ≤ l && l < old + 512).map fun l => l - old + new / 128 else []
          let s1 := ({ s0 with poison := (moved ++ s0.poison).eraseDups } : State).setBytes new bs
          ((1 : Byte), (s1.setPhys (e.at' + 8) 8 w8.toNat).movePage asid va (e.pa va) new)
      let s2 := s1.setPhys (pa + 24) 8 stat.toNat
      let s3 : State := { s2 with regs := { s2.regs with mighead := s2.regs.mighead + 1 } }
      let s4 := s3.raiseVec 64 (s3.regs.migctl.extractLsb' 32 16).toNat
      if s4.migReady then s4.after s4.lat.copy .migrationRequest else s4)

/-! ### Retirement (R230–R232) -/

def State.goRl (s : State) : State :=
  if s.regs.fwstat ≠ 2 || s.regs.rlctl.getLsbD 63 then s
  else ({ s with regs := { s.regs with rlctl := 0x8000000000000000 } } : State).after s.lat.xlat .retirementListLoad
def execRlctlGo (s : State) : Out := .next s.goRl
/-- 64 KiB pages of one list entry; the index of a CXL page counts within its port (DEDUCED: log entry 73). -/
def pagesOfEntry (x : W64) : List Nat :=
  let row := (x.extractLsb' 0 40).toNat
  match (x.extractLsb' 60 4).toNat with
  | 0 => ((Config.rowLines x).map fun l => l / 512).eraseDups
  | 1 => [2 ^ 24 * (1 + (x.extractLsb' 56 4).toNat) + row % 2 ^ 24]
  | _ => []
def State.listEntries (s : State) : List W64 :=
  (List.range s.regs.rlcount.toNat).map fun i => s.phys64 (s.regs.rlbase.toNat + 8 * i)
def baseBad (x : W64) : Bool := x.toNat % 64 != 0 || 2 ^ 39 ≤ x.toNat
/-- The curator reads the list once. -/
def execRetirementListLoad (s : State) : Out :=
  .next (
    if !s.regs.rlctl.getLsbD 63 then s
    else
      let finish := fun (s : State) (err : Nat) =>
        ({ s with regs := { s.regs with rlctl := BitVec.ofNat 64 (2 ^ 62 + err) } } : State)
      if baseBad s.regs.rlbase || baseBad s.regs.plbase then finish s 1
      else
        let pages := (s.listEntries.flatMap pagesOfEntry).eraseDups
        if (s.regs.plcap.extractLsb' 0 32).toNat < pages.length then finish s 2
        else
          let s1 := (List.zip (List.range pages.length) pages).foldl (fun s e =>
            s.setPhys (s.regs.plbase.toNat + 8 * e.1) 8 (Config.pageEntry e.2).toNat) s
          let s2 : State := { s1 with
            retired := (pages ++ s1.retired).eraseDups, regs := { s1.regs with plcount := BitVec.ofNat 64 pages.length, rlist := s.listEntries } }
          (finish s2 0).callCurator)
/-- The retirement entry and the lines of the row or page that holds an address; none outside HBM and CXL. -/
def rowAt (pa : Nat) : Option (W64 × List Nat) :=
  match physRange pa with
  | .hbm => some (Config.rowOf pa, pa / 128 :: Config.rowLines (Config.rowOf pa))
  | .cxl p =>
    some (BitVec.ofNat 64 (2 ^ 60 + p * 2 ^ 56 + pa % 2 ^ 40 / 2 ^ 16), (List.range 512).map fun i => pa / 65536 * 512 + i)
  | .device | .expander | .remote _ | .none => none
/-- A row is retired at run time: its lines are poisoned, the entry is appended while there is room, the host is told. -/
def State.retireRow (s : State) (pa : Nat) (e : W64) (lines : List Nat) : State :=
  let s1 : State := { s with poison := (lines ++ s.poison).eraseDups }
  let n := s1.regs.plcount.toNat
  let s2 := if n < (s1.regs.plcap.extractLsb' 0 32).toNat then
      let s2 := s1.setPhys (s1.regs.plbase.toNat + 8 * n) 8 e.toNat
      ({ s2 with regs := { s2.regs with plcount := s2.regs.plcount + 1 } } : State)
    else s1
  s2.report 4 0 0 0 (BitVec.ofNat 64 (pa / 65536 * 65536)) 0
/-- A controller meets an error (R232): uncorrectable, or the sixteenth corrected one of its row within 1,000 ticks (DEDUCED: log entry 61). -/
def execMemoryEccError (pa : Nat) (uncorrectable : Bool) (s : State) : Out :=
  .next (match rowAt pa with
    | none => s
    | some (e, lines) =>
      if uncorrectable then s.retireRow pa e lines
      else
        let t := s.now / Config.tickCycles
        let times := t :: ((Table.find? e.toNat s.ecc).getD []).filter fun u => t ≤ u + 1000
        if times.length < 16 then { s with ecc := Table.put e.toNat times s.ecc }
        else ({ s with ecc := Table.put e.toNat [] s.ecc } : State).retireRow pa e lines)

/-! ### Errors that SEC-DED cannot correct (R115, R326) -/

/-- The entries of a FIFO granule are poisoned: 64 entries by their place in the bank's queue (DEDUCED: log entry 62). -/
def Banks.poisonFifo (b : Banks) (k part : Nat) : Banks :=
  b.setFifo k ((List.zip (List.range (b.fifoAt k).length) (b.fifoAt k)).map fun e => if e.1 / 64 = part then { e.2 with bad := true } else e.2)
def Banks.poisonAt (b : Banks) (g : Nat) : Banks :=
  if 512 * g < b.slen then b.setGran g { b.granAt g with poison := true }
  else if b.role (g / 32) = 2 then b.poisonFifo (g / 32) (g % 32)
  else if b.role (g / 32) = 3 then b.setGran g { b.granAt g with poison := true } else b
/-- The words of a granule of the save bank (R326). -/
def saveWords (g : Nat) : List Nat := if 608 ≤ g && g < 640 then (List.range 64).map fun i => 64 * (g - 608) + i else []
/-- Words of the save bank that an image was written to are uncorrectable. -/
def Image.spoil (i : Image) (ws : List Nat) : Image := { i with bad := (ws ++ i.bad).eraseDups }
def execUncorrectableError (site : EccSite) (s : State) : Out :=
  .next (match site with
    | .dirtyLine core asid line =>
      match (s.core core).lineAt asid line with
      | some l =>
        if !l.dirty then s
        else
          let s1 := s.onCore core fun c => { c with lines := c.lines.filter fun x => !(x.asid == asid && x.line == line) }
          (match s.walk asid (BitVec.ofNat 56 (line * 128)) with
            | some e => { s1 with poison := (e.pa (BitVec.ofNat 56 (line * 128)) / 128 :: s1.poison).eraseDups }
            | none => s1)
      | none => s
    | .granule core g => s.onCore core fun c => { c with banks := c.banks.poisonAt g, save := c.save.map fun i => i.spoil (saveWords g) }
    | .bivouacGranule core g => s.onCore core fun c => { c with
        biv := c.biv.map fun i => { i with banks := i.banks.poisonAt g }.spoil (saveWords g) }
    | .register core ctx => if ((s.core core).ctx ctx).live && (s.core core).on.isSome then s.failTask core 0x13 else s
    | .handlerWord core w => s.onCore core fun c => { c with badWords := w :: c.badWords }
    | .saveBank core w => s.onCore core fun c => { c with save := c.save.map fun i => i.spoil [w] }
    | .icacheLine core asid line => s.onCore core fun c => { c with
        icache := c.icache.filter fun w => w.1 / 128 != asid.toNat * 2 ^ 49 + line })

end Sys2Proof.Machine
end

