-- ==== Sys2Proof/Machine/Device.lean ====
section
/-! DEFINITION. Writes of the host, firmware, attestation and the host link; halts, resets and the thermal levels (spec/04
R67–R70, R81–R84; spec/11 R228, R231; spec/16 R336–R343). -/

namespace Sys2Proof.Machine

/-! ### Firmware (R117, R338, R339) -/

/-- The header is malformed or the image too long. -/
def State.headerBad (s : State) (pa : Nat) : Bool :=
  let body := s.phys (pa + 8) 4
  pa % 65536 != 0 || s.phys pa 4 != 0x46574E58 || body % 64 != 0 || 2 ^ 24 < body || body ≤ s.phys (pa + 12) 4 ||
    body < s.phys (pa + 16) 4 + 8192 || s.phys (pa + 20) 44 != 0
/-- A GO starts the verification; from a value of 0x80 on it returns FWSTAT to 0x00 (R339) (DEDUCED: log entry 64). -/
def State.goFw (s : State) : State :=
  if s.regs.fwstat = 1 || s.regs.fwstat = 2 then s
  else if s.regs.fwstat ≠ 0 then { s with regs := { s.regs with fwstat := 0 } }
  else
    let (f, s1) := s.freshen
    ({ s1 with regs := { s1.regs with fwstat := 1 } } : State).after s1.lat.xlat (.fwVerifyComplete (Config.edVerifies f) (Config.mlVerifies f))
def execFwGo (s : State) : Out := .next s.goFw
/-- The bytes of an area of memory, by offset. -/
def areaOf (m : List Host.Cell) (pa n : Nat) : List Host.Cell := (m.filter fun c => pa ≤ c.1 && c.1 < pa + n).map fun c => (c.1 - pa, c.2)
/-- Verification ends: FWSTAT, and with 0x02 the handler region of every core. Where both signatures fail 0x81 is reported (DESIGN
CHOICE: log entry 105). -/
def execFwVerifyComplete (edOk mlOk : Bool) (s : State) : Out :=
  .next (
    let pa := s.regs.fwbase.toNat
    if s.regs.fwstat ≠ 1 then s
    else if s.headerBad pa then { s with regs := { s.regs with fwstat := 0x80 } }
    else if !edOk then { s with regs := { s.regs with fwstat := 0x81 } }
    else if !mlOk then { s with regs := { s.regs with fwstat := 0x82 } }
    else { s with
      cores := s.cores.map fun e => (e.1, { e.2 with badWords := [] }),
      regs := { s.regs with
        fwstat := 2, version := BitVec.ofNat 32 (s.phys (pa + 4) 4), himage := areaOf s.mem (pa + 64 + s.phys (pa + 16) 4) 8192,
        fwImage := areaOf s.mem pa (64 + s.phys (pa + 8) 4), fwLen := 64 + s.phys (pa + 8) 4 } })

/-! ### Attestation and the host link (R337, R340) -/

def State.goAttest (s : State) : State :=
  if s.regs.attctl.getLsbD 63 then s
  else ({ s with regs := { s.regs with attctl := 0x8000000000000000 } } : State).after s.lat.xlat .attestReportComplete
def execAttestGo (s : State) : Out := .next s.goAttest
def attestBytes (f : Nat) (lo n : Nat) : List Byte := (List.range n).map fun i => Config.attest f (lo + i)
/-- The SHA3-384 of `n` bytes, those that are not zero listed by offset. -/
def digestBytes (n : Nat) (cells : List Host.Cell) : List Byte := sha3 ((List.range n).map (cellGet cells))
/-- The loaded retirement list as bytes. -/
def listCells (xs : List W64) : List Host.Cell := cellsPut [] 0 (xs.flatMap fun x => leBytes 8 x.toNat)
/-- The report: nonce, VERSION, two digests, the counts, two signatures, which are free (DESIGN CHOICE: log entry 17). -/
def execAttestReportComplete (s : State) : Out :=
  .next (
    if !s.regs.attctl.getLsbD 63 then s
    else
      let pa := s.regs.attbuf.toNat
      let bytes := s.physBytes pa 32 ++ leBytes 4 s.regs.version.toNat ++ digestBytes s.regs.fwLen s.regs.fwImage ++
        digestBytes (8 * s.regs.rlist.length) (listCells s.regs.rlist) ++ leBytes 4 s.regs.resets ++ leBytes 4 s.regs.flrs ++
        attestBytes s.fresh 0 3373
      let s1 := s.setBytes (pa + 64) bytes
      { s1 with fresh := s1.fresh + 1, regs := { s1.regs with attctl := 0 } })
/-- The link trains once. -/
def execHostLinkTraining (cxl : Bool) (s : State) : Out := .next { s with linkCxl := s.linkCxl.orElse fun _ => some cxl }

/-! ### Tasks lost to a reset (R81, R82, R290) -/

/-- Arrivals of a bind in counts that have not completed. -/
def BCount.without (c : BCount) (bind : Nat) : BCount :=
  let who := c.who.filter fun w => w / 32768 != bind
  { c with who := who, count := c.count - (c.who.length - who.length) }
def State.dropArrivals (s : State) (bind : Nat) : State :=
  { s with belays := s.belays.map fun e => if e.1.level = 0 then (e.1, e.2.without bind) else e }
/-- Every counter of a rope returns to COUNT 0. -/
def State.clearBelays (s : State) (r : Nat) : State :=
  { s with belays := s.belays.map fun e => if e.1.level = 0 && e.1.node = r then (e.1, { e.2 with count := 0, who := [] }) else e }
/-- Every command of a bind is gone. -/
def State.dropBind (s : State) (n bind : Nat) : State := { s with cmds := s.cmds.filter fun d => !(d.core == n && d.bind == bind) }
/-- A bound task is lost, with its commands: FAILED with REASON 0x1B. -/
def State.loseTask (s : State) (n j : Nat) : State :=
  let b := ((s.core n).slot j).bind
  ((s.dropArrivals b).dropBind n b).failSlot n j 0x1B
/-- The slots of a core that a test chooses. -/
def Core.slotsWith (c : Core) (p : Slot → Bool) : List Nat := (c.slots.filter fun e => e.2.v && p e.2).map (·.1)
/-- A core is halted (R81): its tasks with CTXLOC 0 and 1 fail, each such queue takes ERR 0x04, everything in it is zeroed (DEDUCED: log entry 57). -/
def State.haltCore (s : State) (n : Nat) : State :=
  let lost := (s.core n).slotsWith fun t => t.bound && t.ctxloc < 2
  let s1 := lost.foldl (fun s j => (s.loseTask n j).queueError ((s.core n).slot j).queue.toNat 4 true) s
  (((s1.vacate n).onCore n fun c => c.wiped false).freed n)
/-- The watchdog resets the partition of the queue of an expired slot (R80, R81). -/
def execWatchdogExpiry (core slot : Nat) (s : State) : Out :=
  .next (
    let c := s.core core
    let b := s.queueOf c.task.queue.toNat
    if c.on ≠ some slot || s.sliceOf c = 0 || c.task.wd ≤ s.sliceOf c then s
    else
      let s1 := ((List.range 192).filter fun r => b.qmask.getLsbD r).foldl (fun s r => s.clearBelays r) s
      ((s.cores.map (·.1)).filter fun n => inMask b.qmask n).foldl (fun s n => s.haltCore n) s1)

/-! ### Temperature (R343) -/

/-- The level that the hottest junction leads to. -/
def thermalNext (level temp : Nat) : Nat := if 104 ≤ temp then 2 else if 100 ≤ temp then max level 1 else if temp ≤ 95 then 0 else level
def execThermalLevelStep (temp : Nat) (s : State) : Out :=
  .next (
    let l := thermalNext s.thermal temp
    if l = s.thermal then s
    else
      let (f, s0) := s.freshen
      let s1 := ({ s0 with thermal := l } : State).report 3 (Config.thermalCode f) 0 0 0 0
      if l = 2 then (s1.cores.map (·.1)).foldl (fun s n => s.request n) s1
      else if l = 0 then ((s1.cores.map (·.1)).foldl (fun s n => s.after 1 (.dispatchSelect n)) s1).callCurator
      else s1)
/-- A core at 110 °C is halted as a watchdog halts it (DEDUCED: log entry 66). -/
def execCoreOvertempHalt (core : Nat) (s : State) : Out := .next (s.haltCore core)

/-! ### Function-level reset (R82–R84) and package reset (R98, R136) -/

/-- An identifier of a function. -/
def State.owns (s : State) (f : Nat) (a : Asid) : Bool := (s.func f).asidLo ≤ a.toNat && a.toNat ≤ (s.func f).asidHi
/-- A task that is WAITING or READY becomes CANCELLED. -/
def State.cancelTask (s : State) (asid : Asid) (tcb : VA) : State :=
  match s.tcbState asid tcb with
  | some x =>
    if tcbCode x = 1 || tcbCode x = 2 then ((s.setTcb asid tcb fun x => withCode x 5).unready asid tcb).ended asid tcb .cancelled else s
  | none => s
/-- A function's tasks of one core: bound ones fail, their slots are cleared, the task on the core stops, and a handler that was to
bring one in brings in nothing. -/
def State.resetCore (s : State) (f n : Nat) : State :=
  let c := s.core n
  let mine := c.slotsWith fun t => s.owns f t.asid
  let stops := match c.on with | some j => mine.contains j | none => false
  let drop := fun (o : Option Nat) => o.bind fun j => if mine.contains j then none else some j
  let s1 := mine.foldl (fun s j => if ((s.core n).slot j).bound then s.loseTask n j else s.onCore n fun c => c.onSlot j Slot.clear) s
  if stops then ((s1.vacate n).onCore n fun c => c.wiped true).freed n
  else s1.onCore n fun c => { c with incoming := drop c.incoming }
/-- Steps 1 to 5 of R82; the physical function's writes to f's blocks and entries are held until it completes. -/
def State.resetFunc (s : State) (f : Nat) : State :=
  let qs := (List.range 64).filter fun q => (s.queueOf q).func == f
  let s1 := qs.foldl (fun s q => (s.onQueue q fun b => { b with en := false }).queueError q 5 true) s
  let ts := s.recs.flatMap fun r => if s.owns f r.asid then r.waiting.map fun t => (r.asid, t) else []
  let s2 := ts.foldl (fun s t => s.cancelTask t.1 (BitVec.ofNat 56 t.2)) s1
  let s3 := (s2.cores.map (·.1)).foldl (fun s n => s.resetCore f n) s2
  let s4 : State := { s3 with
    funcs := Table.put f { s3.func f with masked := true } s3.funcs, flr := f :: s3.flr, regs := { s3.regs with flrs := s3.regs.flrs + 1 } }
  (s4.after s4.lat.xlat (.flrComplete (BitVec.ofNat 6 f))).callCurator
/-- The driver unmasks with a host write of its own target: MSI-X has no address in the manual (DEDUCED: log entry 58). -/
def execFunctionLevelReset (f : BitVec 6) (s : State) : Out := .next (if s.flr.contains f.toNat then s else s.resetFunc f.toNat)
/-- Package reset: everything but what the board's memory holds and the counts since power-on (DEDUCED: log entry 56). -/
def execPackageReset (s : State) : Out :=
  .next { State.reset with
    mem := s.mem, poison := s.poison, lat := s.lat, next := s.next, fresh := s.fresh, binds := s.binds,
    regs := { HostRegs.init with resets := s.regs.resets + 1, flrs := s.regs.flrs } }

/-! ### Writes of the host (R67, R69, R70, R84, R215, R227–R231, R336, R339–R343) -/

/-- A register after a write of `size` bytes at an offset. -/
def merged (old : W64) (off size : Nat) (val : W64) : W64 :=
  let m := spanBits (off % 8) size
  (old &&& ~~~m) ||| ((val <<< (8 * (off % 8))) &&& m)
/-- The write covers byte `b` of its 8-byte register. -/
def covers (off size b : Nat) : Bool := off % 8 ≤ b && b < off % 8 + size
/-- A plain register of the physical function (DEDUCED: log entry 63). -/
def HostRegs.write (r : HostRegs) (w : Nat) (f : W64 → W64) : HostRegs :=
  if w = 0x100 then { r with idtbase := f r.idtbase }
  else if w = 0x180 then { r with heatbase := f r.heatbase }
  else if w = 0x188 then { r with heatctl := f r.heatctl &&& 0x800000000000001F }
  else if w = 0x300 then { r with migbase := f r.migbase }
  else if w = 0x310 then { r with migctl := f r.migctl &&& 0x8000FFFF0000000F }
  else if w = 0x400 then { r with rlbase := f r.rlbase }
  else if w = 0x408 then { r with rlcount := f r.rlcount }
  else if w = 0x410 then { r with plbase := f r.plbase }
  else if w = 0x428 then { r with plcap := f r.plcap &&& 0xFFFFFFFF }
  else if w = 0x500 then { r with fwbase := f r.fwbase }
  else if w = 0x580 then { r with attbuf := f r.attbuf }
  else if w = 0x600 then { r with fabid := f r.fabid &&& 0x3FF }
  else if w = 0x608 then { r with gtbase := f r.gtbase }
  else if w = 0x610 then { r with gtlog := f r.gtlog &&& 0x1F }
  else if w = 0x700 then { r with pwrcap := f r.pwrcap &&& 0xFFF }
  else if w = 0x800 then { r with crbase := f r.crbase }
  else if w = 0x808 then { r with crlog := f r.crlog &&& 0xF }
  else if w = 0x818 then { r with crvec := f r.crvec &&& 0xFFFF }
  else r
/-- The translation-invalidation pair (R215): not written while GO reads 1, nor by a function outside its range (DEDUCED: log entry 38). -/
def State.writeXreg (s : State) (func : Option (BitVec 6)) (x : W64) : State :=
  let a := (x.extractLsb' 0 13).toNat
  let foreign := match func with
    | none => false
    | some f => a < (s.func f.toNat).asidLo || (s.func f.toNat).asidHi < a
  if s.regs.xreg.getLsbD 63 || foreign then s
  else
    let s1 : State := { s with regs := { s.regs with xreg := x &&& 0x1FFF } }
    if x.getLsbD 63 then s1.xlatGo func (x.getLsbD 62) else { s with regs := { s.regs with xreg := x &&& 0x4000000000001FFF } }
/-- A new request may stand in the migration ring. -/
def State.pollMig (s : State) : State := if s.migReady then s.after s.lat.copy .migrationRequest else s
/-- A write to a register of BAR0 below the tables. -/
def State.writeReg (s : State) (func : Option (BitVec 6)) (off size : Nat) (val : W64) : State :=
  let w := off / 8 * 8
  let f := fun old => merged old off size val
  if w = 0x200 then (if s.regs.xreg.getLsbD 63 then s else { s with regs := { s.regs with xva := f s.regs.xva } })
  else if w = 0x208 then s.writeXreg func (f s.regs.xreg)
  else if func.isSome then s
  else if w = 0x308 then
    if covers off size 0 then
      ({ s with regs := { s.regs with migtail := (f (s.regs.migtail.zeroExtend 64)).extractLsb' 0 32 } } : State).pollMig
    else s
  else if w = 0x310 then ({ s with regs := s.regs.write w f } : State).pollMig
  else if w = 0x420 then (if (f 0).getLsbD 63 then s.goRl else s)
  else if w = 0x508 then (if (f 0).getLsbD 63 then s.goFw else s)
  else if w = 0x588 then (if (f 0).getLsbD 63 then s.goAttest else s)
  else if w = 0x810 then (if covers off size 0 then s.writeCrtail ((f (s.regs.crtail.zeroExtend 64)).extractLsb' 0 32) else s)
  else { s with regs := s.regs.write w f }
/-- A function-table entry (R67). -/
def FEntry.write (e : FEntry) (w : Nat) (f : W64 → W64) : FEntry :=
  let part := fun (k : Nat) => e.fropes.extractLsb' (64 * k) 64
  if w = 0 then { e with fropes := ((part 2) ++ (part 1) ++ f (part 0)).setWidth 192 }
  else if w = 8 then { e with fropes := ((part 2) ++ f (part 1) ++ (part 0)).setWidth 192 }
  else if w = 16 then { e with fropes := (f (part 2) ++ (part 1) ++ (part 0)).setWidth 192 }
  else if w = 24 then { e with w18 := f e.w18 &&& 0xFFFFFFC000FFFFFF }
  else e
/-- The fields of a queue's block that only the physical function writes (R70). -/
def QBlock.writeP (b : QBlock) (w : Nat) (f : W64 → W64) : QBlock :=
  let part := fun (k : Nat) => b.qmask.extractLsb' (64 * k) 64
  if w = 0x10 then { b with cfg := f b.cfg }.aged
  else if w = 0x18 then { b with slice := f b.slice &&& 0xFFFFFFFF }
  else if w = 0x20 then { b with qmask := ((part 2) ++ (part 1) ++ f (part 0)).setWidth 192 }
  else if w = 0x28 then { b with qmask := ((part 2) ++ f (part 1) ++ (part 0)).setWidth 192 }
  else if w = 0x30 then { b with qmask := (f (part 2) ++ (part 1) ++ (part 0)).setWidth 192 }
  else b
/-- The last word of a block as it reads. -/
def QBlock.ctl (b : QBlock) : W64 :=
  (if b.en then 0x8000000000000000 else 0) |||
    BitVec.ofNat 64 (b.errvec.toNat * 2 ^ 40 + b.err.toNat * 2 ^ 32 + b.age.toNat * 2 ^ 8 + b.eprio.toNat * 2 ^ 5)
/-- A word of a queue's block as it reads (R70); CLR reads 0. -/
def QBlock.read (b : QBlock) (w : Nat) : W64 :=
  if w = 0 then b.qbase
  else if w = 8 then b.qhead ++ b.qtail
  else if w = 0x10 then b.cfg
  else if w = 0x18 then b.slice
  else if w = 0x20 then b.qmask.extractLsb' 0 64
  else if w = 0x28 then b.qmask.extractLsb' 64 64
  else if w = 0x30 then b.qmask.extractLsb' 128 64
  else b.ctl
/-- A word of a function-table entry (R67). -/
def FEntry.read (e : FEntry) (w : Nat) : W64 :=
  if w < 24 then e.fropes.extractLsb' (8 * w) 64 else if w = 24 then e.w18 else 0
/-- The registers of the physical function by offset (R69, R215, R227, R228, R230, R231, R336, R339 to R343). -/
def HostRegs.words (r : HostRegs) : Table W64 :=
  [(0x100, r.idtbase), (0x180, r.heatbase), (0x188, r.heatctl), (0x200, r.xva), (0x208, r.xreg), (0x300, r.migbase),
   (0x308, r.mighead ++ r.migtail), (0x310, r.migctl), (0x400, r.rlbase), (0x408, r.rlcount), (0x410, r.plbase), (0x418, r.plcount),
   (0x420, r.rlctl), (0x428, r.plcap), (0x500, r.fwbase), (0x508, r.fwstat.zeroExtend 64), (0x580, r.attbuf), (0x588, r.attctl),
   (0x600, r.fabid), (0x608, r.gtbase), (0x610, r.gtlog), (0x700, r.pwrcap), (0x708, r.telem), (0x800, r.crbase), (0x808, r.crlog),
   (0x810, (if r.crdrop then 0x8000000000000000 else 0) ||| (r.crhead ++ r.crtail)), (0x818, r.crvec)]
/-- What the host reads in a word of BAR0 of a function (none: the physical function); none where the manual has no register. A
virtual function sees the blocks of its queues, zero in place of the others (R70), and the translation-invalidation pair (R215). -/
def State.hostRead (s : State) (func : Option (BitVec 6)) (off : Nat) : Option W64 :=
  let w := off / 8 * 8
  if 0x10000 ≤ off && off < 0x11000 then
    let b := s.queueOf ((off - 0x10000) / 64)
    some (match func with
      | none => b.read (w % 64)
      | some f => if b.func = f.toNat then b.read (w % 64) else 0)
  else match func with
    | some _ => if w = 0x200 || w = 0x208 then Table.find? w s.regs.words else none
    | none =>
      if 0x8000 ≤ off && off < 0x9000 then some ((s.func ((off - 0x8000) / 64)).read (w % 64))
      else if 0xA00 ≤ off && off < 0xC00 then some ((Table.find? ((off - 0xA00) / 8) s.regs.link).getD 0)
      else Table.find? w s.regs.words
/-- A write to a queue's block (R70, R71), by the physical function or its owner. One write that sets EN and CLR is EN first, so that
CLR clears the ERR 0x06 that EN's check raised (DESIGN CHOICE: log entry 95). -/
def State.writeQueue (s : State) (func : Option (BitVec 6)) (q off size : Nat) (val : W64) : State :=
  let b := s.queueOf q
  let w := off / 8 * 8 % 64
  let f := fun old => merged old off size val
  if w = 0 then (if b.en then s else s.onQueue q fun b => { b with qbase := f b.qbase })
  else if w = 8 then (if covers off size 0 then s.writeQtail q ((f (b.qtail.zeroExtend 64)).extractLsb' 0 32) else s)
  else if w = 0x38 then
    let x := f b.ctl
    let s1 := s.onQueue q fun b => { b with errvec := x.extractLsb' 40 16 }
    let s2 := if x.getLsbD 63 ≠ b.en then s1.writeEn q (x.getLsbD 63) else s1
    if x.getLsbD 62 then s2.clearErr q else s2
  else if func.isSome then s
  else s.onQueue q fun b => b.writeP w f
/-- The function whose reset holds a write back (R84): one of the physical function. The virtual function's own writes to its queues
take effect at once, so that its CLR may clear ERR 0x05 before the reset completes (DESIGN CHOICE: log entry 97). -/
def State.heldFor (s : State) (t : HostTarget) : Option Nat :=
  let f := match t with
    | .bar none off =>
      if 0x8000 ≤ off && off < 0x9000 then some ((off - 0x8000) / 64)
      else if 0x10000 ≤ off && off < 0x11000 then some (s.queueOf ((off - 0x10000) / 64)).func else none
    | .bar (some _) _ | .unmask _ => none
    | .mem pa =>
      let o := pa - s.regs.idtbase.toNat
      if s.regs.idtbase.toNat ≤ pa && o < 2 ^ 18 then
        let a := BitVec.ofNat 13 (o / 32)
        let x := s.idWord a 8
        (if x.getLsbD 63 then some (x.extractLsb' 57 6).toNat else s.flr.find? fun f => s.owns f a)
      else none
  f.bind fun f => if s.flr.contains f then some f else none
/-- The TCB, of those that records wait for, whose CODE a host write covers while the task is WAITING, READY or BOUND. -/
def State.codeWrite (s : State) (pa size : Nat) : Option Nat :=
  (s.recs.flatMap fun r => r.waiting.map fun t => (r.asid, t)).findSome? fun t =>
    match s.walk t.1 (BitVec.ofNat 56 t.2) with
    | some e =>
      let a := e.pa (BitVec.ofNat 56 t.2) + 8
      let code := match s.tcbState t.1 (BitVec.ofNat 56 t.2) with | some x => tcbCode x | none => 0
      if pa ≤ a && a < pa + size && (code == 1 || code == 2 || code == 3) then some (t.1.toNat * 2 ^ 56 + t.2) else none
    | none => none
/-- A write that no reset holds back. -/
def State.applyWrite (s : State) (t : HostTarget) (size : Nat) (val : W64) : State :=
  match t with
  | .bar func off =>
    if off < 0x8000 then s.writeReg func off size val
    else if off < 0x9000 then
      if func.isSome then s
      else
        let n := (off - 0x8000) / 64
        { s with funcs := Table.put n ((s.func n).write (off / 8 * 8 % 64) fun old => merged old off size val) s.funcs }
    else if 0x10000 ≤ off && off < 0x11000 then
      let q := (off - 0x10000) / 64
      match func with
      | none => s.writeQueue none q off size val
      | some f => if (s.queueOf q).func = f.toNat then s.writeQueue (some f) q off size val else s
    else s
  | .mem pa => s.setPhys pa (min size 8) val.toNat
  | .unmask f => { s with funcs := Table.put f.toNat { s.func f.toNat with masked := false } s.funcs }
/-- A host write of at most 8 bytes; one of CODE to a task that is WAITING, READY or BOUND has no meaning (R12). -/
def execHostRegisterWrite (t : HostTarget) (size : Nat) (val : W64) (s : State) : Out :=
  match s.heldFor t with
  | some f => .next { s with flrWrites := s.flrWrites ++ [(f, t, size, val)] }
  | none =>
    match t with
    | .mem pa => match s.codeWrite pa (min size 8) with
      | some x => .fault (.hostWriteOfCode x)
      | none => .next (s.applyWrite t size val)
    | .bar _ _ | .unmask _ => .next (s.applyWrite t size val)
/-- The reset completes (R72, R84): ERR 0x05 clears itself, and the held writes take effect. -/
def State.flrDone (s : State) (f : Nat) : State :=
  let mine := s.flrWrites.filter fun w => w.1 == f
  let s1 : State := { s with
    flr := s.flr.filter fun g => g != f, flrWrites := s.flrWrites.filter fun w => w.1 != f,
    queues := s.queues.map fun e => if e.2.func = f && e.2.err = 5 then (e.1, { e.2 with err := 0 }) else e }
  mine.foldl (fun s w => s.applyWrite w.2.1 w.2.2.1 w.2.2.2) s1
def execFlrComplete (f : BitVec 6) (s : State) : Out := .next (if s.flr.contains f.toNat then s.flrDone f.toNat else s)

end Sys2Proof.Machine
end

