-- ==== Sys2Proof/Machine/Fabric.lean ====
section
/-! DEFINITION. Fabric transfers and reductions of major 0x3D (spec/14 R301–R304), and what the fabric delivers to
this package (spec/16 R341, R342). -/

namespace Sys2Proof.Machine

/-! ### Ranges of a thread of the core: scratch, the rope aperture, memory -/

/-- A range cut so that each piece has one place: granules in an aperture, pages in memory. -/
def granuleCuts : Nat → VA → Nat → List (VA × Nat)
  | 0, _, _ => []
  | fuel + 1, va, n =>
    if n = 0 then []
    else
      let k := min n (512 - va.toNat % 512)
      (va, k) :: granuleCuts fuel (va + BitVec.ofNat 56 k) (n - k)
def placeCuts (va : VA) (n : Nat) : List (VA × Nat) := if inLocal va || inRope va then granuleCuts (n / 512 + 2) va n else pagesOf va n
/-- What stops an access to a range: poison of a source line does not, where `soft` (R302); a guard's bytes do not (R96); the rope
aperture is only for the DEST of a rope reduction, `net` (R233, R238, R304) (DEDUCED: log entry 81). -/
def State.spaceStop (s : State) (n : Nat) (k : Kind) (soft net : Bool) (va : VA) (len : Nat) : Option (Trap ⊕ (VA × Bool)) :=
  (placeCuts va len).findSome? fun p => if inRope p.1 && !net then some (.inl ⟨0x06, ofVA p.1, 0⟩) else match s.place n k p.1 p.2 with
    | .trap t => if soft && t.cause = 0x13 then none else some (.inl t)
    | .page va w => some (.inr (va, w))
    | .guard o =>
      let stop : Int := if o < 0 then 0 else (s.core n).banks.slen + 64
      if o + p.2 ≤ stop then none else some (.inl ⟨0x06, ofVA (p.1 + BitVec.ofNat 56 (stop - o).toNat), 0⟩)
    | _ => none
/-- A range of the core-local aperture: its bytes below scratch, the offset of its scratch part, and that part's bytes (R95). -/
def State.localPart (s : State) (n : Nat) (va : VA) (len : Nat) : Nat × Nat × Nat :=
  let below := min len (scrBase - va.toNat)
  let o := va.toNat + below - scrBase
  (below, o, min (len - below) ((s.core n).banks.slen - o))
/-- A range that passed its checks touches a guard where it has a byte in one (R96). -/
def State.spaceTouch (s : State) (n k : Nat) (write : Bool) (va : VA) (len : Nat) : State :=
  if inLocal va then
    let o : Int := (va.toNat : Int) - scrBase
    let top : Int := (s.core n).banks.slen
    if o < 0 then s.onCore n fun c => c.touchGuard k write o
    else if top < o + len then s.onCore n fun c => c.touchGuard k write (max o top)
    else s
  else s
/-- Bytes read by a thread of core n; a guard's bytes read zero (R96). -/
def State.spaceRead (s : State) (n : Nat) (asid : Asid) (f : Table Nat) (va : VA) (len : Nat) :
    List Byte × Table Nat × Bool × State :=
  if inLocal va then
    let (below, o, k) := s.localPart n va len
    (List.replicate below 0 ++ (s.core n).banks.cleanBytes o k ++ List.replicate (len - below - k) 0, f, false, s)
  else s.threadLoad n asid f false va len
/-- Bytes written by a thread of core n; a guard's bytes are discarded (R96) and whole granules are stamped where `stamp` (R99, R304). -/
def State.spaceWrite (s : State) (n : Nat) (asid : Asid) (f : Table Nat) (va : VA) (data : List Byte) (stamp : Bool) : Table Nat × State :=
  if inLocal va then
    let (below, o, k) := s.localPart n va data.length
    (f, s.scratchWrite asid n o ((data.drop below).take k) none stamp)
  else if inRope va then
    let r := va.toNat - ropeBase
    (f, s.scratchWrite asid (n / 8 * 8 + r / 0x80000) (r % 0x80000 - 0x1000) data none stamp)
  else s.threadStore n asid f va data
/-- Words of a record read by the acting context. -/
def State.wordsAt (s : State) (va : VA) (k : Nat) : List W64 × State :=
  (List.range k).foldl (fun (a : List W64 × State) j =>
    let va' := va + BitVec.ofNat 56 (8 * j)
    let (x, s') := a.2.readPlace a.2.act.1 a.2.act.2 false (a.2.place a.2.act.1 .read va' 8) va' 8
    (a.1 ++ [x], s')) ([], s)
/-- A trap or page fault is taken by the acting context, else it goes on. -/
def State.stopHere (s : State) (o : Option (Trap ⊕ (VA × Bool))) (body : State → State) : State :=
  match o with
  | some (.inl t) => s.trap t
  | some (.inr (va, w)) => s.parkPage va w
  | none => body s

/-! ### The group table (R341) -/

/-- Word `k` of a group's entry, none where there is no such group. -/
def State.group (s : State) (g k : Nat) : Option W64 :=
  if g < 2 ^ (s.regs.gtlog.extractLsb' 0 5).toNat then
    let pa := s.regs.gtbase.toNat + 64 * g
    if (s.phys64 pa).getLsbD 63 then some (s.phys64 (pa + 8 * k)) else none
  else none
def State.groupMember (s : State) (g : Nat) : Bool := match s.group g 0 with | some w => w.getLsbD 62 | none => false
def State.groupRoot (s : State) (g : Nat) : Bool := match s.group g 0 with | some w => w.getLsbD 61 | none => false
def lzSize (w : W64) : Nat := (w.extractLsb' 32 32).toNat
def lzAsid (w : W64) : Asid := w.extractLsb' 0 13

/-! ### Transfers (R301, R302) -/

def mcastGroup (dst : W64) : Nat := (dst.extractLsb' 48 16).toNat
def mcastOff (dst : W64) : Nat := (dst.extractLsb' 0 32).toNat
/-- A record R302 calls malformed. -/
def State.xferBad (s : State) (mcast : Bool) (w : List W64) : Bool :=
  let len := ((w.getD 2 0).extractLsb' 0 21).toNat
  let dst := w.getD 1 0
  (w.getD 2 0).extractLsb' 21 43 ≠ 0 || len % 16 != 0 || len < 16 || 1048576 < len ||
    (mcast && (dst.extractLsb' 32 16 ≠ 0 ||
      match s.group (mcastGroup dst) 3 with | some z => lzSize z < mcastOff dst + len | none => true))
/-- The first poisoned byte of a scratch source (R302). -/
def State.localPoison (s : State) (n : Nat) (va : VA) (len : Nat) : Option W64 :=
  let (_, o, k) := s.localPart n va len
  ((unitsOf 512 o k).find? fun g => ((s.core n).banks.granAt g).poison).map fun g => BitVec.ofNat 64 (scrBase + max o (512 * g))
/-- `FPUT`, `FGET`, `FMCAST`: the release, the record, the checks; a source in scratch is read as the word issues;
then the transfer is a thread of the core (DEDUCED: log entry 44). -/
def State.transfer (s : State) (st : Stall) (a : Reg) (mcast : Bool) : State :=
  let va := addr (s.g a)
  s.aligned va 8 fun s => s.releasing .system fun s =>
    s.stopHere (s.spaceStop s.act.1 .read false false va 32) fun s =>
      let (w, s1) := s.wordsAt va 4
      let len := ((w.getD 2 0).extractLsb' 0 21).toNat
      let src := addr (w.getD 0 0)
      let dst := w.getD 1 0
      let comp := w.getD 3 0
      if s1.xferBad mcast w then s1.trap0 0x0D
      else
        let n := s1.act.1
        let stop := ((s1.spaceStop n .read true false src len).orElse fun _ =>
          if mcast then none else s1.spaceStop n .write true false (addr dst) len).orElse fun _ =>
            if comp = 0 then none else s1.bumpStop n s1.asid (addr comp)
        s1.stopHere stop fun s =>
          let s1 := s.spaceTouch s.act.1 s.act.2 false src len
          let (id, s2) := (if mcast then s1 else s1.spaceTouch s.act.1 s.act.2 true (addr dst) len).newId
          let data := if inLocal src then (s2.spaceRead s2.act.1 s2.asid [] src len).1 else []
          let bad := if inLocal src then s2.localPoison s2.act.1 src len else none
          let x : Xfer := ⟨id, s2.act.1, s2.act.2, s2.myCore.task.bind, s2.asid, mcast, src, dst, len, comp, s2.me.floors, data, bad⟩
          (({ s2 with xfers := s2.xfers ++ [x] }).after (s2.lat.fabric + len / 53) (.fabricTransferComplete id)).done st
def execFput (st : Stall) (a : Reg) (s : State) : Out := .next (s.issue (.fput st a) fun s => s.transfer st a false)
def execFget (st : Stall) (a : Reg) (s : State) : Out := .next (s.issue (.fget st a) fun s => s.transfer st a false)
def execFmcast (st : Stall) (a : Reg) (s : State) : Out := .next (s.issue (.fmcast st a) fun s => s.transfer st a true)
def execFsync (st : Stall) (s : State) : Out :=
  .next (s.issue (.fsync st) fun s =>
    s.wait (.fsync st) (s.waitHolds s.act.1 s.act.2 (.fsync st)) fun s =>
      (s.joinEngine s.act.1 s.act.2).acquiring .system fun s => s.done st)
/-- What a transfer or a contribution met, reported as R285 reports it, also to a task saved in an image (R302, R367). -/
def State.deferPoison (s : State) (n k bind : Nat) (m : Nat × W64) : State :=
  s.onCore n fun c => c.tell bind k fun x => x.defers m
/-- A Bump by a thread of a core (R252), and what it met instead (R100, R251): a granule that has become stale since the checks is
reported as a poison is, under its own cause (DESIGN CHOICE: log entry 104). -/
def State.bumpTold (s : State) (n k bind : Nat) (asid : Asid) (f : Table Nat) (comp : W64) : Table Nat × State :=
  if comp = 0 then (f, s)
  else
    let (f1, s1) := s.bump n asid f (addr comp) 1
    (f1, match s.bumpLost n asid (addr comp) with
      | some t => s1.deferPoison n k bind (t.cause, t.faddr)
      | none => s1)
/-- The first poisoned byte of a range of memory. -/
def State.firstPoison (s : State) (asid : Asid) (va : VA) (len : Nat) : Option VA :=
  if inLocal va then none
  else (List.range (len / 128 + 2)).findSome? fun k =>
    let v := if k = 0 then va else BitVec.ofNat 56 (va.toNat / 128 * 128 + 128 * k)
    if va.toNat + len ≤ v.toNat then none
    else match s.entry asid v with | some e => if s.poisoned (e.pa v) then some v else none | none => none
/-- The ports of a group's tree at this router: the parent's, but at the root, and the children's (R341). -/
def State.treePorts (s : State) (g : Nat) : List Nat :=
  let kids := match s.group g 1 with | some w => (List.range 64).filter fun i => w.getLsbD i | none => []
  match s.group g 0 with
  | some w => if w.getLsbD 61 then kids else (w.extractLsb' 0 6).toNat :: kids
  | none => kids
/-- A flit of an `FMCAST` goes on to the parent and the children, but not back to the port it came in on (R341). -/
def State.forward (s : State) (from' : Option Nat) (g off : Nat) (data : List Byte) : State :=
  { s with fabricOut := (((s.treePorts g).filter fun p => some p != from').map fun p => FabricOut.flit p g off data) ++ s.fabricOut }
/-- The bytes of a transfer written at their destination; scratch of a task that has left its core is not (R367). -/
def State.xferWrite (s : State) (x : Xfer) (f : Table Nat) (bs : List Byte) : Table Nat × State :=
  if x.mcast then (f, s.forward none (mcastGroup x.dst) (mcastOff x.dst) bs)
  else if inLocal (addr x.dst) && (s.core x.core).task.bind != x.bind then (f, s)
  else s.spaceWrite x.core x.asid f (addr x.dst) bs false
/-- A transfer is over: COMP, its thread kept for a join, a poison it met reported (R285, R302). -/
def State.xferEnd (s : State) (x : Xfer) (f : Table Nat) (bad : Option W64) : State :=
  let s0 := match bad with | some a => s.deferPoison x.core x.ctx x.bind (0x13, a) | none => s
  let (f1, s1) := s0.bumpTold x.core x.ctx x.bind x.asid f x.comp
  ({ s1 with xfers := s1.xfers.filter fun y => y.id != x.id }).publish (engineAgent x.bind x.ctx) .core f1
/-- Every write of a transfer is performed and COMP is bumped (R302); of an `FMCAST` the flits leave and the landings are at other
packages. -/
def execFabricTransferComplete (id : Nat) (s : State) : Out :=
  .next (match s.xfers.find? fun x => x.id == id with
    | none => s
    | some x =>
      let (bs, f, s1) : List Byte × Table Nat × State := if inLocal x.src then (x.data, x.floors, s)
        else let (bs, f, _, s1) := s.spaceRead x.core x.asid x.floors x.src x.len; (bs, f, s1)
      let (f1, s2) := s1.xferWrite x f bs
      let bad := (x.bad.orElse fun _ => (s.firstPoison x.asid x.src x.len).map ofVA).orElse fun _ =>
        if x.mcast then none else (s.firstPoison x.asid (addr x.dst) x.len).map ofVA
      s2.xferEnd x f1 bad)
/-- Bytes of another package land (R302): its stores, by the fabric's agent. -/
def State.landBytes (s : State) (asid : Asid) (va : VA) (data : List Byte) : State :=
  (List.zip (List.range data.length) data).foldl (fun s e =>
    (s.agentPut Config.fabricAgent asid (va + BitVec.ofNat 56 e.1) 1 (e.2.zeroExtend 64)).getD s) s
/-- A flit of another package's `FMCAST` comes in on a port (R302, R341): it goes on in the tree, and at a member the bytes land, then
the landing object is bumped as a release of system scope. -/
def execFabricLanding (head : FlitHead) (off : Nat) (data : List Byte) (s : State) : Out :=
  .next (match s.group head.group 0, s.group head.group 2, s.group head.group 3, s.group head.group 4 with
    | some w, some base, some z, some comp =>
      let s0 := s.forward (some head.port) head.group off data
      if !w.getLsbD 62 || lzSize z < off + data.length then s0
      else
        let asid := lzAsid z
        let s1 := s0.landBytes asid (addr base + BitVec.ofNat 56 off) data
        if comp = 0 then s1
        else match s1.devGet asid (addr comp) 8 with
          | some v => (s1.agentPut Config.fabricAgent asid (addr comp) 8 (v + 1)).getD s1
          | none => s1
    | _, _, _, _ => s)

/-! ### Reductions (R303, R304) -/

/-- Values of a contribution: ELEMS, and two more for `.rsc`. -/
def redCount (op : ROp) (elems : Nat) : Nat := match op with | .rsc => elems + 2 | _ => elems
/-- One fold, the accumulated value first (R304). -/
def redFold (op : ROp) (a b : List W32) : List W32 :=
  match op with
  | .addS32 => List.zipWith (fun x y => x + y) a b
  | .addF32 => List.zipWith (fun x y => (f32Add .rne x y).1) a b
  | .minS32 => List.zipWith min32s a b
  | .maxS32 => List.zipWith max32s a b
  | .minF32 => List.zipWith (fun x y => (f32Min x y).1) a b
  | .maxF32 => List.zipWith (fun x y => (f32Max x y).1) a b
  | .rsc =>
    let z := rescaleCombine ⟨a.getD 0 0, a.getD 1 0, a.drop 2⟩ ⟨b.getD 0 0, b.getD 1 0, b.drop 2⟩
    z.m :: z.s :: z.v
/-- Parts in order: the own member's first, then ascending ports or cores. -/
def partInsert (p : Part) : List Part → List Part
  | [] => [p]
  | q :: t =>
    let before := match p.port, q.port with | none, some _ => true | some i, some j => i < j | _, none => false
    if before then p :: q :: t else q :: partInsert p t
/-- The partial of parts folded in order, with the mismatch mark (R304). -/
def combineParts : List Part → Option Part
  | [] => none
  | p :: ps => some (ps.foldl (fun a q =>
      { a with vals := redFold a.op a.vals q.vals, bad := a.bad || q.bad || a.op != q.op || a.elems != q.elems }) p)
/-- The ports whose bit is set. -/
def portsOf (w : W64) : List Nat := (List.range 64).filter fun i => w.getLsbD i
def coresOf (mask : BitVec 8) : List Nat := (List.range 8).filter fun i => mask.getLsbD i
/-- Every part of a round is there. -/
def State.roundFull (s : State) (r : Round) : Bool :=
  let has := fun (p : Option Nat) => r.parts.any fun q => q.port == p
  match r.key with
  | .rope _ mask _ => (coresOf mask).all fun i => has (some i)
  | .group g =>
    (!s.groupMember g || has none) && match s.group g 1 with | some w => (portsOf w).all fun p => has (some p) | none => false
/-- A router's partial goes to its parent port (R304, R341). -/
def State.sendPartial (s : State) (key : RedKey) (seq : W32) (p : Part) : State :=
  match key with
  | .rope _ _ _ => s
  | .group g => match s.group g 0 with
    | some w => { s with fabricOut := .partial' (w.extractLsb' 0 6).toNat g seq p.op p.elems p.vals p.bad :: s.fabricOut }
    | none => s
/-- The lowest round of a key that has not been sent combines once it is full (R304): at the root the outcome comes back;
elsewhere the partial goes to the parent package (DEDUCED: log entry 36). -/
def State.tryRound (s : State) (key : RedKey) : State :=
  let mine := s.rounds.filter fun r => r.key == key && !r.sent
  match mine.foldl (fun (a : Option Round) r => match a with | none => some r | some b => if r.seq.ult b.seq then some r else a) none with
  | none => s
  | some r =>
    if !s.roundFull r then s
    else match combineParts r.parts with
      | none => s
      | some p =>
        let s1 : State := { s with rounds := s.rounds.map fun q => if q.key == key && q.seq == r.seq then { q with sent := true } else q }
        let root := match key with | .rope _ _ _ => true | .group g => s.groupRoot g
        if root then s1.after s1.lat.fabric (.reductionOutcomeArrival key r.seq p.bad (if p.bad then none else some p.vals))
        else s1.sendPartial key r.seq p
def State.onRound (s : State) (key : RedKey) (seq : W32) (f : Round → Round) : State :=
  if s.rounds.any fun r => r.key == key && r.seq == seq then
    { s with rounds := s.rounds.map fun r => if r.key == key && r.seq == seq then f r else r }
  else { s with rounds := s.rounds ++ [f ⟨key, seq, [], [], false⟩] }
def execReductionPartialArrival (key : RedKey) (seq : W32) (port : Nat) (op : ROp) (elems : Nat) (vals : List W32) (bad : Bool)
    (s : State) : Out :=
  .next ((s.onRound key seq fun r => { r with parts := partInsert ⟨some port, op, elems, vals, bad⟩ r.parts }).tryRound key)
/-- A rope reduction: its DEST may lie in the rope aperture, and its result stamps the granules it writes whole (R99, R304). -/
def redOnRope : RedKey → Bool
  | .rope _ _ _ => true
  | .group _ => false
/-- What a descriptor names (R303). -/
def redKey (n : Nat) (w0 : W64) : RedKey :=
  if w0.getLsbD 62 then .rope (ropeOf n) (w0.extractLsb' 32 8) (w0.extractLsb' 40 3).toNat else .group (w0.extractLsb' 32 16).toNat
/-- This member is the root. -/
def State.redRoot (s : State) (n : Nat) (key : RedKey) : Bool :=
  match key with | .rope _ _ root => n % 8 == root | .group g => s.groupRoot g
/-- A descriptor R303 calls malformed; a rope reduction whose mask leaves out the issuer or the root counts as one (DEDUCED: log entry 43). -/
def State.redBad (s : State) (n : Nat) (op : ROp) (w : List W64) : Bool :=
  let w0 := w.getD 0 0
  let elems := (w0.extractLsb' 0 13).toNat
  let key := redKey n w0
  w0.extractLsb' 48 14 ≠ 0 || w0.extractLsb' 13 19 ≠ 0 || (w.getD 1 0).extractLsb' 32 32 ≠ 0 || w.getD 5 0 ≠ 0 ||
    w.getD 6 0 ≠ 0 || w.getD 7 0 ≠ 0 || elems = 0 || (match op with | .rsc => 4094 | _ => 4096) < elems ||
    match key with
    | .rope _ mask root => w0.extractLsb' 43 5 ≠ 0 || !mask.getLsbD (n % 8) || !mask.getLsbD root
    | .group g => !s.groupMember g
/-- Both alignments are checked before either is read (DEDUCED: log entry 79). -/
def execFred (st : Stall) (op : ROp) (a b : Reg) (s : State) : Out :=
  .next (s.issue (.fred st op a b) fun s =>
    let va := addr (s.g a)
    let src := addr (s.g b)
    s.aligned va 8 fun s => s.aligned src 16 fun s => s.releasing .system fun s =>
      s.stopHere ((s.spaceStop s.act.1 .read false false va 64).orElse fun _ => s.spaceStop s.act.1 .write false false (va + 32) 8) fun s =>
        let (w, s1) := s.wordsAt va 8
        let n := s1.act.1
        if s1.redBad n op w then s1.trap0 0x0D
        else
          let w0 := w.getD 0 0
          let elems := (w0.extractLsb' 0 13).toNat
          let key := redKey n w0
          let all := w0.getLsbD 63
          let dest := w.getD 2 0
          let comp := w.getD 3 0
          let len := 4 * redCount op elems
          let uses := all || s1.redRoot n key
          let stop := ((s1.spaceStop n .read false false src len).orElse fun _ =>
            if uses then s1.spaceStop n .write false (redOnRope key) (addr dest) len else none).orElse fun _ =>
              if comp = 0 then none else s1.bumpStop n s1.asid (addr comp)
          s1.stopHere stop fun s =>
            let (bs, f, _, s2) := s.spaceRead n s.asid s.me.floors src len
            let s2 := (s2.spaceTouch n s2.act.2 false src len).spaceTouch n s2.act.2 true (va + 32) 8
            let s2 := if uses then s2.spaceTouch n s2.act.2 true (addr dest) len else s2
            let vals := (groupsLE 4 (redCount op elems) bs).map (BitVec.ofNat 32)
            let port := match key with | .rope _ _ _ => some (n % 8) | .group _ => none
            let s3 := s2.onRound key ((w.getD 1 0).extractLsb' 0 32) fun r =>
              { r with parts := partInsert ⟨port, op, elems, vals, false⟩ r.parts,
                       members := r.members ++ [⟨n, s2.act.2, s2.myCore.task.bind, s2.asid, va, dest, comp, all⟩] }
            ((s3.onMe fun c => { c with floors := f }).tryRound key).done st)
/-- A member's write of a reduction; scratch of a task that has left its core is not written (R367). -/
def State.memberWrite (s : State) (m : Member) (f : Table Nat) (va : VA) (data : List Byte) (stamp : Bool) : Table Nat × State :=
  if inLocal va && (s.core m.core).task.bind != m.bind then (f, s) else s.spaceWrite m.core m.asid f va data stamp
/-- The outcome reaches a member (R304): STATUS, then DEST, then COMP. -/
def State.outcomeAt (s : State) (key : RedKey) (bad : Bool) (res : Option (List W32)) (m : Member) : State :=
  let (f1, s1) := s.memberWrite m [] (m.desc + 0x20) (leBytes 8 (if bad then 1 else 0)) false
  let (f2, s2) := match res with
    | some vals => if !bad && (m.all || s.redRoot m.core key) then s1.memberWrite m f1 (addr m.dest) (f32Bytes vals) (redOnRope key) else (f1, s1)
    | none => (f1, s1)
  let (f3, s3) := s2.bumpTold m.core m.ctx m.bind m.asid f2 m.comp
  s3.publish (engineAgent m.bind m.ctx) .core f3
/-- The outcome leaves on the ports of the children (R304, R341): the root adds the result where its own descriptor says ALL, another
router passes on what came. -/
def State.sendOutcome (s : State) (r : Round) (bad : Bool) (res : Option (List W32)) : State :=
  match r.key with
  | .rope _ _ _ => s
  | .group g =>
    let vals := if bad || (s.groupRoot g && !r.members.any fun m => m.all) then none else res
    let kids := match s.group g 1 with | some w => portsOf w | none => []
    { s with fabricOut := (kids.map fun p => FabricOut.outcome p g r.seq bad vals) ++ s.fabricOut }
def execReductionOutcomeArrival (key : RedKey) (seq : W32) (bad : Bool) (res : Option (List W32)) (s : State) : Out :=
  .next (match s.rounds.find? fun r => r.key == key && r.seq == seq with
    | none => s
    | some r =>
      let s1 := r.members.foldl (fun s m => s.outcomeAt key bad res m) (s.sendOutcome r bad res)
      ({ s1 with rounds := s1.rounds.filter fun q => !(q.key == key && q.seq == seq) }).tryRound key)

/-! ### Links (R342) -/

def execFabricLinkChange (port : Nat) (up : Bool) (pkg : BitVec 10) (s : State) : Out :=
  .next { s with regs := { s.regs with
    link := Table.put port ((if up then 0x8000000000000000 else 0) ||| pkg.zeroExtend 64) s.regs.link } }
/-- The number that names the fetch of a context among remote accesses, above every other access's. -/
def fetchId (core ctx : Nat) : Nat := 2 ^ 64 + 16 * core + ctx
/-- A line of another package that a context waits to fetch does not come (R114, R342): as poison met by the fetch. -/
def State.fetchLost (s : State) (n k : Nat) : State :=
  let c := s.ctx n k
  let asid := (s.core n).asid
  let far := match s.xlate asid c.pc with | some e => isRemote (e.pa c.pc) | none => false
  if (!c.live && !c.hm) || !far || c.readyAt ≤ s.now then s
  else
    let s1 := s.onCore n fun c' => { c' with icache := c'.icache.filter fun w => w.1 / 128 != byteKey asid c.pc / 128 }
    s1.takeTrap n k ⟨0x13, ofVA c.pc, 0⟩ c.pc false false false
/-- A copy whose other package does not answer: what it reads there is zero, what it writes there is dropped, and its issuer is told
as of a poisoned line (R251, R342); a claim is filled with zeros (R225). -/
def State.copyLost (s : State) (c : Cmd) : State :=
  let zero := fun (w : CmdWrite) => match w with
    | .scratch k o d t g => some (.scratch k o (if c.dir = 0 then d.map fun _ => 0 else d) t g)
    | .mem va d => if c.dir = 0 || c.claim.isSome then some (.mem va (d.map fun _ => 0)) else
        match s.entry c.asid va with | some e => if isRemote (e.pa va) then none else some (.mem va d) | none => some (.mem va d)
  s.onCmd c.id fun d => { d with poison := true, writes := c.writes.filterMap zero }
/-- No answer came from another package within 100 µs (R342): as if a poisoned line had been met. A load traps as its
kind reports poison, with EPC its own word; a store, an atomic or a transfer is dropped and reported as R285 says (DESIGN CHOICE: log entry 27). -/
def execRemoteAccessTimeout (id : Nat) (s : State) : Out :=
  .next (match s.flights.find? fun f => f.id == id with
    | some f =>
      let far := match s.entry f.asid f.acc.va with | some e => isRemote (e.pa f.acc.va) | none => false
      if !far then s
      else
      let s1 : State := { s with flights := s.flights.filter fun g => g.id != id }
      let a := ofVA f.acc.va
      match f.kind with
      | .load _ _ => s1.takeTrap f.core f.ctx ⟨0x13, a, 0⟩ f.pc false false false
      | .atomic _ _ _ (some r) => s1.lostAtomic f r
      | .store => s1.deferAt f.core f.ctx f.acc.va
      | .atomic _ _ _ none => s1.deferAt f.core f.ctx f.acc.va
      | .vload _ _ _ _ _ => (s1.reportImprecise f.core f.ctx ⟨0x13, a, f.word.zeroExtend 64, f.seq⟩).vectorDone f
      | .vstore _ _ _ _ _ _ => (s1.deferAt f.core f.ctx f.acc.va).vectorDone f
    | none => match s.xfers.find? fun x => x.id == id with
      | some x => s.xferEnd x x.floors (some (ofVA (if x.mcast then x.src else addr x.dst)))
      | none => match s.cmds.find? fun c => c.id == id && isCopy c.instr && c.phase == .running with
        | some c => s.copyLost c
        | none => if 2 ^ 64 ≤ id then s.fetchLost ((id - 2 ^ 64) / 16) ((id - 2 ^ 64) % 16) else s)

end Sys2Proof.Machine
end

