-- ==== Sys2Proof/Machine/Float.lean ====
section
/-! DEFINITION. Scalar floating point (spec/08 R158–R161). -/

namespace Sys2Proof.Machine

/-- A scalar floating-point word: the result with its flags (R44). -/
def State.fpOp (s : State) (i : Instr) (st : Stall) (L : Nat) (d : Reg) (f : State → W64 × FFlags) : Out :=
  .next (s.issue i fun s => s.fpDone st L d (f s))

def execFadd (st : Stall) (t : FTy) (r : Rnd) (d a b : Reg) (s : State) : Out :=
  s.fpOp (.fadd st t r d a b) st 4 d fun s =>
    let m := r.rm s.mode
    t.round m (addExact m (t.val (s.g a)) (t.val (s.g b)))
def execFsub (st : Stall) (t : FTy) (r : Rnd) (d a b : Reg) (s : State) : Out :=
  s.fpOp (.fsub st t r d a b) st 4 d fun s =>
    let m := r.rm s.mode
    t.round m (addExact m (t.val (s.g a)) (t.val (s.g b)).negate)
def execFmul (st : Stall) (t : FTy) (r : Rnd) (d a b : Reg) (s : State) : Out :=
  s.fpOp (.fmul st t r d a b) st 4 d fun s => t.round (r.rm s.mode) (mulExact (t.val (s.g a)) (t.val (s.g b)))
def execFdiv (st : Stall) (t : FTy) (r : Rnd) (d a b : Reg) (s : State) : Out :=
  s.fpOp (.fdiv st t r d a b) st 16 d fun s => t.round (r.rm s.mode) (divExact (t.val (s.g a)) (t.val (s.g b)))
def execFsqrt (st : Stall) (t : FTy) (r : Rnd) (d a : Reg) (s : State) : Out :=
  s.fpOp (.fsqrt st t r d a) st 16 d fun s => t.round (r.rm s.mode) (sqrtExact (t.val (s.g a)))
def execFma (st : Stall) (t : FTy) (r : Rnd) (d a b : Reg) (s : State) : Out :=
  s.fpOp (.fma st t r d a b) st 4 d fun s =>
    let m := r.rm s.mode
    t.round m (fmaExact m (t.val (s.g a)) (t.val (s.g b)) (t.val (s.g d)))

/-- The chosen operand's bits, the canonical NaN where neither is chosen (R159). -/
def picked (t : FTy) (a b : W64) (p : Option Bool) : W64 :=
  match p with
  | none => BitVec.ofNat 64 t.fmt.nanCode
  | some true => BitVec.ofNat 64 (t.bitsOf a)
  | some false => BitVec.ofNat 64 (t.bitsOf b)
def execFmin (st : Stall) (t : FTy) (d a b : Reg) (s : State) : Out :=
  s.fpOp (.fmin st t d a b) st 4 d fun s =>
    let x := t.val (s.g a)
    let y := t.val (s.g b)
    (picked t (s.g a) (s.g b) (minPick x y), x.nvIfS ||| y.nvIfS)
def execFmax (st : Stall) (t : FTy) (d a b : Reg) (s : State) : Out :=
  s.fpOp (.fmax st t d a b) st 4 d fun s =>
    let x := t.val (s.g a)
    let y := t.val (s.g b)
    (picked t (s.g a) (s.g b) (maxPick x y), x.nvIfS ||| y.nvIfS)
/-- A comparison's 0 or 1 with its flags (R160). -/
def cmpOut (r : Bool × FFlags) : W64 × FFlags := (if r.1 then 1 else 0, r.2)
def execFeq (st : Stall) (t : FTy) (d a b : Reg) (s : State) : Out :=
  s.fpOp (.feq st t d a b) st 2 d fun s => cmpOut (fEq (t.val (s.g a)) (t.val (s.g b)))
def execFlt (st : Stall) (t : FTy) (d a b : Reg) (s : State) : Out :=
  s.fpOp (.flt st t d a b) st 2 d fun s => cmpOut (fLt (t.val (s.g a)) (t.val (s.g b)))
def execFle (st : Stall) (t : FTy) (d a b : Reg) (s : State) : Out :=
  s.fpOp (.fle st t d a b) st 2 d fun s => cmpOut (fLe (t.val (s.g a)) (t.val (s.g b)))
def execFclass (st : Stall) (t : FTy) (d a : Reg) (s : State) : Out :=
  s.fpOp (.fclass st t d a) st 2 d fun s => (BitVec.ofNat 64 (2 ^ fclassBit t (s.g a)), 0)
def execFexp2 (st : Stall) (t : FTy) (d a : Reg) (s : State) : Out :=
  s.fpOp (.fexp2 st t d a) st 8 d fun s => t.round .rne (exp2Exact (t.val (s.g a)))
/-- The sign bit of a type. -/
def signOf (t : FTy) : W64 := BitVec.ofNat 64 t.fmt.signBit
def execFneg (st : Stall) (t : FTy) (d a : Reg) (s : State) : Out :=
  s.fpOp (.fneg st t d a) st 1 d fun s => (BitVec.ofNat 64 (t.bitsOf (s.g a)) ^^^ signOf t, 0)
def execFabs (st : Stall) (t : FTy) (d a : Reg) (s : State) : Out :=
  s.fpOp (.fabs st t d a) st 1 d fun s => (BitVec.ofNat 64 (t.bitsOf (s.g a)) &&& ~~~signOf t, 0)

/-- The source value of `FCVT` (R161). -/
def cvtSource (c : CvtSrc) (x : W64) : FVal :=
  match c with
  | .f32 => FTy.val .f32 x
  | .bf16 => FTy.val .bf16 x
  | .f16 => FTy.val .f16 x
  | .s64 => .ofInt x.toInt 0
def execFcvt (st : Stall) (tgt : Fmt) (src : CvtSrc) (r : Rnd) (nsat : Bool) (d a : Reg) (s : State) : Out :=
  s.fpOp (.fcvt st tgt src r nsat d a) st 3 d fun s =>
    let (c, f) := convert (cvtSource src (s.g a)) tgt (r.rm s.mode) nsat
    (if tgt.isInt then sext tgt.bits (BitVec.ofNat 64 c) else BitVec.ofNat 64 c, f)

end Sys2Proof.Machine
end

