-- ==== Sys2Proof/Machine/Scalar.lean ====
section
/-! DEFINITION. The integer, tagged-address, control-transfer and timing instructions (spec/08 R143–R152, R137) and the
helper instructions (R153, R154, R157). -/

namespace Sys2Proof.Machine

/-- A word that only computes a general register, with latency L (R132). -/
def State.compute (s : State) (i : Instr) (st : Stall) (L : Nat) (d : Reg) (f : State → W64) : Out :=
  .next (s.issue i fun s => (s.gput L d (f s)).done st)

/-! ### Majors 0x00–0x02 (R143–R145) -/

def b01 (b : Bool) : W64 := if b then 1 else 0
/-- a < b by the order of a type. -/
def sgnLt (t : Sgn) (a b : W64) : Bool := match t with | .s64 => a.slt b | .z64 => a.ult b
/-- Bits 127:64 of the product (R143). -/
def mulHigh (t : Sgn) (a b : W64) : W64 :=
  match t with
  | .s64 => BitVec.ofInt 64 (a.toInt * b.toInt / 2 ^ 64)
  | .z64 => BitVec.ofNat 64 (a.toNat * b.toNat / 2 ^ 64)
/-- The quotient rounded toward zero, all ones for a zero divisor (R143). -/
def quotient (t : Sgn) (a b : W64) : W64 :=
  if b = 0 then 0xFFFFFFFFFFFFFFFF else match t with | .s64 => a.sdiv b | .z64 => a.udiv b
/-- The rest; the dividend for a zero divisor (R143). -/
def remainder (t : Sgn) (a b : W64) : W64 :=
  if b = 0 then a else match t with | .s64 => a.srem b | .z64 => a.umod b
def shiftOf (b : W64) : Nat := (b.extractLsb' 0 6).toNat
def clz64 (x : W64) : Nat := if x = 0 then 64 else 63 - Nat.log2 x.toNat
/-- Trailing zero bits of a number, at most `n`. -/
def trailing (x : Nat) : Nat → Nat
  | 0 => 0
  | n + 1 => if x % 2 = 1 then 0 else 1 + trailing (x / 2) n
def ones (x : Nat) : Nat → Nat
  | 0 => 0
  | n + 1 => x % 2 + ones (x / 2) n

def execAdd (st : Stall) (d a b : Reg) (s : State) : Out := s.compute (.add st d a b) st 1 d fun s => s.g a + s.g b
def execSub (st : Stall) (d a b : Reg) (s : State) : Out := s.compute (.sub st d a b) st 1 d fun s => s.g a - s.g b
def execMul (st : Stall) (d a b : Reg) (s : State) : Out := s.compute (.mul st d a b) st 3 d fun s => s.g a * s.g b
def execMulh (st : Stall) (t : Sgn) (d a b : Reg) (s : State) : Out :=
  s.compute (.mulh st t d a b) st 4 d fun s => mulHigh t (s.g a) (s.g b)
def execDiv (st : Stall) (t : Sgn) (d a b : Reg) (s : State) : Out :=
  s.compute (.div st t d a b) st 24 d fun s => quotient t (s.g a) (s.g b)
def execRem (st : Stall) (t : Sgn) (d a b : Reg) (s : State) : Out :=
  s.compute (.rem st t d a b) st 24 d fun s => remainder t (s.g a) (s.g b)
def execMin (st : Stall) (t : Sgn) (d a b : Reg) (s : State) : Out :=
  s.compute (.min st t d a b) st 1 d fun s => if sgnLt t (s.g b) (s.g a) then s.g b else s.g a
def execMax (st : Stall) (t : Sgn) (d a b : Reg) (s : State) : Out :=
  s.compute (.max st t d a b) st 1 d fun s => if sgnLt t (s.g a) (s.g b) then s.g b else s.g a

def execAnd (st : Stall) (d a b : Reg) (s : State) : Out := s.compute (.and st d a b) st 1 d fun s => s.g a &&& s.g b
def execOr (st : Stall) (d a b : Reg) (s : State) : Out := s.compute (.or st d a b) st 1 d fun s => s.g a ||| s.g b
def execXor (st : Stall) (d a b : Reg) (s : State) : Out := s.compute (.xor st d a b) st 1 d fun s => s.g a ^^^ s.g b
def execAndn (st : Stall) (d a b : Reg) (s : State) : Out := s.compute (.andn st d a b) st 1 d fun s => s.g a &&& ~~~(s.g b)
def execShl (st : Stall) (d a b : Reg) (s : State) : Out := s.compute (.shl st d a b) st 1 d fun s => s.g a <<< shiftOf (s.g b)
def execShr (st : Stall) (d a b : Reg) (s : State) : Out := s.compute (.shr st d a b) st 1 d fun s => s.g a >>> shiftOf (s.g b)
def execSra (st : Stall) (d a b : Reg) (s : State) : Out :=
  s.compute (.sra st d a b) st 1 d fun s => (s.g a).sshiftRight (shiftOf (s.g b))
def execRotr (st : Stall) (d a b : Reg) (s : State) : Out :=
  s.compute (.rotr st d a b) st 1 d fun s => (s.g a).rotateRight (shiftOf (s.g b))
def execClz (st : Stall) (d a : Reg) (s : State) : Out := s.compute (.clz st d a) st 1 d fun s => BitVec.ofNat 64 (clz64 (s.g a))
def execCtz (st : Stall) (d a : Reg) (s : State) : Out :=
  s.compute (.ctz st d a) st 1 d fun s => BitVec.ofNat 64 (trailing (s.g a).toNat 64)
def execPopc (st : Stall) (d a : Reg) (s : State) : Out :=
  s.compute (.popc st d a) st 1 d fun s => BitVec.ofNat 64 (ones (s.g a).toNat 64)

def execSlt (st : Stall) (t : Sgn) (d a b : Reg) (s : State) : Out :=
  s.compute (.slt st t d a b) st 1 d fun s => b01 (sgnLt t (s.g a) (s.g b))
def execSeq (st : Stall) (d a b : Reg) (s : State) : Out := s.compute (.seq st d a b) st 1 d fun s => b01 (s.g a == s.g b)
def execSne (st : Stall) (d a b : Reg) (s : State) : Out := s.compute (.sne st d a b) st 1 d fun s => b01 (s.g a != s.g b)
def extBits (w : ExtW) : Nat := match w with | .w8 => 8 | .w16 => 16 | .w32 => 32
def execSext (st : Stall) (w : ExtW) (d a : Reg) (s : State) : Out :=
  s.compute (.sext st w d a) st 1 d fun s => sext (extBits w) (s.g a)
def execZext (st : Stall) (w : ExtW) (d a : Reg) (s : State) : Out :=
  s.compute (.zext st w d a) st 1 d fun s => zext (extBits w) (s.g a)

/-! ### Immediates (R146, R147) -/

def imm64 (x : BitVec 14) : W64 := x.signExtend 64
def execAddi (st : Stall) (d a : Reg) (imm : BitVec 14) (s : State) : Out :=
  s.compute (.addi st d a imm) st 1 d fun s => s.g a + imm64 imm
def execAndi (st : Stall) (d a : Reg) (imm : BitVec 14) (s : State) : Out :=
  s.compute (.andi st d a imm) st 1 d fun s => s.g a &&& imm64 imm
def execOri (st : Stall) (d a : Reg) (imm : BitVec 14) (s : State) : Out :=
  s.compute (.ori st d a imm) st 1 d fun s => s.g a ||| imm64 imm
def execXori (st : Stall) (d a : Reg) (imm : BitVec 14) (s : State) : Out :=
  s.compute (.xori st d a imm) st 1 d fun s => s.g a ^^^ imm64 imm
def execSlti (st : Stall) (d a : Reg) (imm : BitVec 14) (s : State) : Out :=
  s.compute (.slti st d a imm) st 1 d fun s => b01 ((s.g a).slt (imm64 imm))
def execShli (st : Stall) (d a : Reg) (sh : BitVec 6) (s : State) : Out :=
  s.compute (.shli st d a sh) st 1 d fun s => s.g a <<< sh.toNat
def execShri (st : Stall) (d a : Reg) (sh : BitVec 6) (s : State) : Out :=
  s.compute (.shri st d a sh) st 1 d fun s => s.g a >>> sh.toNat
def execSrai (st : Stall) (d a : Reg) (sh : BitVec 6) (s : State) : Out :=
  s.compute (.srai st d a sh) st 1 d fun s => (s.g a).sshiftRight sh.toNat
def execLui (st : Stall) (d : Reg) (imm : BitVec 19) (s : State) : Out :=
  s.compute (.lui st d imm) st 1 d fun _ => (imm ++ (0 : BitVec 13)).signExtend 64
def execLcat (st : Stall) (d : Reg) (imm : BitVec 19) (s : State) : Out :=
  s.compute (.lcat st d imm) st 1 d fun s => (s.g d <<< 19) ||| imm.zeroExtend 64
def execLpc (st : Stall) (d : Reg) (imm : BitVec 19) (s : State) : Out :=
  s.compute (.lpc st d imm) st 1 d fun s => ofVA (s.me.pc + 4 * imm.zeroExtend 56)

/-! ### Tagged addresses (R148) -/

/-- `ADDA`, `SUBA`, `ADDAI`: an exact sum that leaves the address range takes the tag fault. -/
def State.addrSum (s : State) (i : Instr) (st : Stall) (d a : Reg) (y : State → Int) : Out :=
  .next (s.issue i fun s =>
    let x : Int := ((addr (s.g a)).toNat : Int) + y s
    if x < 0 || 2 ^ 56 ≤ x then s.trap ⟨0x07, s.g a, 0⟩
    else (s.gput 1 d (tagOf (s.g a) ++ BitVec.ofInt 56 x)).done st)
def execAdda (st : Stall) (d a b : Reg) (s : State) : Out := s.addrSum (.adda st d a b) st d a fun s => (s.g b).toInt
def execSuba (st : Stall) (d a b : Reg) (s : State) : Out := s.addrSum (.suba st d a b) st d a fun s => -(s.g b).toInt
def execAddai (st : Stall) (d a : Reg) (imm : BitVec 14) (s : State) : Out :=
  s.addrSum (.addai st d a imm) st d a fun _ => imm.toInt
def execTagset (st : Stall) (d a b : Reg) (s : State) : Out :=
  s.compute (.tagset st d a b) st 1 d fun s => (s.g b).extractLsb' 0 8 ++ addr (s.g a)
def execTagget (st : Stall) (d a : Reg) (s : State) : Out :=
  s.compute (.tagget st d a) st 1 d fun s => (tagOf (s.g a)).zeroExtend 64

/-! ### Transfers (R149, R150, R113, R368) -/

/-- The target of a displacement in words (R111). -/
def target14 (pc : VA) (disp : BitVec 14) : VA := pc + 4 * disp.signExtend 56
def target24 (pc : VA) (disp : BitVec 24) : VA := pc + 4 * disp.signExtend 56
def State.branch (s : State) (i : Instr) (st : Stall) (disp : BitVec 14) (cond : State → Bool) : Out :=
  .next (s.issue i fun s => if cond s then s.goTo s.me.pc st (target14 s.me.pc disp) id else s.done st)
def execBeq (st : Stall) (a b : Reg) (disp : BitVec 14) (s : State) : Out := s.branch (.beq st a b disp) st disp fun s => s.g a == s.g b
def execBne (st : Stall) (a b : Reg) (disp : BitVec 14) (s : State) : Out := s.branch (.bne st a b disp) st disp fun s => s.g a != s.g b
def execBlt (st : Stall) (a b : Reg) (disp : BitVec 14) (s : State) : Out := s.branch (.blt st a b disp) st disp fun s => (s.g a).slt (s.g b)
def execBge (st : Stall) (a b : Reg) (disp : BitVec 14) (s : State) : Out := s.branch (.bge st a b disp) st disp fun s => !(s.g a).slt (s.g b)
def execJmp (st : Stall) (disp : BitVec 24) (s : State) : Out :=
  .next (s.issue (.jmp st disp) fun s => s.goTo s.me.pc st (target24 s.me.pc disp) id)
def execCall (st : Stall) (disp : BitVec 24) (s : State) : Out :=
  .next (s.issue (.call st disp) fun s => s.goTo s.me.pc st (target24 s.me.pc disp) fun s => s.gput 1 31 (ofVA (s.me.pc + 4)))
/-- A transfer to a register value (R113). -/
def State.goReg (s : State) (st : Stall) (x : W64) (link : State → State) : State :=
  match badRegTarget x with
  | some t => s.trap t
  | none => s.goTo s.me.pc st (addr x) link
def execJr (st : Stall) (a : Reg) (s : State) : Out := .next (s.issue (.jr st a) fun s => s.goReg st (s.g a) id)
def execCallr (st : Stall) (d a : Reg) (s : State) : Out :=
  .next (s.issue (.callr st d a) fun s => s.goReg st (s.g a) fun s => s.gput 1 d (ofVA (s.me.pc + 4)))
def execNop (st : Stall) (s : State) : Out := .next (s.issue (.nop st) fun s => s.done st)

/-! ### Timing (R137, R151, R152) -/

/-- `CAIRN`: a latched cancel event, looked at once, before the wait, is taken by the lead; then the wait for the context's
commands, then the cairn (R137). Its image reads every register, so interlocked results are waited for (R135). -/
def execCairn (st : Stall) (s : State) : Out :=
  .next (s.issue (.cairn st) fun s =>
    if s.me.park ≠ .drain && s.act.2 = 0 && s.myCore.task.cancel then s.trap0 0x17
    else if !(s.unstarted s.act.1 s.act.2).isEmpty then s.parkDrain
    else s.cairned st)
def execDly (st : Stall) (a : Reg) (s : State) : Out :=
  .next (s.issue (.dly st a) fun s =>
    let d := ((s.g a).extractLsb' 0 32).toNat
    (s.done st).onMe fun c => { c with readyAt := c.readyAt + d, dly := d != 0 })
def execTsync (st : Stall) (s : State) : Out :=
  .next (s.issue (.tsync st) fun s => (s.onMe fun c => { c with tbase := BitVec.ofNat 64 (s.now + 1) }).done st)

/-! ### Helpers (R153, R154, R157) -/

/-- The context of a helper that starts (R153, R88, R192, R272): MODE and TEN of the lead, FLAGS zero. -/
def Ctx.helper (lead : Ctx) (pc : VA) (now : Nat) : Ctx :=
  { Ctx.init with live := true, pc := pc, g := lead.g, tbase := lead.tbase, rmode := lead.rmode &&& 0x1F0003,
                  readyAt := now + 4, floors := lead.floors }
/-- The lowest free helper index. -/
def Core.freeHelper (c : Core) : Option Nat := [1, 2, 3, 4, 5, 6, 7, 8, 9, 10].find? fun k => !c.isLive k
def execHstart (st : Stall) (d a : Reg) (s : State) : Out :=
  .next (s.issue (.hstart st d a) fun s => s.leadOnly fun s =>
    match badRegTarget (s.g a) with
    | some t => s.trap t
    | none =>
      let s1 := s.settle s.act.1 s.act.2
      if s1.held s.act.1 s.act.2 then s1.parkDrain
      else match s1.myCore.freeHelper with
      | none => (s1.gput 4 d 0).done st
      | some h =>
        let s2 := s1.setCtx s1.act.1 h (s1.me.helper (addr (s1.g a)) s1.now)
        (s2.gput 4 d (BitVec.ofNat 64 h)).done st)
/-- A helper's context after `HEXIT`: free, with undefined registers (DESIGN CHOICE: log entry 15). -/
def Ctx.exited (n : Nat) : Ctx :=
  { Ctx.init with
    g := Vector.ofFn fun i => Config.afterHexit n i.val
    v := Vector.ofFn fun i => Vector.ofFn fun j => (Config.afterHexit n (32 + 16 * i.val + j.val)).extractLsb' 0 32
    p := Vector.ofFn fun i => Config.afterHexit n (600 + i.val) &&& 0xFFFF }
def execHexit (st : Stall) (s : State) : Out :=
  .next (s.issue (.hexit st) fun s =>
    if s.act.2 = 0 then s.trap0 0x02
    else
      let s := s.settle s.act.1 s.act.2
      if s.me.fault.isSome then s.takeImprecise s.act.1 s.act.2
      else if s.blocked s.act.1 s.act.2 (.hexit st) then s.parkDrain
      else if s.now < s.me.reportsBy then s.parkTill s.me.reportsBy
      else (s.joinEngine s.act.1 s.act.2).releasing .core fun s =>
        let (n, s1) := s.freshen
        s1.setCtx s1.act.1 s1.act.2 (Ctx.exited n))
def execHwait (st : Stall) (a : Reg) (s : State) : Out :=
  .next (s.issue (.hwait st a) fun s =>
    s.wait (.hwait st a) (s.waitHolds s.act.1 s.act.2 (.hwait st a)) fun s => s.acquiring .core fun s => s.done st)
def execTid (st : Stall) (d : Reg) (s : State) : Out :=
  s.compute (.tid st d) st 1 d fun s =>
    let t := s.myCore.task
    BitVec.ofNat 64 (t.taskid.toNat + 2 ^ 32 * t.queue.toNat)

end Sys2Proof.Machine
end

