-- ==== Sys2Proof/Machine/System.lean ====
section
/-! DEFINITION. Control registers, software traps and returns, words that are no instruction, instruction fetch and
imprecise faults taken (spec/06 R113–R118; spec/08 R131; spec/09 R167; spec/15 R305–R315, R322–R329). -/

namespace Sys2Proof.Machine

/-! ### Control registers (R327, R328) -/

/-- The value that a context of the core reads. -/
def State.creg (s : State) (r : CReg) : W64 :=
  let c := s.me
  let core := s.myCore
  let e := core.ringAt (c.fseq.extractLsb' 0 6)
  match r with
  | .cause => c.cause
  | .epc => c.epc
  | .faddr => c.faddr
  | .finfo => c.finfo
  | .tbase => c.tbase
  | .cairnpc => c.cairnpc
  | .check => core.check
  | .rmode => c.rmode
  | .coord => s.coord s.act.1 s.act.2
  | .pitch => core.pitch
  | .tick => s.tick.zeroExtend 64
  | .fseq => c.fseq
  | .dring => match e with | some e => e.dring | none => 0
  | .spcfg => core.banks.spcfg
  | .guardrec => core.guardrec
  | .wstat => core.wstat
  | .xstat => c.xstat
  | .utvec => core.utvec
  | .utmask => core.utmask
  | .spkeep => core.spkeep
  | .resinfo => core.resinfo
  | .cycle => BitVec.ofNat 64 s.now
  | .drpc => match e with | some e => ofVA e.pc &&& 0xFFFFFFFFFFFFFFFC | none => 0
/-- A `CWR`, `CSET` or `CCLR` may name the register: in handler mode, or while UT is set. -/
def cregWritable (hm ut : Bool) : CReg → Bool
  | .check | .rmode | .guardrec | .wstat | .utvec | .utmask | .spkeep => true
  | .epc => hm || ut
  | .cause | .faddr | .finfo | .tbase | .cairnpc | .fseq | .resinfo => hm
  | .coord | .pitch | .tick | .dring | .spcfg | .xstat | .cycle | .drpc => false
/-- A result that the register's rule turns away (R43, R96, R131, R240, R311, R322) (DEDUCED: log entry 52). -/
def cregRefuses (r : CReg) (x : W64) : Bool :=
  match r with
  | .check => x &&& 0xFFFFFFFFFFFFFFCE ≠ 0
  | .rmode => x &&& 0xFFFFFFFFFFE0E0FC ≠ 0
  | .guardrec => x &&& 0x3FFFFFF000000000 ≠ 0
  | .wstat => x &&& 0xFFFFFFFFFFFF00FE ≠ 0
  | .utvec => x &&& 0xFF00000000000003 ≠ 0
  | .utmask => x &&& ~~~delegableMask ≠ 0
  | .spkeep => x &&& 0xFFFFFC00FFFFFC00 ≠ 0 || 576 < (x.extractLsb' 32 10).toNat + (x.extractLsb' 0 10).toNat
  | .cause | .epc | .faddr | .finfo | .tbase | .cairnpc | .coord | .pitch | .tick | .fseq | .dring | .spcfg | .xstat
  | .resinfo | .cycle | .drpc => false
/-- The write of a result: bits of fields marked R, and fields that read zero, keep their value. -/
def State.setCreg (s : State) (r : CReg) (x : W64) : State :=
  match r with
  | .cause => s.onMe fun c => { c with cause := x &&& 0xEFF }
  | .epc => s.onMe fun c => { c with epc := x &&& 0x00FFFFFFFFFFFFFC }
  | .faddr => s.onMe fun c => { c with faddr := x }
  | .finfo => s.onMe fun c => { c with finfo := x }
  | .tbase => s.onMe fun c => { c with tbase := x }
  | .cairnpc => s.onMe fun c => { c with cairnpc := x }
  | .rmode => s.onMe fun c => { c with rmode := x }
  | .fseq => s.onMe fun c => { c with fseq := x &&& 0x800000000000003F }
  | .check => s.onMyCore fun c => { c with check := x }
  | .guardrec => s.onMyCore fun c => { c with guardrec := (x &&& 0xC000000000000000) ||| (c.guardrec &&& 0x3FFFFFFFFFFFFFFF) }
  | .wstat => s.onMyCore fun c => { c with wstat := x }
  | .utvec => s.onMyCore fun c => { c with utvec := x }
  | .utmask => s.onMyCore fun c => { c with utmask := x }
  | .spkeep => s.onMyCore fun c => { c with spkeep := x }
  | .resinfo => s.onMyCore fun c => { c with resinfo := x &&& 0xFFFF00C0FFFFFFFF }
  | .coord | .pitch | .tick | .dring | .spcfg | .xstat | .cycle | .drpc => s
/-- The three writing forms: the checks in R328's order, then the write. -/
def State.writeCreg (s : State) (i : Instr) (st : Stall) (r : CReg) (x : W64) : State :=
  if !cregWritable s.me.hm s.me.ut r then s.trap0 0x02
  else if cregRefuses r x then s.illegal (wordOf i)
  else (s.setCreg r x).done st
def execCrd (st : Stall) (cr : CReg) (d : Reg) (s : State) : Out :=
  .next (s.issue (.crd st cr d) fun s =>
    if cr = .rmode then
      let s1 := s.settle s.act.1 s.act.2
      if s1.held s.act.1 s.act.2 then s1.parkDrain else (s1.gset d s1.me.rmode).done st
    else (s.gput 2 d (s.creg cr)).done st)
def execCwr (st : Stall) (cr : CReg) (a : Reg) (s : State) : Out :=
  .next (s.issue (.cwr st cr a) fun s => s.writeCreg (.cwr st cr a) st cr (s.g a))
def execCset (st : Stall) (cr : CReg) (a : Reg) (s : State) : Out :=
  .next (s.issue (.cset st cr a) fun s => s.writeCreg (.cset st cr a) st cr (s.creg cr ||| s.g a))
def execCclr (st : Stall) (cr : CReg) (a : Reg) (s : State) : Out :=
  .next (s.issue (.cclr st cr a) fun s => s.writeCreg (.cclr st cr a) st cr (s.creg cr &&& ~~~s.g a))

/-! ### Traps and returns (R312, R329) -/

def execTrap (st : Stall) (n : BitVec 6) (s : State) : Out :=
  .next (s.issue (.trap st n) fun s => s.trap ⟨0x20, 0, n.zeroExtend 64⟩)
def execEret (st : Stall) (s : State) : Out :=
  .next (s.issue (.eret st) fun s =>
    if s.me.hm then s.onMe fun c => c.leaveTrap s.now st
    else if s.me.ut then
      let t := addr s.me.epc
      if inLocal t || inRope t then s.trap ⟨0x06, ofVA t, 0⟩ else s.onMe fun c => c.leaveTrap s.now st
    else s.trap0 0x02)

/-! ### Words that are no instruction, and faults taken late (R118, R167) -/

def execIllegalInstruction (word : W32) (s : State) : Out := .next (s.begin.illegal word)
def execImpreciseFaultTaken (core ctx : Nat) (s : State) : Out := .next (s.takeImprecise core ctx)

/-! ### Instruction fetch (R113–R115, R117, R368) -/

/-- The 4-byte words from an address on, read fresh at home. -/
def State.fetchWords (s : State) (asid : Asid) (va : VA) (e : Pte) : Nat → List (VA × W32)
  | 0 => []
  | n + 1 => (va, (s.devRead asid va 4 e).extractLsb' 0 32) :: s.fetchWords asid (va + 4) e n
/-- The lines, by key, that the instruction cache holds in the set of a line: 32 sets (R115, DESIGN CHOICE: log entry 7). -/
def Core.setLines (c : Core) (ln : Nat) : List Nat :=
  c.icache.foldl (fun a w => if w.1 / 128 % 32 = ln % 32 && !a.contains (w.1 / 128) then w.1 / 128 :: a else a) []
/-- The instruction cache with room for a line: where all 8 ways of its set are in use, one line makes room (R115). -/
def Core.roomFor (c : Core) (ln f : Nat) : Table W32 :=
  let ls := c.setLines ln
  if ls.length < 8 || ls.contains ln then c.icache
  else match ls[Config.victim f % ls.length]? with
    | some v => c.icache.filter fun w => w.1 / 128 != v
    | none => c.icache
/-- A line comes into the instruction cache, of a full set in place of another (DESIGN CHOICE: log entry 7); its slice translates, and
classifies, the page as for a data miss (R114, R219). -/
def State.fillFetch (s : State) (n k : Nat) (asid : Asid) (va : VA) (e : Pte) : State :=
  let (f, s1) := s.freshen
  let s2 := ((s1.keepXlat asid va e).classify n false asid va e (e.pa va)).readHeat n asid va e (e.pa va)
  if e.uc then
    let ws := s2.fetchWords asid va e (4 - va.toNat / 4 % 4)
    s2.onCtx n k fun c => { c with fbuf := ws.foldl (fun t w => Table.put w.1.toNat w.2 t) [], readyAt := s.now + s.lat.load }
  else
    let ws := s2.fetchWords asid (va &&& 0xFFFFFFFFFFFF80) e 32
    let s3 := s2.onCore n fun c => { c with
      icache := ws.foldl (fun t w => Table.put (byteKey asid w.1) w.2 t) (c.roomFor (byteKey asid va / 128) f) }
    (s3.present n asid va e).onCtx n k fun c => { c with readyAt := s.now + s.lat.load }
def execInstructionFetch (core ctx : Nat) (s : State) : Out :=
  .next (
    let c := s.ctx core ctx
    let asid := (s.core core).asid
    if (!c.live && !c.hm) || (s.fetched core ctx).isSome then s
    else if c.hm && inHandler c.pc then s.haltFault core 0x13
    else if inLocal c.pc || inRope c.pc then s.takeTrap core ctx ⟨0x06, ofVA c.pc, 0⟩ c.pc false false false
    else match s.check .fetch asid c.pc 4 with
      | .ok e _ => s.fillFetch core ctx asid c.pc e
      | .trap t => s.takeTrap core ctx ⟨t.cause, ofVA c.pc, 0⟩ c.pc false false false
      | .page va w => s.onCtx core ctx fun c => { c with park := .pageFault asid (ofVA va) w })

end Sys2Proof.Machine
end

