-- ==== Sys2Proof/Machine/Dispatch.lean ====
section
/-! DEFINITION. What each row of spec/opcode_table.json does: one arm per constructor, each one direct call of its
meaning. -/

namespace Sys2Proof.Machine

/-- Carry out one instruction, or one step of the device. -/
def exec (i : Instr) (s : State) : Host.Outcome State Fault Refusal :=
  match i with
  | .add st d a b => Sys2Proof.Machine.execAdd st d a b s
  | .sub st d a b => Sys2Proof.Machine.execSub st d a b s
  | .mul st d a b => Sys2Proof.Machine.execMul st d a b s
  | .mulh st t d a b => Sys2Proof.Machine.execMulh st t d a b s
  | .div st t d a b => Sys2Proof.Machine.execDiv st t d a b s
  | .rem st t d a b => Sys2Proof.Machine.execRem st t d a b s
  | .min st t d a b => Sys2Proof.Machine.execMin st t d a b s
  | .max st t d a b => Sys2Proof.Machine.execMax st t d a b s
  | .and st d a b => Sys2Proof.Machine.execAnd st d a b s
  | .or st d a b => Sys2Proof.Machine.execOr st d a b s
  | .xor st d a b => Sys2Proof.Machine.execXor st d a b s
  | .andn st d a b => Sys2Proof.Machine.execAndn st d a b s
  | .shl st d a b => Sys2Proof.Machine.execShl st d a b s
  | .shr st d a b => Sys2Proof.Machine.execShr st d a b s
  | .sra st d a b => Sys2Proof.Machine.execSra st d a b s
  | .rotr st d a b => Sys2Proof.Machine.execRotr st d a b s
  | .clz st d a => Sys2Proof.Machine.execClz st d a s
  | .ctz st d a => Sys2Proof.Machine.execCtz st d a s
  | .popc st d a => Sys2Proof.Machine.execPopc st d a s
  | .slt st t d a b => Sys2Proof.Machine.execSlt st t d a b s
  | .seq st d a b => Sys2Proof.Machine.execSeq st d a b s
  | .sne st d a b => Sys2Proof.Machine.execSne st d a b s
  | .sext st w d a => Sys2Proof.Machine.execSext st w d a s
  | .zext st w d a => Sys2Proof.Machine.execZext st w d a s
  | .addi st d a imm => Sys2Proof.Machine.execAddi st d a imm s
  | .andi st d a imm => Sys2Proof.Machine.execAndi st d a imm s
  | .ori st d a imm => Sys2Proof.Machine.execOri st d a imm s
  | .xori st d a imm => Sys2Proof.Machine.execXori st d a imm s
  | .slti st d a imm => Sys2Proof.Machine.execSlti st d a imm s
  | .shli st d a sh => Sys2Proof.Machine.execShli st d a sh s
  | .shri st d a sh => Sys2Proof.Machine.execShri st d a sh s
  | .srai st d a sh => Sys2Proof.Machine.execSrai st d a sh s
  | .lui st d imm => Sys2Proof.Machine.execLui st d imm s
  | .lcat st d imm => Sys2Proof.Machine.execLcat st d imm s
  | .lpc st d imm => Sys2Proof.Machine.execLpc st d imm s
  | .adda st d a b => Sys2Proof.Machine.execAdda st d a b s
  | .tagset st d a b => Sys2Proof.Machine.execTagset st d a b s
  | .tagget st d a => Sys2Proof.Machine.execTagget st d a s
  | .suba st d a b => Sys2Proof.Machine.execSuba st d a b s
  | .addai st d a imm => Sys2Proof.Machine.execAddai st d a imm s
  | .beq st a b disp => Sys2Proof.Machine.execBeq st a b disp s
  | .bne st a b disp => Sys2Proof.Machine.execBne st a b disp s
  | .blt st a b disp => Sys2Proof.Machine.execBlt st a b disp s
  | .bge st a b disp => Sys2Proof.Machine.execBge st a b disp s
  | .jmp st disp => Sys2Proof.Machine.execJmp st disp s
  | .call st disp => Sys2Proof.Machine.execCall st disp s
  | .jr st a => Sys2Proof.Machine.execJr st a s
  | .callr st d a => Sys2Proof.Machine.execCallr st d a s
  | .nop st => Sys2Proof.Machine.execNop st s
  | .cairn st => Sys2Proof.Machine.execCairn st s
  | .dly st a => Sys2Proof.Machine.execDly st a s
  | .tsync st => Sys2Proof.Machine.execTsync st s
  | .hstart st d a => Sys2Proof.Machine.execHstart st d a s
  | .hexit st => Sys2Proof.Machine.execHexit st s
  | .hwait st a => Sys2Proof.Machine.execHwait st a s
  | .tdone st => Sys2Proof.Machine.execTdone st s
  | .tdec st a => Sys2Proof.Machine.execTdec st a s
  | .tcancel st d a => Sys2Proof.Machine.execTcancel st d a s
  | .tid st d => Sys2Proof.Machine.execTid st d s
  | .fadd st t r d a b => Sys2Proof.Machine.execFadd st t r d a b s
  | .fsub st t r d a b => Sys2Proof.Machine.execFsub st t r d a b s
  | .fmul st t r d a b => Sys2Proof.Machine.execFmul st t r d a b s
  | .fdiv st t r d a b => Sys2Proof.Machine.execFdiv st t r d a b s
  | .fsqrt st t r d a => Sys2Proof.Machine.execFsqrt st t r d a s
  | .fma st t r d a b => Sys2Proof.Machine.execFma st t r d a b s
  | .fmin st t d a b => Sys2Proof.Machine.execFmin st t d a b s
  | .fmax st t d a b => Sys2Proof.Machine.execFmax st t d a b s
  | .feq st t d a b => Sys2Proof.Machine.execFeq st t d a b s
  | .flt st t d a b => Sys2Proof.Machine.execFlt st t d a b s
  | .fle st t d a b => Sys2Proof.Machine.execFle st t d a b s
  | .fclass st t d a => Sys2Proof.Machine.execFclass st t d a s
  | .fexp2 st t d a => Sys2Proof.Machine.execFexp2 st t d a s
  | .fneg st t d a => Sys2Proof.Machine.execFneg st t d a s
  | .fabs st t d a => Sys2Proof.Machine.execFabs st t d a s
  | .fcvt st tgt src r nsat d a => Sys2Proof.Machine.execFcvt st tgt src r nsat d a s
  | .ld st t d b off => Sys2Proof.Machine.execLd st t d b off s
  | .ldFresh st t d b off => Sys2Proof.Machine.execLdFresh st t d b off s
  | .st st t d b off => Sys2Proof.Machine.execSt st t d b off s
  | .ldAcq st sc d b off => Sys2Proof.Machine.execLdAcq st sc d b off s
  | .stRel st sc d b off => Sys2Proof.Machine.execStRel st sc d b off s
  | .ldw st t d w b => Sys2Proof.Machine.execLdw st t d w b s
  | .ldxF32 st d a b => Sys2Proof.Machine.execLdxF32 st d a b s
  | .ldxS32 st d a b => Sys2Proof.Machine.execLdxS32 st d a b s
  | .stx st d a b => Sys2Proof.Machine.execStx st d a b s
  | .stxNsat st d a b => Sys2Proof.Machine.execStxNsat st d a b s
  | .pref st a b => Sys2Proof.Machine.execPref st a b s
  | .spresize st a => Sys2Proof.Machine.execSpresize st a s
  | .renew st a b => Sys2Proof.Machine.execRenew st a b s
  | .flush st a b => Sys2Proof.Machine.execFlush st a b s
  | .flushinv st a b => Sys2Proof.Machine.execFlushinv st a b s
  | .seqset st a b => Sys2Proof.Machine.execSeqset st a b s
  | .seqget st d a => Sys2Proof.Machine.execSeqget st d a s
  | .icinv st sc a b => Sys2Proof.Machine.execIcinv st sc a b s
  | .atom st op t d a b => Sys2Proof.Machine.execAtom st op t d a b s
  | .atomnr st op t a b => Sys2Proof.Machine.execAtomnr st op t a b s
  | .fenceAcq st sc => Sys2Proof.Machine.execFenceAcq st sc s
  | .fenceRel st sc => Sys2Proof.Machine.execFenceRel st sc s
  | .fenceAr st sc => Sys2Proof.Machine.execFenceAr st sc s
  | .belay st sc a => Sys2Proof.Machine.execBelay st sc a s
  | .barr st sc d a => Sys2Proof.Machine.execBarr st sc d a s
  | .bwait st sc a b => Sys2Proof.Machine.execBwait st sc a b s
  | .wfe st d a => Sys2Proof.Machine.execWfe st d a s
  | .evsig st a => Sys2Proof.Machine.execEvsig st a s
  | .cwait st a b => Sys2Proof.Machine.execCwait st a b s
  | .cwaitb st d a b => Sys2Proof.Machine.execCwaitb st d a b s
  | .qpush st a b => Sys2Proof.Machine.execQpush st a b s
  | .qpop st d a => Sys2Proof.Machine.execQpop st d a s
  | .qpopb st d a b => Sys2Proof.Machine.execQpopb st d a b s
  | .futwait st d a => Sys2Proof.Machine.execFutwait st d a s
  | .futset st d a b => Sys2Proof.Machine.execFutset st d a b s
  | .futwaitb st d a b => Sys2Proof.Machine.execFutwaitb st d a b s
  | .send st d a b => Sys2Proof.Machine.execSend st d a b s
  | .sendb st d a b => Sys2Proof.Machine.execSendb st d a b s
  | .recv st d => Sys2Proof.Machine.execRecv st d s
  | .recvb st d a => Sys2Proof.Machine.execRecvb st d a s
  | .vadd st d a b p => Sys2Proof.Machine.execVadd st d a b p s
  | .vsub st d a b p => Sys2Proof.Machine.execVsub st d a b p s
  | .vmul st d a b p => Sys2Proof.Machine.execVmul st d a b p s
  | .vfma st d a b p => Sys2Proof.Machine.execVfma st d a b p s
  | .vdiv st d a b p => Sys2Proof.Machine.execVdiv st d a b p s
  | .vsqrt st d a p => Sys2Proof.Machine.execVsqrt st d a p s
  | .vmin st d a b p => Sys2Proof.Machine.execVmin st d a b p s
  | .vmax st d a b p => Sys2Proof.Machine.execVmax st d a b p s
  | .vexp2 st d a p => Sys2Proof.Machine.execVexp2 st d a p s
  | .vabs st d a p => Sys2Proof.Machine.execVabs st d a p s
  | .vneg st d a p => Sys2Proof.Machine.execVneg st d a p s
  | .viadd st d a b p => Sys2Proof.Machine.execViadd st d a b p s
  | .visub st d a b p => Sys2Proof.Machine.execVisub st d a b p s
  | .vimul st d a b p => Sys2Proof.Machine.execVimul st d a b p s
  | .viminS32 st d a b p => Sys2Proof.Machine.execViminS32 st d a b p s
  | .viminZ32 st d a b p => Sys2Proof.Machine.execViminZ32 st d a b p s
  | .vimaxS32 st d a b p => Sys2Proof.Machine.execVimaxS32 st d a b p s
  | .vimaxZ32 st d a b p => Sys2Proof.Machine.execVimaxZ32 st d a b p s
  | .vand st d a b p => Sys2Proof.Machine.execVand st d a b p s
  | .vor st d a b p => Sys2Proof.Machine.execVor st d a b p s
  | .vxor st d a b p => Sys2Proof.Machine.execVxor st d a b p s
  | .vshl st d a b p => Sys2Proof.Machine.execVshl st d a b p s
  | .vshr st d a b p => Sys2Proof.Machine.execVshr st d a b p s
  | .vsra st d a b p => Sys2Proof.Machine.execVsra st d a b p s
  | .vfcmpEq st d a b p => Sys2Proof.Machine.execVfcmpEq st d a b p s
  | .vfcmpLt st d a b p => Sys2Proof.Machine.execVfcmpLt st d a b p s
  | .vfcmpLe st d a b p => Sys2Proof.Machine.execVfcmpLe st d a b p s
  | .vicmpEq st d a b p => Sys2Proof.Machine.execVicmpEq st d a b p s
  | .vicmpLtS32 st d a b p => Sys2Proof.Machine.execVicmpLtS32 st d a b p s
  | .vicmpLtZ32 st d a b p => Sys2Proof.Machine.execVicmpLtZ32 st d a b p s
  | .vsel st d a b p => Sys2Proof.Machine.execVsel st d a b p s
  | .vpset st d a p => Sys2Proof.Machine.execVpset st d a p s
  | .vpget st d a p => Sys2Proof.Machine.execVpget st d a p s
  | .vperm st d a b p => Sys2Proof.Machine.execVperm st d a b p s
  | .vcvt st tgt src nsat d a p => Sys2Proof.Machine.execVcvt st tgt src nsat d a p s
  | .vradd st d a p => Sys2Proof.Machine.execVradd st d a p s
  | .vrmax st d a p => Sys2Proof.Machine.execVrmax st d a p s
  | .vrmin st d a p => Sys2Proof.Machine.execVrmin st d a p s
  | .vriadd st d a p => Sys2Proof.Machine.execVriadd st d a p s
  | .vrimaxS32 st d a p => Sys2Proof.Machine.execVrimaxS32 st d a p s
  | .vrimaxZ32 st d a p => Sys2Proof.Machine.execVrimaxZ32 st d a p s
  | .vriminS32 st d a p => Sys2Proof.Machine.execVriminS32 st d a p s
  | .vriminZ32 st d a p => Sys2Proof.Machine.execVriminZ32 st d a p s
  | .vld st v d a => Sys2Proof.Machine.execVld st v d a s
  | .vst st v d a => Sys2Proof.Machine.execVst st v d a s
  | .vldx st v d a => Sys2Proof.Machine.execVldx st v d a s
  | .vstx st v d a => Sys2Proof.Machine.execVstx st v d a s
  | .vgather st v d a => Sys2Proof.Machine.execVgather st v d a s
  | .vscatter st v d a => Sys2Proof.Machine.execVscatter st v d a s
  | .vbcast st v a => Sys2Proof.Machine.execVbcast st v a s
  | .vins st v d a => Sys2Proof.Machine.execVins st v d a s
  | .vext st v d a => Sys2Proof.Machine.execVext st v d a s
  | .mmul st t a b c => Sys2Proof.Machine.execMmul st t a b c s
  | .mmac st t a b c => Sys2Proof.Machine.execMmac st t a b c s
  | .mrun st t a b c => Sys2Proof.Machine.execMrun st t a b c s
  | .mread st t a b c => Sys2Proof.Machine.execMread st t a b c s
  | .mzero st t c => Sys2Proof.Machine.execMzero st t c s
  | .mcomb st t a c => Sys2Proof.Machine.execMcomb st t a c s
  | .mprog st a c => Sys2Proof.Machine.execMprog st a c s
  | .mload st t a b c => Sys2Proof.Machine.execMload st t a b c s
  | .lease st => Sys2Proof.Machine.execLease st s
  | .leaseb st a => Sys2Proof.Machine.execLeaseb st a s
  | .leasend st => Sys2Proof.Machine.execLeasend st s
  | .leaseq st d => Sys2Proof.Machine.execLeaseq st d s
  | .mdim st a => Sys2Proof.Machine.execMdim st a s
  | .mseq st a => Sys2Proof.Machine.execMseq st a s
  | .lcfg st a c => Sys2Proof.Machine.execLcfg st a c s
  | .lwgt st a c => Sys2Proof.Machine.execLwgt st a c s
  | .lstep st src a c => Sys2Proof.Machine.execLstep st src a c s
  | .lread st a c => Sys2Proof.Machine.execLread st a c s
  | .lrung st a b c => Sys2Proof.Machine.execLrung st a b c s
  | .lclr st c => Sys2Proof.Machine.execLclr st c s
  | .copy st a b c => Sys2Proof.Machine.execCopy st a b c s
  | .copyApnd st a b c => Sys2Proof.Machine.execCopyApnd st a b c s
  | .copyl st a b c => Sys2Proof.Machine.execCopyl st a b c s
  | .copyz st a b c => Sys2Proof.Machine.execCopyz st a b c s
  | .cbump st a b c => Sys2Proof.Machine.execCbump st a b c s
  | .lroot st d a => Sys2Proof.Machine.execLroot st d a s
  | .fork st d a b => Sys2Proof.Machine.execFork st d a b s
  | .flatten st d a => Sys2Proof.Machine.execFlatten st d a s
  | .rebase st d a b => Sys2Proof.Machine.execRebase st d a b s
  | .ldrop st a => Sys2Proof.Machine.execLdrop st a s
  | .linfo st d a b => Sys2Proof.Machine.execLinfo st d a b s
  | .ldl st d a b => Sys2Proof.Machine.execLdl st d a b s
  | .vclaim st a => Sys2Proof.Machine.execVclaim st a s
  | .apnd st d a b => Sys2Proof.Machine.execApnd st d a b s
  | .tailset st a b => Sys2Proof.Machine.execTailset st a b s
  | .seal st a => Sys2Proof.Machine.execSeal st a s
  | .vfree st a => Sys2Proof.Machine.execVfree st a s
  | .vtail st d a => Sys2Proof.Machine.execVtail st d a s
  | .fput st a => Sys2Proof.Machine.execFput st a s
  | .fget st a => Sys2Proof.Machine.execFget st a s
  | .fmcast st a => Sys2Proof.Machine.execFmcast st a s
  | .fsync st => Sys2Proof.Machine.execFsync st s
  | .fred st op a b => Sys2Proof.Machine.execFred st op a b s
  | .crd st cr d => Sys2Proof.Machine.execCrd st cr d s
  | .cwr st cr a => Sys2Proof.Machine.execCwr st cr a s
  | .cset st cr a => Sys2Proof.Machine.execCset st cr a s
  | .cclr st cr a => Sys2Proof.Machine.execCclr st cr a s
  | .trap st n => Sys2Proof.Machine.execTrap st n s
  | .eret st => Sys2Proof.Machine.execEret st s
  | .ctxsv st a => Sys2Proof.Machine.execCtxsv st a s
  | .ctxld st a => Sys2Proof.Machine.execCtxld st a s
  | .bxch st => Sys2Proof.Machine.execBxch st s
  | .cresume st => Sys2Proof.Machine.execCresume st s
  | .hostRegisterWrite t size val => Sys2Proof.Machine.execHostRegisterWrite t size val s
  | .qtailWrite q v => Sys2Proof.Machine.execQtailWrite q v s
  | .queueEnable q en => Sys2Proof.Machine.execQueueEnable q en s
  | .queueClear q => Sys2Proof.Machine.execQueueClear q s
  | .submitRecord q => Sys2Proof.Machine.execSubmitRecord q s
  | .cancelRecord q => Sys2Proof.Machine.execCancelRecord q s
  | .markerRecord q => Sys2Proof.Machine.execMarkerRecord q s
  | .recordSettle id => Sys2Proof.Machine.execRecordSettle id s
  | .curatorBind core slot start delay spill => Sys2Proof.Machine.execCuratorBind core slot start delay spill s
  | .dispatchBind core slot => Sys2Proof.Machine.execDispatchBind core slot s
  | .dispatchStart core slot => Sys2Proof.Machine.execDispatchStart core slot s
  | .dispatchSelect core => Sys2Proof.Machine.execDispatchSelect core s
  | .preemptTake core => Sys2Proof.Machine.execPreemptTake core s
  | .handlerEntry core ctx ent => Sys2Proof.Machine.execHandlerEntry core ctx ent s
  | .taskFailure core => Sys2Proof.Machine.execTaskFailure core s
  | .impreciseFaultTaken core ctx => Sys2Proof.Machine.execImpreciseFaultTaken core ctx s
  | .ageInterval => Sys2Proof.Machine.execAgeInterval s
  | .tick => Sys2Proof.Machine.execTick s
  | .watchdogExpiry core slot => Sys2Proof.Machine.execWatchdogExpiry core slot s
  | .granuleCheckerVisit core g => Sys2Proof.Machine.execGranuleCheckerVisit core g s
  | .cacheLineSweep core asid line => Sys2Proof.Machine.execCacheLineSweep core asid line s
  | .cacheLineExpire core asid line => Sys2Proof.Machine.execCacheLineExpire core asid line s
  | .fifoEntrySpill core bank => Sys2Proof.Machine.execFifoEntrySpill core bank s
  | .leaseGrant rope => Sys2Proof.Machine.execLeaseGrant rope s
  | .leaseRunEnd rope granted => Sys2Proof.Machine.execLeaseRunEnd rope granted s
  | .engineCommandStart core id => Sys2Proof.Machine.execEngineCommandStart core id s
  | .retryResume core ctx => Sys2Proof.Machine.execRetryResume core ctx s
  | .engineCommandComplete core id => Sys2Proof.Machine.execEngineCommandComplete core id s
  | .copyComplete core id => Sys2Proof.Machine.execCopyComplete core id s
  | .boundedWaitExpiry core ctx token => Sys2Proof.Machine.execBoundedWaitExpiry core ctx token s
  | .wfeTimeout core ctx token => Sys2Proof.Machine.execWfeTimeout core ctx token s
  | .loadAnswered id => Sys2Proof.Machine.execLoadAnswered id s
  | .storePerformed id => Sys2Proof.Machine.execStorePerformed id s
  | .atomicPerformed id => Sys2Proof.Machine.execAtomicPerformed id s
  | .predsDecrement asid tcb pa => Sys2Proof.Machine.execPredsDecrement asid tcb pa s
  | .pageReclassify asid va => Sys2Proof.Machine.execPageReclassify asid va s
  | .pageFaultAnswer who pte w0 w8 => Sys2Proof.Machine.execPageFaultAnswer who pte w0 w8 s
  | .pageFaultDenial who => Sys2Proof.Machine.execPageFaultDenial who s
  | .xlatInvalidatePage func => Sys2Proof.Machine.execXlatInvalidatePage func s
  | .xlatInvalidateAll func => Sys2Proof.Machine.execXlatInvalidateAll func s
  | .xlatInvalidateComplete => Sys2Proof.Machine.execXlatInvalidateComplete s
  | .migrationRequest => Sys2Proof.Machine.execMigrationRequest s
  | .heatHalve => Sys2Proof.Machine.execHeatHalve s
  | .heatArrayWrite die => Sys2Proof.Machine.execHeatArrayWrite die s
  | .rlctlGo => Sys2Proof.Machine.execRlctlGo s
  | .retirementListLoad => Sys2Proof.Machine.execRetirementListLoad s
  | .memoryEccError pa uncorrectable => Sys2Proof.Machine.execMemoryEccError pa uncorrectable s
  | .uncorrectableError site => Sys2Proof.Machine.execUncorrectableError site s
  | .vitrineDataWritten asid page claim => Sys2Proof.Machine.execVitrineDataWritten asid page claim s
  | .recallAck asid page holder => Sys2Proof.Machine.execRecallAck asid page holder s
  | .ropeNetStoreArrival core ends bytes => Sys2Proof.Machine.execRopeNetStoreArrival core ends bytes s
  | .seqsetTagWrite core task slot tag => Sys2Proof.Machine.execSeqsetTagWrite core task slot tag s
  | .queueEntryArrival core task q val => Sys2Proof.Machine.execQueueEntryArrival core task q val s
  | .messageDelivery core taskid asid val fromCore fromCtx token => Sys2Proof.Machine.execMessageDelivery core taskid asid val fromCore fromCtx token s
  | .eventSignalArrival core asid => Sys2Proof.Machine.execEventSignalArrival core asid s
  | .belayArrival node expect child word => Sys2Proof.Machine.execBelayArrival node expect child word s
  | .belayRelease node => Sys2Proof.Machine.execBelayRelease node s
  | .fabricLanding head off data => Sys2Proof.Machine.execFabricLanding head off data s
  | .fabricTransferComplete id => Sys2Proof.Machine.execFabricTransferComplete id s
  | .reductionPartialArrival key seq port op elems vals bad => Sys2Proof.Machine.execReductionPartialArrival key seq port op elems vals bad s
  | .reductionOutcomeArrival key seq bad res => Sys2Proof.Machine.execReductionOutcomeArrival key seq bad res s
  | .remoteAccessTimeout id => Sys2Proof.Machine.execRemoteAccessTimeout id s
  | .fabricLinkChange port up pkg => Sys2Proof.Machine.execFabricLinkChange port up pkg s
  | .reclamationEntryWrite asid kind handle range since => Sys2Proof.Machine.execReclamationEntryWrite asid kind handle range since s
  | .crtailWrite v => Sys2Proof.Machine.execCrtailWrite v s
  | .thermalLevelStep temp => Sys2Proof.Machine.execThermalLevelStep temp s
  | .coreOvertempHalt core => Sys2Proof.Machine.execCoreOvertempHalt core s
  | .telemUpdate watts temp => Sys2Proof.Machine.execTelemUpdate watts temp s
  | .fwGo => Sys2Proof.Machine.execFwGo s
  | .fwVerifyComplete edOk mlOk => Sys2Proof.Machine.execFwVerifyComplete edOk mlOk s
  | .attestGo => Sys2Proof.Machine.execAttestGo s
  | .attestReportComplete => Sys2Proof.Machine.execAttestReportComplete s
  | .hostLinkTraining cxl => Sys2Proof.Machine.execHostLinkTraining cxl s
  | .packageReset => Sys2Proof.Machine.execPackageReset s
  | .functionLevelReset f => Sys2Proof.Machine.execFunctionLevelReset f s
  | .flrComplete f => Sys2Proof.Machine.execFlrComplete f s
  | .bivouacSpill core => Sys2Proof.Machine.execBivouacSpill core s
  | .spillLoadBack core slot => Sys2Proof.Machine.execSpillLoadBack core slot s
  | .haltedFaultRecovery core => Sys2Proof.Machine.execHaltedFaultRecovery core s
  | .icinvComplete core ctx => Sys2Proof.Machine.execIcinvComplete core ctx s
  | .flushWalkComplete core ctx => Sys2Proof.Machine.execFlushWalkComplete core ctx s
  | .illegalInstruction word => Sys2Proof.Machine.execIllegalInstruction word s
  | .instructionFetch core ctx => Sys2Proof.Machine.execInstructionFetch core ctx s
  | .curatorCancel asid tcb => Sys2Proof.Machine.execCuratorCancel asid tcb s

end Sys2Proof.Machine
end

