-- ==== Sys2Proof/Machine/RunEv.lean ====
section
/-! DEFINITION. An event of `State.queue` carried out: the meaning that `exec` calls for the same constructor of
`Instr` (Laws/Exec.lean proves the agreement). -/

namespace Sys2Proof.Machine

/-- Carry out an event that is due (DESIGN CHOICE: log entry 11). -/
def runEv (e : Ev) (s : State) : Host.Outcome State Fault Refusal :=
  match e with
  | .hostRegisterWrite t size val => Sys2Proof.Machine.execHostRegisterWrite t size val s
  | .qtailWrite q v => Sys2Proof.Machine.execQtailWrite q v s
  | .queueEnable q en => Sys2Proof.Machine.execQueueEnable q en s
  | .queueClear q => Sys2Proof.Machine.execQueueClear q s
  | .submitRecord q => Sys2Proof.Machine.execSubmitRecord q s
  | .cancelRecord q => Sys2Proof.Machine.execCancelRecord q s
  | .markerRecord q => Sys2Proof.Machine.execMarkerRecord q s
  | .recordSettle id => Sys2Proof.Machine.execRecordSettle id s
  | .curatorBind core slot start delay spill => Sys2Proof.Machine.execCuratorBind core slot start delay spill s
  | .dispatchBind core slot => Sys2Proof.Machine.execDispatchBind core slot s
  | .dispatchStart core slot => Sys2Proof.Machine.execDispatchStart core slot s
  | .dispatchSelect core => Sys2Proof.Machine.execDispatchSelect core s
  | .preemptTake core => Sys2Proof.Machine.execPreemptTake core s
  | .handlerEntry core ctx ent => Sys2Proof.Machine.execHandlerEntry core ctx ent s
  | .taskFailure core => Sys2Proof.Machine.execTaskFailure core s
  | .impreciseFaultTaken core ctx => Sys2Proof.Machine.execImpreciseFaultTaken core ctx s
  | .ageInterval => Sys2Proof.Machine.execAgeInterval s
  | .tick => Sys2Proof.Machine.execTick s
  | .watchdogExpiry core slot => Sys2Proof.Machine.execWatchdogExpiry core slot s
  | .granuleCheckerVisit core g => Sys2Proof.Machine.execGranuleCheckerVisit core g s
  | .cacheLineSweep core asid line => Sys2Proof.Machine.execCacheLineSweep core asid line s
  | .cacheLineExpire core asid line => Sys2Proof.Machine.execCacheLineExpire core asid line s
  | .fifoEntrySpill core bank => Sys2Proof.Machine.execFifoEntrySpill core bank s
  | .leaseGrant rope => Sys2Proof.Machine.execLeaseGrant rope s
  | .leaseRunEnd rope granted => Sys2Proof.Machine.execLeaseRunEnd rope granted s
  | .engineCommandStart core id => Sys2Proof.Machine.execEngineCommandStart core id s
  | .retryResume core ctx => Sys2Proof.Machine.execRetryResume core ctx s
  | .engineCommandComplete core id => Sys2Proof.Machine.execEngineCommandComplete core id s
  | .copyComplete core id => Sys2Proof.Machine.execCopyComplete core id s
  | .boundedWaitExpiry core ctx token => Sys2Proof.Machine.execBoundedWaitExpiry core ctx token s
  | .wfeTimeout core ctx token => Sys2Proof.Machine.execWfeTimeout core ctx token s
  | .loadAnswered id => Sys2Proof.Machine.execLoadAnswered id s
  | .storePerformed id => Sys2Proof.Machine.execStorePerformed id s
  | .atomicPerformed id => Sys2Proof.Machine.execAtomicPerformed id s
  | .predsDecrement asid tcb pa => Sys2Proof.Machine.execPredsDecrement asid tcb pa s
  | .pageReclassify asid va => Sys2Proof.Machine.execPageReclassify asid va s
  | .pageFaultAnswer who pte w0 w8 => Sys2Proof.Machine.execPageFaultAnswer who pte w0 w8 s
  | .pageFaultDenial who => Sys2Proof.Machine.execPageFaultDenial who s
  | .xlatInvalidatePage func => Sys2Proof.Machine.execXlatInvalidatePage func s
  | .xlatInvalidateAll func => Sys2Proof.Machine.execXlatInvalidateAll func s
  | .xlatInvalidateComplete => Sys2Proof.Machine.execXlatInvalidateComplete s
  | .migrationRequest => Sys2Proof.Machine.execMigrationRequest s
  | .heatHalve => Sys2Proof.Machine.execHeatHalve s
  | .heatArrayWrite die => Sys2Proof.Machine.execHeatArrayWrite die s
  | .rlctlGo => Sys2Proof.Machine.execRlctlGo s
  | .retirementListLoad => Sys2Proof.Machine.execRetirementListLoad s
  | .memoryEccError pa uncorrectable => Sys2Proof.Machine.execMemoryEccError pa uncorrectable s
  | .uncorrectableError site => Sys2Proof.Machine.execUncorrectableError site s
  | .vitrineDataWritten asid page claim => Sys2Proof.Machine.execVitrineDataWritten asid page claim s
  | .recallAck asid page holder => Sys2Proof.Machine.execRecallAck asid page holder s
  | .ropeNetStoreArrival core ends bytes => Sys2Proof.Machine.execRopeNetStoreArrival core ends bytes s
  | .seqsetTagWrite core task slot tag => Sys2Proof.Machine.execSeqsetTagWrite core task slot tag s
  | .queueEntryArrival core task q val => Sys2Proof.Machine.execQueueEntryArrival core task q val s
  | .messageDelivery core taskid asid val fromCore fromCtx token => Sys2Proof.Machine.execMessageDelivery core taskid asid val fromCore fromCtx token s
  | .eventSignalArrival core asid => Sys2Proof.Machine.execEventSignalArrival core asid s
  | .belayArrival node expect child word => Sys2Proof.Machine.execBelayArrival node expect child word s
  | .belayRelease node => Sys2Proof.Machine.execBelayRelease node s
  | .fabricLanding head off data => Sys2Proof.Machine.execFabricLanding head off data s
  | .fabricTransferComplete id => Sys2Proof.Machine.execFabricTransferComplete id s
  | .reductionPartialArrival key seq port op elems vals bad => Sys2Proof.Machine.execReductionPartialArrival key seq port op elems vals bad s
  | .reductionOutcomeArrival key seq bad res => Sys2Proof.Machine.execReductionOutcomeArrival key seq bad res s
  | .remoteAccessTimeout id => Sys2Proof.Machine.execRemoteAccessTimeout id s
  | .fabricLinkChange port up pkg => Sys2Proof.Machine.execFabricLinkChange port up pkg s
  | .reclamationEntryWrite asid kind handle range since => Sys2Proof.Machine.execReclamationEntryWrite asid kind handle range since s
  | .crtailWrite v => Sys2Proof.Machine.execCrtailWrite v s
  | .thermalLevelStep temp => Sys2Proof.Machine.execThermalLevelStep temp s
  | .coreOvertempHalt core => Sys2Proof.Machine.execCoreOvertempHalt core s
  | .telemUpdate watts temp => Sys2Proof.Machine.execTelemUpdate watts temp s
  | .fwGo => Sys2Proof.Machine.execFwGo s
  | .fwVerifyComplete edOk mlOk => Sys2Proof.Machine.execFwVerifyComplete edOk mlOk s
  | .attestGo => Sys2Proof.Machine.execAttestGo s
  | .attestReportComplete => Sys2Proof.Machine.execAttestReportComplete s
  | .hostLinkTraining cxl => Sys2Proof.Machine.execHostLinkTraining cxl s
  | .packageReset => Sys2Proof.Machine.execPackageReset s
  | .functionLevelReset f => Sys2Proof.Machine.execFunctionLevelReset f s
  | .flrComplete f => Sys2Proof.Machine.execFlrComplete f s
  | .bivouacSpill core => Sys2Proof.Machine.execBivouacSpill core s
  | .spillLoadBack core slot => Sys2Proof.Machine.execSpillLoadBack core slot s
  | .haltedFaultRecovery core => Sys2Proof.Machine.execHaltedFaultRecovery core s
  | .icinvComplete core ctx => Sys2Proof.Machine.execIcinvComplete core ctx s
  | .flushWalkComplete core ctx => Sys2Proof.Machine.execFlushWalkComplete core ctx s
  | .illegalInstruction word => Sys2Proof.Machine.execIllegalInstruction word s
  | .instructionFetch core ctx => Sys2Proof.Machine.execInstructionFetch core ctx s
  | .curatorCancel asid tcb => Sys2Proof.Machine.execCuratorCancel asid tcb s

end Sys2Proof.Machine
end

