-- ==== Sys2Proof/Machine/Step.lean ====
section
/-! DEFINITION. One step of the machine (DESIGN CHOICE: log entries 3 and 6): an event that is due, else the word of the next context
that can issue in this cycle, else the clock moves on. -/

namespace Sys2Proof.Machine

/-- The word of the context whose turn it is (R118, R129, R167). -/
def State.turn (s : State) (n k : Nat) (t : Turn) : Host.Outcome State Fault Refusal :=
  let s1 : State := { s with act := (n, k) }
  match t with
  | .word i => exec i (s1.onMe fun c => { c with word := some i })
  | .bad w => runEv (.illegalInstruction w) s1
  | .fetch => runEv (.instructionFetch n k) s1
  | .imprecise => runEv (.impreciseFaultTaken n k) s1

/-- No event is due: a word issues, or the next cycle begins. -/
def State.issueStep (s : State) : Host.Outcome State Fault Refusal :=
  match s.pick with
  | some (n, k, t) => s.turn n k t
  | none => .next s.nextCycle

/-- What happens next. -/
def State.advanceOne (s : State) : Host.Outcome State Fault Refusal :=
  match s.queue with
  | [] => s.issueStep
  | (c, e) :: q => if c ≤ s.now && (e.rank < 2 || s.pick.isNone) then runEv e { s with queue := q } else s.issueStep

/-- A next state with the objects looked at that contexts wait for (R292). -/
def afterwards (o : Host.Outcome State Fault Refusal) : Host.Outcome State Fault Refusal :=
  match o with
  | .next t => .next t.watched
  | .fault f => .fault f
  | .refused r => .refused r

/-- One step. -/
def step (s : State) : Host.Outcome State Fault Refusal := afterwards s.advanceOne

/-- `s` with a word where the next step fetches it (DESIGN CHOICE: log entry 3). -/
def State.withFetchWord (s : State) (_nbits w : Nat) : State := s.placeWord (BitVec.ofNat 32 w)

end Sys2Proof.Machine
end

