-- ==== Sys2Proof/Safety.lean ====
section
/-! DEFINITION. The words that claims are made of: when a word's common checks pass, what a register holds at a cycle,
and what a word leaves alone. -/

namespace Sys2Proof.Machine

/-- No check before the word's own stops it (R89, R119, R134, R167): no imprecise fault is pending, a helper names no
lead-only register, and the scoreboard, where CHECK switches it on, passes. -/
def Ready (i : Instr) (s : State) : Prop :=
  s.me.fault = none ∧ (s.act.2 = 0 ∨ namesLeadOnly (uses i) = false) ∧
    (s.myCore.check.getLsbD 0 = false ∨ s.board i = none)

/-- What a general register reads at a cycle, when nothing but the results under way is written (R133). -/
def Ctx.gAt (c : Ctx) (t : Nat) (r : Reg) : W64 := (c.landAll t).gget r
/-- A vector register and a predicate at a cycle. -/
def Ctx.vAt (c : Ctx) (t : Nat) (r : VReg) : Lanes := (c.landAll t).vget r
def Ctx.pAt (c : Ctx) (t : Nat) (r : PReg) : W64 := (c.landAll t).pget r

/-- Nothing outside the acting context has changed but who holds the core's issue slot (R129): no byte of memory or
scratch, no other context, no other core, no queue, command, access or event. -/
def OnlyMe (s t : State) : Prop :=
  t = { s with cores := t.cores } ∧ (∀ n, n ≠ s.act.1 → t.core n = s.core n) ∧
    t.myCore = { s.myCore with ctxs := t.myCore.ctxs, last := s.act.2, slotAt := s.now + 1 } ∧
    ∀ k, k ≠ s.act.2 → t.ctx s.act.1 k = s.ctx s.act.1 k

/-- The registers that a word leaves alone unless its rule names them: the status and trap registers, the cairn and its
image, the matrix shape, and RMODE. A context that resumes is anchored at its first issue (R75, R136). -/
def KeepsRest (now : Nat) (c d : Ctx) : Prop :=
  d.cairnpc = c.cairnpc ∧ d.cause = c.cause ∧ d.epc = c.epc ∧ d.faddr = c.faddr ∧ d.finfo = c.finfo ∧
    d.fseq = c.fseq ∧ d.xstat = c.xstat ∧ d.mshape = c.mshape ∧ d.image = c.image ∧ d.live = c.live ∧
    d.tbase = (if c.anchor then BitVec.ofNat 64 now else c.tbase)
def KeepsSpecials (now : Nat) (c d : Ctx) : Prop := d.rmode = c.rmode ∧ KeepsRest now c d
/-- A general register as it is named outside (`false`) and in handler mode (`true`), where g24–g31 are the bank (R308). -/
def Ctx.gIn (c : Ctx) (h : Bool) (r : Reg) : W64 :=
  if r = 0 then 0 else if h && 24 ≤ r.toNat then c.hg.get (bankIdx r) else c.g.get (regIdx r)
/-- Every general register but `d`, of both banks, holds at every cycle what it would have held. -/
def KeepsG (c d : Ctx) (r : Reg) : Prop := ∀ t h q, sameReg h c.hm q r = false → (d.landAll t).gIn h q = (c.landAll t).gIn h q
/-- Every vector register and predicate reads, at every cycle, as it would have. -/
def KeepsVP (c d : Ctx) : Prop := (∀ t q, d.vAt t q = c.vAt t q) ∧ ∀ t q, d.pAt t q = c.pAt t q
/-- The next word is the one at PC + 4, no earlier than cycle c + 1 + S (R109, R113). -/
def GoesOn (s t : State) (st : Stall) : Prop :=
  t.me.pc = s.me.pc + 4 ∧ t.me.readyAt = s.now + 1 + st.toNat ∧ t.me.park = .no
/-- `d` holds `v` from `l` cycles after the issue on, and before that what it would have held (R132, R133); g0 takes no
value (R112). -/
def Gets (s t : State) (l : Nat) (d : Reg) (v : W64) : Prop :=
  t.me.gAt (s.now + l) d = (if d = 0 then 0 else v) ∧ ∀ u, l ≠ 1 → u < s.now + l → t.me.gAt u d = s.me.gAt u d

/-- A word that computes one general register and does nothing else. -/
def Computes (i : Instr) (s : State) (st : Stall) (l : Nat) (d : Reg) (v : W64) : Prop :=
  ∃ t, exec i s = .next t ∧ Gets s t l d v ∧ KeepsG s.me t.me d ∧ KeepsVP s.me t.me ∧ KeepsSpecials s.now s.me t.me ∧
    GoesOn s t st ∧ OnlyMe s t

/-! ### The integer instructions as the tables of R143–R148 and R157 give them -/

/-- An integer as 64 bits. -/
def w64 (x : Int) : W64 := BitVec.ofInt 64 x
/-- A register as a signed or an unsigned number. -/
def ordered (t : Sgn) (x : W64) : Int := match t with | .s64 => x.toInt | .z64 => x.toNat
/-- The result of an integer instruction that cannot trap: its stall, latency (R132), destination and value. -/
inductive IntRule : Instr → Stall → Nat → Reg → (State → W64) → Prop
  | add st d a b : IntRule (.add st d a b) st 1 d (fun s => w64 ((s.g a).toNat + (s.g b).toNat))
  | sub st d a b : IntRule (.sub st d a b) st 1 d (fun s => w64 ((s.g a).toNat - (s.g b).toNat))
  | mul st d a b : IntRule (.mul st d a b) st 3 d (fun s => w64 ((s.g a).toNat * (s.g b).toNat))
  | mulh st t d a b : IntRule (.mulh st t d a b) st 4 d (fun s => match t with
      | .s64 => (BitVec.ofInt 128 ((s.g a).toInt * (s.g b).toInt)).extractLsb' 64 64
      | .z64 => (BitVec.ofNat 128 ((s.g a).toNat * (s.g b).toNat)).extractLsb' 64 64)
  | div st t d a b : IntRule (.div st t d a b) st 24 d (fun s =>
      if s.g b = 0 then w64 (-1)
      else match t with
        | .s64 => w64 ((s.g a).toInt.tdiv (s.g b).toInt)
        | .z64 => w64 ((s.g a).toNat / (s.g b).toNat))
  | rem st t d a b : IntRule (.rem st t d a b) st 24 d (fun s =>
      if s.g b = 0 then s.g a
      else match t with
        | .s64 => w64 ((s.g a).toInt - (s.g a).toInt.tdiv (s.g b).toInt * (s.g b).toInt)
        | .z64 => w64 ((s.g a).toNat - (s.g a).toNat / (s.g b).toNat * (s.g b).toNat))
  | min st t d a b : IntRule (.min st t d a b) st 1 d (fun s => w64 (min (ordered t (s.g a)) (ordered t (s.g b))))
  | max st t d a b : IntRule (.max st t d a b) st 1 d (fun s => w64 (max (ordered t (s.g a)) (ordered t (s.g b))))
  | and st d a b : IntRule (.and st d a b) st 1 d (fun s => s.g a &&& s.g b)
  | or st d a b : IntRule (.or st d a b) st 1 d (fun s => s.g a ||| s.g b)
  | xor st d a b : IntRule (.xor st d a b) st 1 d (fun s => s.g a ^^^ s.g b)
  | andn st d a b : IntRule (.andn st d a b) st 1 d (fun s => s.g a &&& ~~~(s.g b))
  | shl st d a b : IntRule (.shl st d a b) st 1 d (fun s => w64 ((s.g a).toNat * 2 ^ ((s.g b).toNat % 64)))
  | shr st d a b : IntRule (.shr st d a b) st 1 d (fun s => w64 ((s.g a).toNat / 2 ^ ((s.g b).toNat % 64)))
  | sra st d a b : IntRule (.sra st d a b) st 1 d (fun s => w64 ((s.g a).toInt / 2 ^ ((s.g b).toNat % 64)))
  | rotr st d a b : IntRule (.rotr st d a b) st 1 d (fun s =>
      w64 ((s.g a).toNat / 2 ^ ((s.g b).toNat % 64) + (s.g a).toNat * 2 ^ (64 - (s.g b).toNat % 64)))
  | clz st d a : IntRule (.clz st d a) st 1 d (fun s => w64 ((List.range 64).takeWhile fun i => !(s.g a).getLsbD (63 - i)).length)
  | ctz st d a : IntRule (.ctz st d a) st 1 d (fun s => w64 ((List.range 64).takeWhile fun i => !(s.g a).getLsbD i).length)
  | popc st d a : IntRule (.popc st d a) st 1 d (fun s => w64 ((List.range 64).filter fun i => (s.g a).getLsbD i).length)
  | slt st t d a b : IntRule (.slt st t d a b) st 1 d (fun s => if ordered t (s.g a) < ordered t (s.g b) then 1 else 0)
  | seq st d a b : IntRule (.seq st d a b) st 1 d (fun s => if s.g a = s.g b then 1 else 0)
  | sne st d a b : IntRule (.sne st d a b) st 1 d (fun s => if s.g a = s.g b then 0 else 1)
  | sext st w d a : IntRule (.sext st w d a) st 1 d (fun s => match w with
      | .w8 => ((s.g a).setWidth 8).signExtend 64
      | .w16 => ((s.g a).setWidth 16).signExtend 64
      | .w32 => ((s.g a).setWidth 32).signExtend 64)
  | zext st w d a : IntRule (.zext st w d a) st 1 d (fun s => match w with
      | .w8 => w64 ((s.g a).toNat % 2 ^ 8)
      | .w16 => w64 ((s.g a).toNat % 2 ^ 16)
      | .w32 => w64 ((s.g a).toNat % 2 ^ 32))
  | addi st d a x : IntRule (.addi st d a x) st 1 d (fun s => w64 ((s.g a).toInt + x.toInt))
  | andi st d a x : IntRule (.andi st d a x) st 1 d (fun s => s.g a &&& w64 x.toInt)
  | ori st d a x : IntRule (.ori st d a x) st 1 d (fun s => s.g a ||| w64 x.toInt)
  | xori st d a x : IntRule (.xori st d a x) st 1 d (fun s => s.g a ^^^ w64 x.toInt)
  | slti st d a x : IntRule (.slti st d a x) st 1 d (fun s => if (s.g a).toInt < x.toInt then 1 else 0)
  | shli st d a n : IntRule (.shli st d a n) st 1 d (fun s => w64 ((s.g a).toNat * 2 ^ n.toNat))
  | shri st d a n : IntRule (.shri st d a n) st 1 d (fun s => w64 ((s.g a).toNat / 2 ^ n.toNat))
  | srai st d a n : IntRule (.srai st d a n) st 1 d (fun s => w64 ((s.g a).toInt / 2 ^ n.toNat))
  | lui st d x : IntRule (.lui st d x) st 1 d (fun _ => w64 (x.toInt * 2 ^ 13))
  | lcat st d x : IntRule (.lcat st d x) st 1 d (fun s => w64 ((s.g d).toNat * 2 ^ 19) ||| w64 x.toNat)
  | lpc st d x : IntRule (.lpc st d x) st 1 d (fun s => w64 (((s.me.pc.toNat + 4 * x.toNat) % 2 ^ 56 : Nat)))
  | tagset st d a b : IntRule (.tagset st d a b) st 1 d (fun s => w64 ((s.g b).toNat % 2 ^ 8 * 2 ^ 56 + (s.g a).toNat % 2 ^ 56))
  | tagget st d a : IntRule (.tagget st d a) st 1 d (fun s => w64 ((s.g a).toNat / 2 ^ 56))
  | tid st d : IntRule (.tid st d) st 1 d (fun s => w64 (s.myCore.task.queue.toNat * 2 ^ 32 + s.myCore.task.taskid.toNat))
/-- The exact sum of `ADDA`, `SUBA` and `ADDAI` (R148), with the register whose tag is kept. -/
inductive AddrRule : Instr → Stall → Reg → Reg → (State → Int) → Prop
  | adda st d a b : AddrRule (.adda st d a b) st d a (fun s => ((s.g a).toNat % 2 ^ 56 : Nat) + (s.g b).toInt)
  | suba st d a b : AddrRule (.suba st d a b) st d a (fun s => ((s.g a).toNat % 2 ^ 56 : Nat) - (s.g b).toInt)
  | addai st d a x : AddrRule (.addai st d a x) st d a (fun s => ((s.g a).toNat % 2 ^ 56 : Nat) + x.toInt)

/-! ### Transfers of control (R113, R149, R150) -/

/-- Where a word goes, none for the word at PC + 4, and the register that takes the link (g0: no link). -/
inductive JumpRule : Instr → Stall → (State → Option VA) → Reg → Prop
  | beq st a b x : JumpRule (.beq st a b x) st (fun s => if s.g a = s.g b then some (s.me.pc + 4 * x.signExtend 56) else none) 0
  | bne st a b x : JumpRule (.bne st a b x) st (fun s => if s.g a = s.g b then none else some (s.me.pc + 4 * x.signExtend 56)) 0
  | blt st a b x : JumpRule (.blt st a b x) st
      (fun s => if (s.g a).toInt < (s.g b).toInt then some (s.me.pc + 4 * x.signExtend 56) else none) 0
  | bge st a b x : JumpRule (.bge st a b x) st
      (fun s => if (s.g b).toInt ≤ (s.g a).toInt then some (s.me.pc + 4 * x.signExtend 56) else none) 0
  | jmp st x : JumpRule (.jmp st x) st (fun s => some (s.me.pc + 4 * x.signExtend 56)) 0
  | call st x : JumpRule (.call st x) st (fun s => some (s.me.pc + 4 * x.signExtend 56)) 31
  | jr st a : JumpRule (.jr st a) st (fun s => some ((s.g a).setWidth 56)) 0
  | callr st d a : JumpRule (.callr st d a) st (fun s => some ((s.g a).setWidth 56)) d
  | nop st : JumpRule (.nop st) st (fun _ => none) 0
/-- The register that names the target. -/
inductive RegJump : Instr → Reg → Prop
  | jr st a : RegJump (.jr st a) a
  | callr st d a : RegJump (.callr st d a) a
/-- A context may go to an address (R117, R368): in handler mode, or outside both apertures. -/
def MayGo (c : Ctx) (va : VA) : Prop :=
  c.hm = true ∨ va.toNat < 0xFFFFFFFF800000 ∨ 0xFFFFFFFFC00000 ≤ va.toNat ∧ va.toNat < 0xFFFFFFFFF00000
/-- A word that goes to `tgt` and writes PC + 4 to `d`; a taken transfer costs two cycles (R130). -/
def Transfers (i : Instr) (s : State) (st : Stall) (tgt : Option VA) (d : Reg) : Prop :=
  ∃ t, exec i s = .next t ∧ Gets s t 1 d ((s.me.pc + 4).setWidth 64) ∧ KeepsG s.me t.me d ∧ KeepsVP s.me t.me ∧
    KeepsSpecials s.now s.me t.me ∧ OnlyMe s t ∧ match tgt with
      | none => GoesOn s t st
      | some va => t.me.pc = va ∧ t.me.readyAt = s.now + 3 + st.toNat ∧ t.me.park = s.me.park

/-! ### Traps (R305–R313) -/

/-- A word takes a precise trap. -/
def Traps (i : Instr) (s : State) (t : Trap) : Prop := exec i s = .next (s.begin.trap t)
/-- The registers, and the results under way, are the same. -/
def Ctx.SameRegs (c d : Ctx) : Prop := d.g = c.g ∧ d.hg = c.hg ∧ d.v = c.v ∧ d.p = c.p ∧ d.pend = c.pend
/-- What a trap does not touch: all but the acting context, the core's failing and halting, and events to come. -/
def OnlyCtx (s t : State) : Prop :=
  t = { s with cores := t.cores, queue := t.queue } ∧ (∀ n, n ≠ s.act.1 → t.core n = s.core n) ∧
    t.myCore = { s.myCore with
      ctxs := t.myCore.ctxs, last := s.act.2, slotAt := s.now + 1, failing := t.myCore.failing, halted := t.myCore.halted } ∧
    (∀ k, k ≠ s.act.2 → t.ctx s.act.1 k = s.ctx s.act.1 k) ∧ ∀ e, e ∈ s.queue → e ∈ t.queue
/-- CAUSE, EPC, FADDR and FINFO of a precise trap at a word (R305). -/
def Reports (c d : Ctx) (t : Trap) : Prop :=
  d.cause = BitVec.ofNat 64 t.cause ∧ d.epc = c.pc.setWidth 64 &&& ~~~3 ∧ d.faddr = t.faddr ∧ d.finfo = t.finfo
/-- A trap goes to the task's own handler (R311). -/
def Delegated (s : State) (t : Trap) : Prop :=
  delegable t.cause = true ∧ s.me.ut = false ∧ t.cause < 64 ∧ s.myCore.utmask.getLsbD t.cause = true
/-- The core fails its task: no word issues until TASK_FAILURE, which is to come (R306, R310). -/
def Fails (s t : State) (reason : Nat) : Prop :=
  match s.myCore.failing with
  | some r => t.myCore.failing = some r
  | none => t.myCore.failing = some reason ∧ (s.now + s.lat.fail, Ev.taskFailure s.act.1) ∈ t.queue
/-- Entry of the resident handler for a precise trap (R308, R309): HM set, ENT 0, UT kept, the first word 12 cycles later. -/
def Enters (now : Nat) (c d : Ctx) : Prop :=
  d.xstat = (c.xstat &&& 0x4000000000000000) ||| 0x8000000000000000 ∧ d.pc = 0xFFFFFFFFFF0000 ∧ d.readyAt = now + 12
/-- What a precise trap does (R305–R311, R313, R329). In handler mode the core enters halted-fault. A delegated trap goes to
UTVEC with UT set and CAIRNPC.V clear, or, where UTVEC lies in an aperture, fails with cause 0x06. Every other trap enters
the resident handler, which fails the task, but for `TRAP` 32–63 outside the task's own handler. -/
def TrapTaken (i : Instr) (s : State) (t : Trap) : Prop :=
  ∃ u, exec i s = .next u ∧ OnlyCtx s u ∧ s.me.SameRegs u.me ∧
    (s.me.hm = true → u.myCore.halted = some t.cause ∧ u.myCore.failing = some t.cause ∧
      (s.myCore.failing = none → (s.now + s.lat.fail, Ev.taskFailure s.act.1) ∈ u.queue) ∧ u.me.pc = s.me.pc ∧ u.me.xstat = s.me.xstat) ∧
    (s.me.hm = false → Delegated s t → MayGo s.me (s.myCore.utvec.setWidth 56) →
      Reports s.me u.me t ∧ u.me.xstat = s.me.xstat ||| 0x4000000000000000 ∧
      u.me.cairnpc = s.me.cairnpc &&& 0x7FFFFFFFFFFFFFFF ∧ u.me.pc = s.myCore.utvec.setWidth 56 ∧
      u.me.readyAt = s.now + 3 ∧ u.myCore.failing = s.myCore.failing ∧ u.myCore.halted = s.myCore.halted ∧ u.queue = s.queue) ∧
    (s.me.hm = false → Delegated s t → ¬ MayGo s.me (s.myCore.utvec.setWidth 56) →
      Fails s u 0x06 ∧ u.me.pc = 0xFFFFFFFFFF0000 ∧ u.me.hm = true) ∧
    (s.me.hm = false → ¬ Delegated s t →
      Reports s.me u.me t ∧ Enters s.now s.me u.me ∧ u.myCore.halted = s.myCore.halted ∧
      if t.cause = 0x20 ∧ 32 ≤ t.finfo.toNat ∧ s.me.ut = false then
        u.myCore.failing = s.myCore.failing ∧ (s.now + s.lat.trap, Ev.handlerEntry s.act.1 s.act.2 0) ∈ u.queue
      else Fails s u t.cause)
/-- The return from a trap (R312): the PC becomes EPC, and the mode the trap set is cleared; the stall count counts beside the three
cycles (R109). -/
def Returns (s t : State) (st : Stall) : Prop :=
  OnlyMe s t ∧ s.me.SameRegs t.me ∧ t.me.pc = s.me.epc.setWidth 56 ∧ t.me.readyAt = max (s.now + 3) (s.now + 1 + st.toNat) ∧
    t.me.xstat = (if s.me.hm then s.me.xstat &&& 0x7FFFFFFFFFFFFFFF else s.me.xstat &&& 0xBFFFFFFFFFFFFFFF) ∧
    t.me.cause = s.me.cause ∧ t.me.epc = s.me.epc ∧ t.me.cairnpc = s.me.cairnpc ∧ t.me.rmode = s.me.rmode

/-! ### Timing words and helpers (R136, R137, R151–R154) -/

/-- A word that only moves its own context on: no register, special register or byte of memory changes. -/
def GoesOnOnly (s t : State) (st : Stall) : Prop :=
  s.me.SameRegs t.me ∧ KeepsSpecials s.now s.me t.me ∧ GoesOn s t st ∧ OnlyMe s t
/-- No access of the acting context is in flight, and no poison waits to be reported: an acquire, or a word that waits for loads, has
nothing to wait for. -/
def AtRest (s : State) : Prop := s.flightsOf s.act.1 s.act.2 = [] ∧ s.me.defer = none
/-- And none is on its way in the rope: a release has nothing to wait for. -/
def Quiet (s : State) : Prop := AtRest s ∧ s.netBy s.act.1 s.act.2 ≤ s.now
/-- Every rope-net store of the acting context to `n` bytes of its own scratch has arrived: an access to them waits for nothing
(R178, R238). -/
def Landed (s : State) (o n : Nat) : Prop := s.ownNetBy s.act.1 s.act.2 o n ≤ s.now
/-- The context records a cairn at the next word (R131, R137). -/
def RecordsCairn (s t : State) : Prop :=
  t.me.cairnpc = 0x8000000000000000 ||| (if s.holdsLease s.act.1 then 0x4000000000000000 else 0) |||
      ((s.me.pc + 4).setWidth 64 &&& 0x00FFFFFFFFFFFFFC) ∧
    t.me.image = some ⟨s.me.g, s.me.v, s.me.p, s.me.mshape⟩ ∧ t.me.issued = 0 ∧ t.me.suppress = 0
/-- The lowest helper index that is not live (R153). -/
def LowestFree (s : State) (h : Option Nat) : Prop :=
  match h with
  | none => ∀ k, 1 ≤ k → k ≤ 10 → (s.ctx s.act.1 k).live = true
  | some k => 1 ≤ k ∧ k ≤ 10 ∧ (s.ctx s.act.1 k).live = false ∧ ∀ j, 1 ≤ j → j < k → (s.ctx s.act.1 j).live = true
/-- A helper as `HSTART` starts it (R153, R43): registers, TBASE and modes of the lead, flags, vectors and predicates clear. -/
def Started (now : Nat) (lead h : Ctx) (pc : VA) : Prop :=
  h.live = true ∧ h.pc = pc ∧ (∀ r, h.gIn false r = lead.gIn false r) ∧ (∀ r, h.vget r = Lanes.fill 0) ∧
    (∀ r, h.pget r = if r = 0 then 0xFFFFFFFFFFFFFFFF else 0) ∧ h.pend = [] ∧ h.tbase = lead.tbase ∧
    h.rmode = lead.rmode &&& 0x1F0003 ∧ h.cairnpc = 0 ∧ h.mshape = 0x007F7F7F ∧ h.xstat = 0 ∧ h.readyAt = now + 4 ∧ h.park = .no

/-! ### Releases and acquires (R267, R268) -/

/-- Core n after an acquire of a scope by a context of a die: device and system scope drop the die's lines of other dies' memory (R221). -/
def afterAcquire (sc : Scope) (die n : Nat) (c : Core) : Core :=
  match sc with
  | .device | .system => if n / 384 = die then { c with lines := c.lines.filter fun l => l.home == die } else c
  | .core | .rope | .die => c
/-- The other contexts of the acting core, and the other cores, are as before but for what an acquire of a scope drops. -/
def OthersAfter (sc : Scope) (s t : State) : Prop :=
  (∀ n, n ≠ s.act.1 → t.core n = afterAcquire sc (s.act.1 / 384) n (s.core n)) ∧ ∀ k, k ≠ s.act.2 → t.ctx s.act.1 k = s.ctx s.act.1 k
/-- The same memory, accesses, commands, ropes and events, but for what an acquire of a scope drops; the acting core apart. -/
def SameAfter (sc : Scope) (s t : State) : Prop :=
  t.mem = s.mem ∧ t.locs = s.locs ∧ t.flights = s.flights ∧ t.cmds = s.cmds ∧ t.ropes = s.ropes ∧ t.vit = s.vit ∧
    t.queue = s.queue ∧ t.now = s.now ∧ t.tlb = s.tlb ∧ OthersAfter sc s t ∧ t.myCore.banks = s.myCore.banks ∧
    t.myCore.lines = (afterAcquire sc (s.act.1 / 384) s.act.1 s.myCore).lines
/-- The same, nothing dropped. -/
def SameWorld (s t : State) : Prop := SameAfter .core s t
/-- What the acting context has observed is published at a scope (R267). -/
def Released (s t : State) (sc : Scope) : Prop :=
  ∀ k, max (floorOfPub s s.act.1 sc k) ((Table.find? k s.me.floors).getD 0) ≤ floorOfPub t s.act.1 sc k
where
  /-- The position of a location that an agent has made visible at a scope. -/
  floorOfPub (s : State) (n : Nat) (sc : Scope) (k : Nat) : Nat :=
    match s.pubs.find? fun b => b.agent == n && b.scope == sc with
    | some b => (Table.find? k b.seen).getD 0
    | none => 0
/-- The acting context has joined what agents of a scope made visible to it (R268). -/
def Acquired (s t : State) (sc : Scope) : Prop :=
  ∀ b ∈ s.pubs, within b.scope b.agent s.act.1 = true → within sc s.act.1 b.agent = true →
    ∀ k, (Table.find? k b.seen).getD 0 ≤ (Table.find? k t.me.floors).getD 0

/-! ### Control registers (R327, R328) -/

/-- What `CRD` reads. -/
inductive CRegRule : CReg → (State → W64) → Prop
  | cause : CRegRule .cause (fun s => s.me.cause)
  | epc : CRegRule .epc (fun s => s.me.epc)
  | faddr : CRegRule .faddr (fun s => s.me.faddr)
  | finfo : CRegRule .finfo (fun s => s.me.finfo)
  | tbase : CRegRule .tbase (fun s => if s.me.anchor then BitVec.ofNat 64 s.now else s.me.tbase)
  | cairnpc : CRegRule .cairnpc (fun s => s.me.cairnpc)
  | check : CRegRule .check (fun s => s.myCore.check)
  | coord : CRegRule .coord (fun s =>
      w64 (s.act.2 * 2 ^ 28 + s.regs.fabid.toNat % 1024 * 2 ^ 16 + s.act.1 / 384 % 4 * 2 ^ 9 + s.act.1 / 8 % 48 * 2 ^ 3 + s.act.1 % 8))
  | pitch : CRegRule .pitch (fun s => s.myCore.pitch)
  | tick : CRegRule .tick (fun s => s.tick.setWidth 64)
  | fseq : CRegRule .fseq (fun s => s.me.fseq)
  | dring : CRegRule .dring (fun s => match s.myCore.ring.find? fun e => e.seq == s.me.fseq.setWidth 6 with
      | some e => w64 (e.word.toNat * 2 ^ 32 + e.ctx * 2 ^ 28 + (if e.st then 2 ^ 27 else 0) + (if e.cp then 2 ^ 26 else 0) +
          (if e.fl then 2 ^ 25 else 0) + e.seq.toNat)
      | none => 0)
  | drpc : CRegRule .drpc (fun s => match s.myCore.ring.find? fun e => e.seq == s.me.fseq.setWidth 6 with
      | some e => w64 (e.pc.toNat / 4 * 4)
      | none => 0)
  | spcfg : CRegRule .spcfg (fun s => s.myCore.banks.spcfg)
  | guardrec : CRegRule .guardrec (fun s => s.myCore.guardrec)
  | wstat : CRegRule .wstat (fun s => s.myCore.wstat)
  | xstat : CRegRule .xstat (fun s => s.me.xstat)
  | utvec : CRegRule .utvec (fun s => s.myCore.utvec)
  | utmask : CRegRule .utmask (fun s => s.myCore.utmask)
  | spkeep : CRegRule .spkeep (fun s => s.myCore.spkeep)
  | resinfo : CRegRule .resinfo (fun s => s.myCore.resinfo)
  | cycle : CRegRule .cycle (fun s => w64 s.now)
/-- The result that `CWR`, `CSET` and `CCLR` write: from the register's value and ga. -/
inductive CRegWrite : Instr → Stall → CReg → Reg → (W64 → W64 → W64) → Prop
  | cwr st cr a : CRegWrite (.cwr st cr a) st cr a (fun _ x => x)
  | cset st cr a : CRegWrite (.cset st cr a) st cr a (fun old x => old ||| x)
  | cclr st cr a : CRegWrite (.cclr st cr a) st cr a (fun old x => old &&& ~~~x)
/-- Registers that a task writes, that it writes while UT is set, that handler mode alone writes, and that nothing writes. -/
inductive CRegAccess | task | whileUt | handler | never
  deriving DecidableEq, Repr
def cregAccess : CReg → CRegAccess
  | .check => .task | .rmode => .task | .guardrec => .task | .wstat => .task | .utvec => .task | .utmask => .task | .spkeep => .task
  | .epc => .whileUt
  | .cause => .handler | .faddr => .handler | .finfo => .handler | .tbase => .handler | .cairnpc => .handler | .fseq => .handler
  | .resinfo => .handler
  | .coord => .never | .pitch => .never | .tick => .never | .dring => .never | .spcfg => .never | .xstat => .never | .cycle => .never
  | .drpc => .never
/-- The context may write a register (R327). -/
def MayWrite (c : Ctx) (r : CReg) : Prop :=
  match cregAccess r with
  | .task => True
  | .whileUt => c.hm = true ∨ c.ut = true
  | .handler => c.hm = true
  | .never => False
/-- A result with a reserved bit or a value that the register's rule turns away (R43, R96, R131, R240, R311, R322). -/
def Refused (r : CReg) (x : W64) : Prop :=
  match r with
  | .check => x &&& ~~~0x31 ≠ 0
  | .rmode => x &&& ~~~0x1F1F03 ≠ 0
  | .guardrec => x &&& 0x3FFFFFF000000000 ≠ 0
  | .wstat => x &&& ~~~0xFF01 ≠ 0
  | .utvec => 2 ^ 56 ≤ x.toNat ∨ x.toNat % 4 ≠ 0
  | .utmask => ∃ n, n < 64 ∧ x.getLsbD n = true ∧ delegable n = false
  | .spkeep => x &&& ~~~0x3FF000003FF ≠ 0 ∨ 576 < x.toNat / 2 ^ 32 % 1024 + x.toNat % 1024
  | .cause | .epc | .faddr | .finfo | .tbase | .cairnpc | .coord | .pitch | .tick | .fseq | .dring | .spcfg | .xstat
  | .resinfo | .cycle | .drpc => False
/-- What the register holds after a write of `x` over `old`: fields marked R keep their value, and bits that read zero stay zero. -/
def cregHolds (r : CReg) (old x : W64) : W64 :=
  match r with
  | .cause => x &&& 0xEFF
  | .epc => x &&& 0x00FFFFFFFFFFFFFC
  | .fseq => x &&& 0x800000000000003F
  | .guardrec => (x &&& 0xC000000000000000) ||| (old &&& 0x3FFFFFFFFFFFFFFF)
  | .resinfo => x &&& 0xFFFF00C0FFFFFFFF
  | _ => x
/-- `DRING` and `DRPC` show the ring entry that `FSEQ` names, so a write of `FSEQ` moves them. -/
def cregMoves (r q : CReg) : Bool := r == q || (r == .fseq && (q == .dring || q == .drpc))

/-! ### Scalar floating point (R158–R161) -/

/-- The result and flags of a scalar floating-point word, from the exact values of its operands (R158–R161): its stall, its
latency (R132) and its destination. -/
inductive FloatRule : Instr → Stall → Nat → Reg → (State → W64 × FFlags) → Prop
  | fadd st t r d a b : FloatRule (.fadd st t r d a b) st 4 d (fun s =>
      t.round (r.rm s.mode) (addExact (r.rm s.mode) (t.val (s.g a)) (t.val (s.g b))))
  | fsub st t r d a b : FloatRule (.fsub st t r d a b) st 4 d (fun s =>
      t.round (r.rm s.mode) (addExact (r.rm s.mode) (t.val (s.g a)) (t.val (s.g b)).negate))
  | fmul st t r d a b : FloatRule (.fmul st t r d a b) st 4 d (fun s =>
      t.round (r.rm s.mode) (mulExact (t.val (s.g a)) (t.val (s.g b))))
  | fdiv st t r d a b : FloatRule (.fdiv st t r d a b) st 16 d (fun s =>
      t.round (r.rm s.mode) (divExact (t.val (s.g a)) (t.val (s.g b))))
  | fsqrt st t r d a : FloatRule (.fsqrt st t r d a) st 16 d (fun s => t.round (r.rm s.mode) (sqrtExact (t.val (s.g a))))
  | fma st t r d a b : FloatRule (.fma st t r d a b) st 4 d (fun s =>
      t.round (r.rm s.mode) (fmaExact (r.rm s.mode) (t.val (s.g a)) (t.val (s.g b)) (t.val (s.g d))))
  | fmin st t d a b : FloatRule (.fmin st t d a b) st 4 d (fun s =>
      (match minPick (t.val (s.g a)) (t.val (s.g b)) with
        | none => w64 t.fmt.nanCode | some true => w64 (t.bitsOf (s.g a)) | some false => w64 (t.bitsOf (s.g b)),
       (t.val (s.g a)).nvIfS ||| (t.val (s.g b)).nvIfS))
  | fmax st t d a b : FloatRule (.fmax st t d a b) st 4 d (fun s =>
      (match maxPick (t.val (s.g a)) (t.val (s.g b)) with
        | none => w64 t.fmt.nanCode | some true => w64 (t.bitsOf (s.g a)) | some false => w64 (t.bitsOf (s.g b)),
       (t.val (s.g a)).nvIfS ||| (t.val (s.g b)).nvIfS))
  | feq st t d a b : FloatRule (.feq st t d a b) st 2 d (fun s =>
      (if (t.val (s.g a)).cmp (t.val (s.g b)) = some 0 then 1 else 0, (t.val (s.g a)).nvIfS ||| (t.val (s.g b)).nvIfS))
  | flt st t d a b : FloatRule (.flt st t d a b) st 2 d (fun s =>
      (if (t.val (s.g a)).cmp (t.val (s.g b)) = some (-1) then 1 else 0,
       if (t.val (s.g a)).isNan ∨ (t.val (s.g b)).isNan then flagNV else 0))
  | fle st t d a b : FloatRule (.fle st t d a b) st 2 d (fun s =>
      (if (t.val (s.g a)).cmp (t.val (s.g b)) = some (-1) ∨ (t.val (s.g a)).cmp (t.val (s.g b)) = some 0 then 1 else 0,
       if (t.val (s.g a)).isNan ∨ (t.val (s.g b)).isNan then flagNV else 0))
  | fclass st t d a : FloatRule (.fclass st t d a) st 2 d (fun s =>
      (match t.val (s.g a) with
        | .inf true => 0x001 | .zero true => 0x008 | .zero false => 0x010 | .inf false => 0x080
        | .nan true => 0x100 | .nan false => 0x200
        | .fin m _ =>
          if t.bitsOf (s.g a) / 2 ^ t.fmt.mbits % 2 ^ t.fmt.ebits = 0 then (if m < 0 then 0x004 else 0x020)
          else if m < 0 then 0x002 else 0x040, 0))
  | fexp2 st t d a : FloatRule (.fexp2 st t d a) st 8 d (fun s => t.round .rne (exp2Exact (t.val (s.g a))))
  | fneg st t d a : FloatRule (.fneg st t d a) st 1 d (fun s =>
      (w64 ((t.bitsOf (s.g a) + 2 ^ (t.width - 1)) % 2 ^ t.width : Nat), 0))
  | fabs st t d a : FloatRule (.fabs st t d a) st 1 d (fun s => (w64 (t.bitsOf (s.g a) % 2 ^ (t.width - 1) : Nat), 0))
  | fcvt st tgt src r nsat d a : FloatRule (.fcvt st tgt src r nsat d a) st 3 d (fun s =>
      let x : FVal := match src with
        | .f32 => fp32.dec ((s.g a).toNat % 2 ^ 32) | .bf16 => bf16.dec ((s.g a).toNat % 2 ^ 16)
        | .f16 => fp16.dec ((s.g a).toNat % 2 ^ 16) | .s64 => .ofInt (s.g a).toInt 0
      let y := convert x tgt (r.rm s.mode) nsat
      (if tgt.isInt then w64 ((y.1 : Int).bmod (2 ^ tgt.bits)) else w64 y.1, y.2))
/-- The raised flags that the context traps on (R43, R44). -/
def Trapped (c : Ctx) (f : FFlags) : FFlags := f &&& c.rmode.extractLsb' 16 5
/-- A scalar floating-point word none of whose flags traps: like `Computes`, and the flags become sticky. -/
def ComputesFloat (i : Instr) (s : State) (st : Stall) (l : Nat) (d : Reg) (r : W64 × FFlags) : Prop :=
  ∃ t, exec i s = .next t ∧ Gets s t l d r.1 ∧ KeepsG s.me t.me d ∧ KeepsVP s.me t.me ∧ KeepsRest s.now s.me t.me ∧
    t.me.rmode = s.me.rmode ||| (r.2.setWidth 64 <<< 8) ∧ GoesOn s t st ∧ OnlyMe s t

/-! ### Scalar memory accesses (R233–R239, R263–R266) -/

/-- Bytes of a load's type, and the value it delivers from the bytes read. -/
def ldBytes : LdTy → Nat
  | .z8 => 1 | .z16 => 2 | .z32 => 4 | .z64 => 8 | .s8 => 1 | .s16 => 2 | .s32 => 4
def ldValue (t : LdTy) (x : W64) : W64 :=
  match t with
  | .z8 => (x.setWidth 8).setWidth 64 | .z16 => (x.setWidth 16).setWidth 64 | .z32 => (x.setWidth 32).setWidth 64 | .z64 => x
  | .s8 => (x.setWidth 8).signExtend 64 | .s16 => (x.setWidth 16).signExtend 64 | .s32 => (x.setWidth 32).signExtend 64
/-- Effective address of the M format (R233). -/
def mEA (s : State) (b : Reg) (off : BitVec 11) (size : Nat) : VA := (s.g b).setWidth 56 + off.signExtend 56 * BitVec.ofNat 56 size
/-- Base and size of a window (R14). -/
def winOf (s : State) (w : BitVec 3) : W64 × W64 := s.myCore.wins.get ⟨w.toNat, w.isLt⟩
/-- The plain loads: type, destination, whether fresh, the condition under which the word reads, and its address (R234, R239). -/
inductive Loads : Instr → Stall → LdTy → Reg → Bool → (State → Prop) → (State → VA) → Prop
  | ld st t d b off : Loads (.ld st t d b off) st t d false (fun _ => True) (fun s => mEA s b off (ldBytes t))
  | ldFresh st t d b off : Loads (.ldFresh st t d b off) st t d true (fun _ => True) (fun s => mEA s b off (ldBytes t))
  | ldw st t d w b : Loads (.ldw st t d w b) st t d false
      (fun s => (winOf s w).2 ≠ 0 ∧ (s.g b).toNat + ldBytes t ≤ (winOf s w).2.toNat)
      (fun s => (winOf s w).1.setWidth 56 + (s.g b).setWidth 56)
/-- The plain stores: size, address, value, and the bits written (R234, R236). -/
inductive Stores : Instr → Stall → Nat → (State → VA) → (State → W64) → W64 → Prop
  | z8 st d b off : Stores (.st st .z8 d b off) st 1 (fun s => mEA s b off 1) (fun s => s.g d) 0xFF
  | z16 st d b off : Stores (.st st .z16 d b off) st 2 (fun s => mEA s b off 2) (fun s => s.g d) 0xFFFF
  | z32 st d b off : Stores (.st st .z32 d b off) st 4 (fun s => mEA s b off 4) (fun s => s.g d) 0xFFFFFFFF
  | z64 st d b off : Stores (.st st .z64 d b off) st 8 (fun s => mEA s b off 8) (fun s => s.g d) 0xFFFFFFFFFFFFFFFF
  | lo4 st d b off : Stores (.st st .lo4 d b off) st 1 (fun s => mEA s b off 1) (fun s => s.g d) 0x0F
  | hi4 st d b off : Stores (.st st .hi4 d b off) st 1 (fun s => mEA s b off 1) (fun s => s.g d <<< 4) 0xF0
/-- `d` holds `v` at once (R135), every other register and every result under way is as it was. -/
def GetsNow (s t : State) (d : Reg) (v : W64) : Prop :=
  t.me.gget d = (if d = 0 then 0 else v) ∧ (∀ h q, sameReg h s.me.hm q d = false → t.me.gIn h q = s.me.gIn h q) ∧
    t.me.v = s.me.v ∧ t.me.p = s.me.p ∧ t.me.pend = s.me.pend
/-- Bits of an old word replaced under a mask. -/
def mixed (old x mask : W64) : W64 := (old &&& ~~~mask) ||| (x &&& mask)
/-- An access of the acting context comes into flight: the step that performs it is to come, and no byte of memory, no register and
no other context changes. -/
def Flies (s t : State) (f : Flight) (ev : Ev) (d : Nat) : Prop :=
  t.flights = s.flights ++ [f] ∧ (s.now + d, ev) ∈ t.queue ∧ (∀ e, e ∈ s.queue → e ∈ t.queue) ∧ s.me.SameRegs t.me ∧
    t.mem = s.mem ∧ t.locs = s.locs ∧ (∀ n, n ≠ s.act.1 → t.core n = s.core n) ∧
    (∀ k, k ≠ s.act.2 → t.ctx s.act.1 k = s.ctx s.act.1 k) ∧ t.myCore.banks = s.myCore.banks
/-- No later classification of the page is to come: an access by core n makes no transition of R219. -/
def Settled (n : Nat) (e : Pte) : Prop := e.cls ≠ .normal ∨ e.uc = true ∨ e.sh = true ∨ e.owner = n ∧ n ≠ 2047
/-- The value that an access of `n` bytes reads at position k of a word's home order (R266). -/
def readAt (l : Loc) (k : Nat) (va : VA) (n : Nat) : W64 := (l.val k >>> (8 * (va.toNat % 8))) &&& spanBits 0 n
/-- What memory holds after a store of masked bits over a word whose home order is `l` (R218, R238, R263): in a page kept by home
order a new latest value of the word, its bytes not yet in memory; elsewhere the bytes themselves. Every other word and
byte is as before. -/
def StoredIn (s t : State) (asid : Asid) (va : VA) (x mask : W64) (e : Pte) (l : Loc) : Prop :=
  let pa := e.pa va
  let sh := 8 * (va.toNat % 8)
  if hasOrder e pa then
    t.mem = s.mem ∧ (∀ k, k ≠ wordKey asid va → Table.find? k t.locs = Table.find? k s.locs) ∧
      Table.find? (wordKey asid va) t.locs = some { l with
        vers := ⟨mixed l.latest (x <<< sh) (mask <<< sh), s.now⟩ :: l.vers, dirty := l.dirty ||| touched (mask <<< sh) }
  else
    t.locs = s.locs ∧ t.phys64 (pa / 8 * 8) = mixed (s.phys64 (pa / 8 * 8)) (x <<< sh) (mask <<< sh) ∧
      ∀ a, a < pa / 8 * 8 ∨ pa / 8 * 8 + 8 ≤ a → t.byte a = s.byte a
/-- The translation of an address is settled: the table has it, and no slice holds an older one (R214, R215). -/
def Translates (s : State) (asid : Asid) (va : VA) (e : Pte) : Prop :=
  s.walk asid va = some e ∧ (s.cached asid va = none ∨ s.cached asid va = some e)
/-- No other mapping holds bytes of a word of memory that memory does not have (R217). -/
def NoDirty (s : State) (asid : Asid) (va : VA) (e : Pte) : Prop :=
  ∀ d ∈ s.locs, d.2.pa = e.pa va / 8 * 8 → d.2.dirty = 0 ∨ (hasOrder e (e.pa va) = true ∧ d.1 = wordKey asid va)
/-- The data cache of a core takes the grain of an address of a page that it may hold without giving up a dirty line (R94, R218): each
line of the grain is held, or its set has a free way or only clean lines. -/
def RoomFor (s : State) (n : Nat) (asid : Asid) (va : VA) (e : Pte) : Prop :=
  hasOrder e (e.pa va) = true ∨ e.cls = .vitrine → ∀ g ∈ e.grainLines va, (∃ l ∈ (s.core n).lines, l.asid = asid ∧ l.line = g.1) ∨
    (∃ w ∈ (s.core n).banks.ways, ∀ l ∈ (s.core n).lines, setOfLine l.line = setOfLine g.1 → l.way ≠ w) ∨
    ∀ l ∈ (s.core n).lines, setOfLine l.line = setOfLine g.1 → l.dirty = false
/-- The home order of a word as an access finds it: as it was, or brought up to date with memory that changed from outside, where the
held copy was evicted (R25, R217, R279, DESIGN CHOICE: log entry 7). -/
def Found (s : State) (asid : Asid) (va : VA) (pa : Nat) (l : Loc) : Prop :=
  l = s.loc (wordKey asid va) pa ∨ l = s.synced (s.loc (wordKey asid va) pa)
/-- The values that a load of the bits `m` of `n` bytes may return (R222, R235, R263, R266): fresh, the latest; otherwise a store no
older than the context's floor for the bits (DESIGN CHOICE: log entry 7). -/
def MayReadBits (s : State) (c : Ctx) (fresh : Bool) (asid : Asid) (va : VA) (n : Nat) (m : W64) (e : Pte) (x : W64) : Prop :=
  if hasOrder e (e.pa va) then
    ∃ l k, Found s asid va (e.pa va) l ∧ k ≤ l.top ∧ (fresh = true → k = l.top) ∧ min l.top (floorOf c.floors (nibsOf asid va m n)) ≤ k ∧
      x = readAt l k va n
  else x = BitVec.ofNat 64 (s.phys (e.pa va) n)
/-- The same of whole bytes. -/
def MayRead (s : State) (c : Ctx) (fresh : Bool) (asid : Asid) (va : VA) (n : Nat) (e : Pte) (x : W64) : Prop :=
  MayReadBits s c fresh asid va n (spanBits 0 n) e x
/-- What a context keeps for a later word, once an access at `va` has met poison: the first stays (R285, R342). -/
def deferred (c : Ctx) (va : VA) : Option (Nat × W64) := match c.defer with | some m => some m | none => some (0x13, va.setWidth 64)
/-- An access in flight is performed: it is gone, and no other access, no register but `d` of its context, and no clock changes. -/
def Performed (s t : State) (f : Flight) : Prop :=
  t.flights = s.flights.filter (fun g => g.id != f.id) ∧ t.now = s.now ∧ t.queue = s.queue ∧ t.cmds = s.cmds ∧ t.act = s.act ∧
    (∀ n k, (n ≠ f.core ∨ k ≠ f.ctx) → (s.ctx n k).SameRegs (t.ctx n k)) ∧
    ∀ n, (t.core n).banks = (s.core n).banks ∧ (t.core n).slots = (s.core n).slots
/-- What the context of an access in flight has in its registers after it: `d` as the access names it, everything else as before. -/
def Lands (f : Flight) (c d : Ctx) (r : Option (Reg × W64)) : Prop :=
  d.v = c.v ∧ d.p = c.p ∧ d.pend = c.pend ∧ d.pc = c.pc ∧ d.park = c.park ∧ d.rmode = c.rmode ∧
    match r with
    | none => d.g = c.g ∧ d.hg = c.hg
    | some (r, x) => (r ≠ 0 → d.gIn f.hm r = x) ∧ ∀ h q, sameReg h f.hm q r = false → d.gIn h q = c.gIn h q

/-! ### Atomics (R283–R285) -/

/-- A number of a type in the low bits of a register. -/
def atomNum (ty : ATy) (x : W64) : Int :=
  match ty with
  | .z32 => x.toNat % 2 ^ 32 | .f32 => x.toNat % 2 ^ 32 | .z64 => x.toNat
  | .s32 => (x.setWidth 32).toInt | .s64 => x.toInt
/-- The new value of an atomic on integers (R283): none where `cas` writes nothing. -/
def atomInt (op : AOp) (ty : ATy) (old x cmp : W64) : Option Int :=
  match op with
  | .add => some (atomNum ty old + atomNum ty x)
  | .min => some (min (atomNum ty old) (atomNum ty x))
  | .max => some (max (atomNum ty old) (atomNum ty x))
  | .and => some (atomNum .z64 (old &&& x)) | .or => some (atomNum .z64 (old ||| x)) | .xor => some (atomNum .z64 (old ^^^ x))
  | .swap => some (atomNum ty x)
  | .cas => if atomNum ty old = atomNum ty cmp then some (atomNum ty x) else none
  | .fadd => none | .fmax => none | .fmin => none
/-- What gd receives (R284). -/
def atomResult (ty : ATy) (old : W64) : W64 :=
  match ty with
  | .z32 => (old.setWidth 32).setWidth 64 | .f32 => (old.setWidth 32).setWidth 64
  | .s32 => (old.setWidth 32).signExtend 64 | .z64 => old | .s64 => old

/-! ### Waits (R130, R282, R317) -/

/-- The context parks on its word's condition; a bounded wait has its expiry to come after `lim` cycles, and nothing else of
the context, of memory or of another context changes (R130, R282, R317). -/
def Waits (i : Instr) (s : State) (lim : Option Nat) (ev : Nat → Ev) : Prop :=
  ∃ t, exec i s = .next t ∧ t.me.pc = s.me.pc ∧ t.me.park = .cond ⟨s.now, lim, s.next, i, s.watchedBind i⟩ ∧ s.me.SameRegs t.me ∧
    KeepsSpecials s.now s.me t.me ∧ (∀ d, lim = some d → (s.now + d, ev s.next) ∈ t.queue) ∧ (∀ e, e ∈ s.queue → e ∈ t.queue) ∧
    t.mem = s.mem ∧ t.locs = s.locs ∧ t.flights = s.flights ∧ t.cmds = s.cmds ∧ (∀ n, n ≠ s.act.1 → t.core n = s.core n) ∧
    (∀ k, k ≠ s.act.2 → t.ctx s.act.1 k = s.ctx s.act.1 k) ∧ t.myCore.banks = s.myCore.banks ∧ t.myCore.slots = s.myCore.slots
/-- The cause of a bounded wait that expires (R282, R300). -/
def expiryCause (i : Instr) : Nat := match i with | .sendb _ _ _ _ => 0x15 | _ => 0x12
/-- A first attempt at a word: no earlier wait of it is under way, and no answer has come. -/
def Fresh (s : State) : Prop := s.me.park = .no ∧ s.me.leftHere = none ∧ s.me.answer = none

/-! ### Vector words (R162–R173) -/

def w32 (x : Int) : W32 := BitVec.ofInt 32 x
/-- What lane j of a masked lane word computes, with its flags: stall, latency, destination and mask predicate (R168–R172). -/
inductive LaneRule : Instr → Stall → Nat → VReg → PReg → (State → Fin 16 → W32 × FFlags) → Prop
  | vadd st d a b p : LaneRule (.vadd st d a b p) st 4 d p (fun s j => f32Add s.mode ((s.v a).get j) ((s.v b).get j))
  | vsub st d a b p : LaneRule (.vsub st d a b p) st 4 d p (fun s j => f32Sub s.mode ((s.v a).get j) ((s.v b).get j))
  | vmul st d a b p : LaneRule (.vmul st d a b p) st 4 d p (fun s j => f32Mul s.mode ((s.v a).get j) ((s.v b).get j))
  | vfma st d a b p : LaneRule (.vfma st d a b p) st 4 d p (fun s j => f32Fma s.mode ((s.v a).get j) ((s.v b).get j) ((s.v d).get j))
  | vdiv st d a b p : LaneRule (.vdiv st d a b p) st 16 d p (fun s j => f32Div s.mode ((s.v a).get j) ((s.v b).get j))
  | vmin st d a b p : LaneRule (.vmin st d a b p) st 4 d p (fun s j => f32Min ((s.v a).get j) ((s.v b).get j))
  | vmax st d a b p : LaneRule (.vmax st d a b p) st 4 d p (fun s j => f32Max ((s.v a).get j) ((s.v b).get j))
  | vsqrt st d a p : LaneRule (.vsqrt st d a p) st 16 d p (fun s j => f32Sqrt s.mode ((s.v a).get j))
  | vexp2 st d a p : LaneRule (.vexp2 st d a p) st 8 d p (fun s j => f32Exp2 ((s.v a).get j))
  | vabs st d a p : LaneRule (.vabs st d a p) st 1 d p (fun s j => (((s.v a).get j).setWidth 31 |>.setWidth 32, 0))
  | vneg st d a p : LaneRule (.vneg st d a p) st 1 d p (fun s j => (((s.v a).get j) + 0x80000000, 0))
  | viadd st d a b p : LaneRule (.viadd st d a b p) st 1 d p (fun s j => (w32 (((s.v a).get j).toNat + ((s.v b).get j).toNat), 0))
  | visub st d a b p : LaneRule (.visub st d a b p) st 1 d p (fun s j => (w32 (((s.v a).get j).toNat - ((s.v b).get j).toNat), 0))
  | vimul st d a b p : LaneRule (.vimul st d a b p) st 3 d p (fun s j => (w32 (((s.v a).get j).toNat * ((s.v b).get j).toNat), 0))
  | viminS32 st d a b p : LaneRule (.viminS32 st d a b p) st 1 d p (fun s j => (w32 (min ((s.v a).get j).toInt ((s.v b).get j).toInt), 0))
  | viminZ32 st d a b p : LaneRule (.viminZ32 st d a b p) st 1 d p (fun s j => (w32 (min (((s.v a).get j).toNat : Int) ((s.v b).get j).toNat), 0))
  | vimaxS32 st d a b p : LaneRule (.vimaxS32 st d a b p) st 1 d p (fun s j => (w32 (max ((s.v a).get j).toInt ((s.v b).get j).toInt), 0))
  | vimaxZ32 st d a b p : LaneRule (.vimaxZ32 st d a b p) st 1 d p (fun s j => (w32 (max (((s.v a).get j).toNat : Int) ((s.v b).get j).toNat), 0))
  | vand st d a b p : LaneRule (.vand st d a b p) st 1 d p (fun s j => (((s.v a).get j) &&& ((s.v b).get j), 0))
  | vor st d a b p : LaneRule (.vor st d a b p) st 1 d p (fun s j => (((s.v a).get j) ||| ((s.v b).get j), 0))
  | vxor st d a b p : LaneRule (.vxor st d a b p) st 1 d p (fun s j => (((s.v a).get j) ^^^ ((s.v b).get j), 0))
  | vshl st d a b p : LaneRule (.vshl st d a b p) st 1 d p (fun s j => (w32 (((s.v a).get j).toNat * 2 ^ (((s.v b).get j).toNat % 32)), 0))
  | vshr st d a b p : LaneRule (.vshr st d a b p) st 1 d p (fun s j => (w32 (((s.v a).get j).toNat / 2 ^ (((s.v b).get j).toNat % 32)), 0))
  | vsra st d a b p : LaneRule (.vsra st d a b p) st 1 d p (fun s j => (w32 (((s.v a).get j).toInt / 2 ^ (((s.v b).get j).toNat % 32)), 0))
  | vperm st d a b p : LaneRule (.vperm st d a b p) st 2 d p (fun s j => ((s.v a).get ⟨((s.v b).get j).toNat % 16, Nat.mod_lt _ (by decide)⟩, 0))
  | vpget st d a p : LaneRule (.vpget st d a p) st 2 d p (fun s j => (if (s.p a).getLsbD j.val then 0xFFFFFFFF else 0, 0))
  | vcvt st tgt src nsat d a p : LaneRule (.vcvt st tgt src nsat d a p) st 3 d p (fun s j =>
      let x : FVal := match src with | .f32 => f32 ((s.v a).get j) | .s32 => .ofInt ((s.v a).get j).toInt 0
      let y := convert x tgt s.mode nsat
      (if tgt.isInt then w32 ((y.1 : Int).bmod (2 ^ tgt.bits)) else w32 y.1, y.2))
/-- The sixteen values that a reduction folds, and its operation (R47, R173). -/
inductive TreeRule : Instr → Stall → Nat → VReg → VReg → PReg → W32 → (State → W32 → W32 → W32 × FFlags) → Prop
  | vradd st d a p : TreeRule (.vradd st d a p) st 12 d a p 0x80000000 (fun s => f32Add s.mode)
  | vrmax st d a p : TreeRule (.vrmax st d a p) st 12 d a p 0x7FC00000 (fun _ => f32Max)
  | vrmin st d a p : TreeRule (.vrmin st d a p) st 12 d a p 0x7FC00000 (fun _ => f32Min)
  | vriadd st d a p : TreeRule (.vriadd st d a p) st 6 d a p 0 (fun _ x y => (w32 (x.toNat + y.toNat), 0))
  | vrimaxS32 st d a p : TreeRule (.vrimaxS32 st d a p) st 6 d a p 0x80000000 (fun _ x y => (w32 (max x.toInt y.toInt), 0))
  | vrimaxZ32 st d a p : TreeRule (.vrimaxZ32 st d a p) st 6 d a p 0 (fun _ x y => (w32 (max (x.toNat : Int) y.toNat), 0))
  | vriminS32 st d a p : TreeRule (.vriminS32 st d a p) st 6 d a p 0x7FFFFFFF (fun _ x y => (w32 (min x.toInt y.toInt), 0))
  | vriminZ32 st d a p : TreeRule (.vriminZ32 st d a p) st 6 d a p 0xFFFFFFFF (fun _ x y => (w32 (min (x.toNat : Int) y.toNat), 0))
/-- The tree of R47 over sixteen values: neighbours first, the lower lane as the left operand; the flags of every node. -/
def treeOf (op : W32 → W32 → W32 × FFlags) : Nat → (Nat → W32) → W32 × FFlags
  | 0, x => (x 0, 0)
  | n + 1, x =>
    let l := treeOf op n x
    let r := treeOf op n fun i => x (i + 2 ^ n)
    ((op l.1 r.1).1, l.2 ||| r.2 ||| (op l.1 r.1).2)
/-- What lane j of a masked test gives, with its flags (R170). -/
inductive PredRule : Instr → Stall → PReg → PReg → (State → Fin 16 → Bool × FFlags) → Prop
  | vfcmpEq st d a b p : PredRule (.vfcmpEq st d a b p) st d p (fun s j => fEq (f32 ((s.v a).get j)) (f32 ((s.v b).get j)))
  | vfcmpLt st d a b p : PredRule (.vfcmpLt st d a b p) st d p (fun s j => fLt (f32 ((s.v a).get j)) (f32 ((s.v b).get j)))
  | vfcmpLe st d a b p : PredRule (.vfcmpLe st d a b p) st d p (fun s j => fLe (f32 ((s.v a).get j)) (f32 ((s.v b).get j)))
  | vicmpEq st d a b p : PredRule (.vicmpEq st d a b p) st d p (fun s j => (((s.v a).get j) = ((s.v b).get j), 0))
  | vicmpLtS32 st d a b p : PredRule (.vicmpLtS32 st d a b p) st d p (fun s j => (((s.v a).get j).toInt < ((s.v b).get j).toInt, 0))
  | vicmpLtZ32 st d a b p : PredRule (.vicmpLtZ32 st d a b p) st d p (fun s j => (((s.v a).get j).toNat < ((s.v b).get j).toNat, 0))
  | vpset st d a p : PredRule (.vpset st d a p) st d p (fun s j => ((s.v a).get j ≠ 0, 0))
/-- The active lanes of a mask predicate (R163). -/
def maskOf (s : State) (p : PReg) : BitVec 16 := (s.p p).setWidth 16
/-- The flags of the active lanes, ORed (R168). -/
def flagsOf (m : BitVec 16) (f : Fin 16 → FFlags) : FFlags :=
  (List.finRange 16).foldl (fun a j => if m.getLsbD j.val then a ||| f j else a) 0
/-- The word takes the next entry of the dispatch ring (R166, R315), and nothing outside the acting context changes but that and
who holds the issue slot. -/
def TakesRing (i : Instr) (s t : State) (done : Bool) : Prop :=
  t = { s with cores := t.cores } ∧ (∀ n, n ≠ s.act.1 → t.core n = s.core n) ∧
    (∀ k, k ≠ s.act.2 → t.ctx s.act.1 k = s.ctx s.act.1 k) ∧
    t.myCore = { s.myCore with
      ctxs := t.myCore.ctxs, last := s.act.2, slotAt := s.now + 1, ring := t.myCore.ring, ringCtr := s.myCore.ringCtr + 1 } ∧
    ∃ fl, t.myCore.ring.head? = some ⟨s.myCore.ringCtr, wordOf i, s.act.2, true, done, fl, s.me.pc, s.now, s.me.hm⟩
/-- The imprecise fault of a vector word's enabled flags, with the word's ring entry (R44, R168). -/
def flagFault (i : Instr) (s : State) (f : FFlags) : ImpFault :=
  ⟨⟨0x18, 0, w64 ((Trapped s.me f).toNat * 2 ^ 32 + (wordOf i).toNat), s.myCore.ringCtr⟩, s.now, s.me.hm⟩
/-- The reports that are still to come to a context, with their cycles. -/
def Ctx.reports (c : Ctx) : List (Nat × ImpFault) := c.pend.filterMap fun p => match p with | .report t f => some (t, f) | _ => none
/-- The flags of a vector word become sticky, and an enabled one is reported once the result is written, `l` cycles after the issue
(R44, R168). -/
def RaisesLate (i : Instr) (s t : State) (l : Nat) (f : FFlags) : Prop :=
  t.me.rmode = s.me.rmode ||| (f.setWidth 64 <<< 8) ∧ t.me.fault = s.me.fault ∧
    t.me.reports = s.me.reports ++ (if Trapped s.me f = 0 then [] else [(s.now + l, flagFault i s f)])
/-- The same of a word whose result is written at once. -/
def RaisesNow (i : Instr) (s t : State) (f : FFlags) : Prop :=
  t.me.rmode = s.me.rmode ||| (f.setWidth 64 <<< 8) ∧ t.me.fault = if Trapped s.me f = 0 then none else some (flagFault i s f)
/-- A word that writes the lanes of one vector register whose bits `m` are set, `l` cycles after its issue, and nothing else. -/
def ComputesLanes (i : Instr) (s : State) (st : Stall) (l : Nat) (d : VReg) (m : BitVec 16) (x : Fin 16 → W32) (f : FFlags) : Prop :=
  ∃ t, exec i s = .next t ∧
    (∀ j, (t.me.vAt (s.now + l) d).get j = if m.getLsbD j.val then x j else (s.me.vAt (s.now + l) d).get j) ∧
    (∀ u q, q ≠ d → t.me.vAt u q = s.me.vAt u q) ∧ (∀ u q, t.me.pAt u q = s.me.pAt u q) ∧ KeepsG s.me t.me 0 ∧
    KeepsRest s.now s.me t.me ∧ RaisesLate i s t l f ∧ GoesOn s t st ∧ TakesRing i s t true
/-- The ring entry that the next vector word takes is free (R315). -/
def RingFree (s : State) : Prop :=
  (∀ c ∈ s.cmds, ¬ (c.core = s.act.1 ∧ c.seq = s.myCore.ringCtr)) ∧
    ∀ f ∈ s.flights, f.core = s.act.1 → f.seq = s.myCore.ringCtr → f.kind.vector = false

/-! ### Scaled elements and prefetch (R240–R242) -/

/-- The other contexts of the acting core, and the other cores, are as before. -/
def OthersSame (s t : State) : Prop :=
  (∀ n, n ≠ s.act.1 → t.core n = s.core n) ∧ ∀ k, k ≠ s.act.2 → t.ctx s.act.1 k = s.ctx s.act.1 k
/-- The context stays at its word until a cycle, and nothing else of the machine changes. -/
def StaysTill (s t : State) (u : Nat) : Prop :=
  t.me.pc = s.me.pc ∧ t.me.park = .drain ∧ t.me.readyAt = max s.me.readyAt u ∧ s.me.SameRegs t.me ∧ OnlyMe s t
/-- An access to bytes of the own scratch that a rope-net store of the context is on its way to waits until it has arrived. -/
def AwaitsNet (i : Instr) (s : State) (o n : Nat) : Prop :=
  ¬ Landed s o n → ∃ t, exec i s = .next t ∧ StaysTill s t (s.ownNetBy s.act.1 s.act.2 o n)
/-- A page fault holds an access of the context: a word that waits for its loads stays where it is (R180, R268). -/
def HeldBack (i : Instr) (s : State) : Prop :=
  (∃ f ∈ s.flightsOf s.act.1 s.act.2, f.stuck = true) →
    ∃ t, exec i s = .next t ∧ t.me.pc = s.me.pc ∧ s.me.SameRegs t.me ∧ OnlyMe s t
/-- The word is done and no register of its context has changed. -/
def Ends (s t : State) (st : Stall) : Prop := s.me.SameRegs t.me ∧ KeepsSpecials s.now s.me t.me ∧ GoesOn s t st
/-- The word is done, and its context waits `d` cycles for a home's answer (R317). -/
def AwaitsHome (s t : State) (d : Nat) : Prop := t.me.pc = s.me.pc + 4 ∧ t.me.park = .home (s.now + d)
/-- `LDX.f32` and `LDX.s32`: what the register gets from a format, BLOG, a scale slot and a code, with its flags (R41, R241). -/
inductive ElemLoads : Instr → Stall → Reg → Reg → Reg → (RM → Fmt → Nat → BitVec 16 → Nat → W64 × FFlags) → Prop
  | ldxF32 st d a b : ElemLoads (.ldxF32 st d a b) st d a b (fun _ f n y c => ((decodeF32 f n y c).1.setWidth 64, (decodeF32 f n y c).2))
  | ldxS32 st d a b : ElemLoads (.ldxS32 st d a b) st d a b
      (fun m f n y c => ((decodeToS32 f n y m c).1.signExtend 64, (decodeToS32 f n y m c).2))
/-- `STX` and `STX.nsat`. -/
inductive ElemStores : Instr → Stall → Reg → Reg → Reg → Bool → Prop
  | stx st d a b : ElemStores (.stx st d a b) st d a b false
  | stxNsat st d a b : ElemStores (.stxNsat st d a b) st d a b true
/-- The words with a scaled element: their pointer and index registers, and whether they write it. -/
inductive ElemWords : Instr → Reg → Reg → Bool → Prop
  | load i st d a b f : ElemLoads i st d a b f → ElemWords i a b false
  | store i st d a b n : ElemStores i st d a b n → ElemWords i a b true
/-- The address of element k of a pointer, and of its scale slot (R40, R241). -/
def elemVA (t : Tagged) (k : Nat) : VA := t.va + BitVec.ofNat 56 (elemOff t.fmt t.blog k)
def slotVA (t : Tagged) (k : Nat) : VA := t.va + BitVec.ofNat 56 (scaleOff t.fmt t.blog k)
/-- The pointer decodes, its base is aligned, and the element lies below 2^56 (R31, R241). -/
def ElemOk (s : State) (a b : Reg) (t : Tagged) : Prop :=
  tagged (s.g a) = some t ∧ tagAligned t = true ∧ t.va.toNat + elemOff t.fmt t.blog (s.g b).toNat + elemSize t.fmt ≤ 2 ^ 56
/-- The bits of a code at its element: a 4-bit element has the low nibble at an even index, the high one at an odd. -/
def elemBits (t : Tagged) (k c : Nat) : W64 × W64 :=
  if t.fmt.bits = 4 then (if k % 2 = 1 then (w64 (16 * c), 0xF0) else (w64 c, 0x0F)) else (w64 c, spanBits 0 (elemSize t.fmt))
/-- The code of an element in the bytes read for it. -/
def elemCode (t : Tagged) (k x : Nat) : Nat :=
  if t.fmt.bits = 4 then (if k % 2 = 1 then x / 16 % 16 else x % 16) else x % 2 ^ t.fmt.bits
/-- The scale slot as the own scratch holds it, any where the format is unscaled or where it is not read. -/
def SlotIn (s : State) (t : Tagged) (k : Nat) (y : BitVec 16) : Prop :=
  t.blog ≠ 0 → ∃ p, s.place s.act.1 .read (slotVA t k) 2 = .scratch p ∧ Landed s p 2 ∧ y = BitVec.ofNat 16 (cellsLE s.myCore.banks.bytes p 2)

/-! ### Scratch layout, tags and flushes (R91, R99, R116, R243–R246) -/

/-- Granules g with first ≤ g ≤ last that lie in bank k. -/
def inBank (first last k : Nat) : Nat := ((List.range 32).filter fun j => first ≤ 32 * k + j && 32 * k + j ≤ last).length
/-- The layout of S bytes of scratch and f FIFO banks (R91, R243). -/
def LaidOut (b : Banks) (S f : Nat) : Prop :=
  b.slen = S ∧ ∀ k, k < 19 → b.role k = if k < (S + 16383) / 16384 then 1 else if 19 - f ≤ k then 2 else 0
/-- What `SPRESIZE` makes of the scratch (R243): bytes, stamps and tags below the smaller size stay, what is new is zero, and the
granules that the zeroing wrote whole are stamped, in a bank that becomes scratch all of them (DEDUCED: log entry 22). -/
def Resized (tick : BitVec 16) (old new : Banks) (S : Nat) : Prop :=
  let keep := min old.slen S
  (∀ a, a < keep → cellGet new.bytes a = cellGet old.bytes a) ∧ (∀ a, keep ≤ a → a < S → cellGet new.bytes a = 0) ∧
    (∀ g, g < (keep + 511) / 512 → new.granAt g = old.granAt g) ∧
    (∀ g, keep ≤ 512 * g → g < (S + 16383) / 16384 * 32 → 512 * g + 512 ≤ S ∨ (old.slen + 16383) / 16384 ≤ g / 32 →
      new.granAt g = ⟨tick, false, false⟩) ∧
    (∀ j, 2048 * j < old.slen → new.tagAt j = old.tagAt j) ∧ ∀ j, old.slen ≤ 2048 * j → new.tagAt j = 0
/-- A range of addresses of `ICINV`, `FLUSH` and `FLUSHINV` (R116). -/
def InRange (a b : W64) (va : Nat) : Prop :=
  va < 2 ^ 56 ∧ (b = 0 ∨ 2 ^ 40 ≤ b.toNat ∨
    ((a.setWidth 56).toNat / 128 * 128 ≤ va ∧ va < min (((a.setWidth 56).toNat + b.toNat + 127) / 128 * 128) (2 ^ 56)))
/-- The cores of a scope (R116). -/
def CoresOf (sc : Scope) (n m : Nat) : Prop :=
  match sc with | .core => n = m | .rope => n / 8 = m / 8 | .die => n / 384 = m / 384 | .device => True | .system => True
/-- The flushes. -/
inductive Flushes : Instr → Stall → Reg → Reg → Bool → Prop
  | flush st a b : Flushes (.flush st a b) st a b false
  | flushinv st a b : Flushes (.flushinv st a b) st a b true

/-! ### Belays, events, queues, futures, messages (R282, R287–R300) -/

/-- A cairn is recorded at the next word, over the registers as the word leaves them (R131, R137). -/
def CairnAt (s t : State) : Prop :=
  t.me.cairnpc = 0x8000000000000000 ||| (if s.holdsLease s.act.1 then 0x4000000000000000 else 0) |||
      ((s.me.pc + 4).setWidth 64 &&& 0x00FFFFFFFFFFFFFC) ∧
    t.me.image = some ⟨t.me.g, t.me.v, t.me.p, t.me.mshape⟩ ∧ t.me.issued = 0 ∧ t.me.suppress = 0 ∧
    t.me.mshape = s.me.mshape ∧ t.me.rmode = s.me.rmode ∧ t.me.xstat = s.me.xstat
/-- The fields of a belay word (R287). -/
def BelayWord (sc : Scope) (w : W64) : Prop :=
  w.toNat / 2 ^ 30 = 0 ∧ w.toNat / 2 ^ 19 % 32 = 0 ∧ w.toNat / 2 ^ 14 % 4 = 0 ∧ w.toNat / 2 ^ 7 % 2 = 0 ∧ BelayId sc w ∧
    (sc = .core ∨ sc = .rope ∨ sc = .die → w.toNat / 2 ^ 16 % 8 = 0) ∧ (sc = .core ∨ sc = .rope → w.toNat / 2 ^ 8 % 64 = 0) ∧ 1 ≤ w.toNat % 128 ∧ w.toNat % 128 ≤ 88
where
  /-- ID in range for the scope. -/
  BelayId (sc : Scope) (w : W64) : Prop := w.toNat / 2 ^ 24 % 64 < (if sc = .core ∨ sc = .rope then 32 else 16)
/-- The rope-level counter of a scope and a belay word. -/
def ropeCounter (s : State) (sc : Scope) (w : W64) : BKey := ⟨0, s.act.1 / 8, sc, w.toNat / 2 ^ 24 % 64⟩
/-- The top level of a scope: 0 a rope, 1 a die, 2 the package. -/
def topOf (sc : Scope) : Nat := match sc with | .core => 0 | .rope => 0 | .die => 1 | .device => 2 | .system => 2
/-- An arrival at a counter (R288): the first of a count names how many are expected; the last returns the count to zero, and a
counter at the top of its scope advances GEN, one below sends an arrival to its parent. -/
def Arrives (s t : State) (k : BKey) (expect child : Nat) (w : W64) : Prop :=
  let c := s.belayAt k
  let e := if c.count = 0 then expect else c.expect
  (∀ j, j ≠ k → t.belayAt j = s.belayAt j) ∧
    (c.count + 1 < e → (t.belayAt k).count = c.count + 1 ∧ (t.belayAt k).expect = e ∧ (t.belayAt k).gen = c.gen ∧ t.queue = s.queue) ∧
    (e ≤ c.count + 1 → (t.belayAt k).count = 0 ∧
      if k.level = topOf k.scope then
        (t.belayAt k).gen = c.gen + 1 ∧ (k.level ≠ 0 → c.sent = [] → ∀ ch ∈ child :: c.who,
          (s.now + s.lat.belay, Ev.belayRelease { k with level := k.level - 1, node := ch }) ∈ t.queue)
      else (t.belayAt k).gen = c.gen ∧ (s.now + s.lat.belay, Ev.belayArrival
        (if k.level = 0 then ⟨1, k.node / 48, k.scope, k.id⟩ else ⟨2, 0, k.scope, k.id⟩)
        (if k.level = 0 then w.toNat / 2 ^ 8 % 64 + 1 else w.toNat / 2 ^ 16 % 8 + 1) k.node w) ∈ t.queue)
/-- What a completion object shows to a fresh read (R266, R292). -/
def Shows (s : State) (va : VA) (x : W64) : Prop :=
  (∃ o, s.place s.act.1 .read va 8 = .scratch o ∧ Landed s o 8 ∧ x = BitVec.ofNat 64 (cellsLE s.myCore.banks.bytes o 8)) ∨
    ∃ e pa, s.place s.act.1 .read va 8 = .memory e pa ∧ Settled s.act.1 e ∧ NoDirty s s.asid va e ∧ RoomFor s s.act.1 s.asid va e ∧ MayRead s s.me true s.asid va 8 e x
/-- `x` has reached `v` (R292, R296). -/
def Reached (x v : W64) : Prop := (x - v).toNat < 2 ^ 63
/-- The unread entries of a rope queue, oldest first (R101, R293). -/
def queueOfCore (c : Core) (q : Nat) : List FifoEnt := (Table.find? q c.task.spilled).getD [] ++ c.banks.fifoAt (17 - q)
/-- The queue word's fields: reserved bits, the queue (R294). -/
def QueueWord (mask x : W64) : Prop := x &&& mask = 0
def queueIn (x : W64) : Nat := x.toNat / 16 % 8
/-- A rope queue that a core has (R293, R294). -/
def HasQueue (c : Core) (q : Nat) : Prop := q + 2 ≤ ((List.range 19).filter fun k => c.banks.role k == 2).length
/-- The core that a push names, with a task of the issuer's identifier and the queue (R294). -/
def pushCore (s : State) (x : W64) : Nat := s.act.1 / 8 * 8 + x.toNat % 8
def PushTarget (s : State) (x : W64) : Prop :=
  (s.core (pushCore s x)).on ≠ none ∧ (s.core (pushCore s x)).asid = s.asid ∧ HasQueue (s.core (pushCore s x)) (queueIn x)
/-- The pops, with their bound. -/
inductive Pops : Instr → Stall → Reg → Reg → (State → Option Nat) → Prop
  | qpop st d a : Pops (.qpop st d a) st d a (fun _ => none)
  | qpopb st d a b : Pops (.qpopb st d a b) st d a (fun s => some ((s.g b).toNat % 2 ^ 32))
/-- The future waits. -/
inductive FutureWaits : Instr → Stall → Reg → Reg → (State → Option Nat) → Prop
  | futwait st d a : FutureWaits (.futwait st d a) st d a (fun _ => none)
  | futwaitb st d a b : FutureWaits (.futwaitb st d a b) st d a (fun s => some ((s.g b).toNat % 2 ^ 32))
/-- The receives. -/
inductive Receives : Instr → Stall → Reg → (State → Option Nat) → Prop
  | recv st d : Receives (.recv st d) st d (fun _ => none)
  | recvb st d a : Receives (.recvb st d a) st d (fun s => some ((s.g a).toNat % 2 ^ 32))
/-- The waits for a completion object: the register of the value waited for, the bound, and where the value goes. -/
inductive ObjectWaits : Instr → Stall → Reg → Reg → Option Reg → (State → Option Nat) → Prop
  | cwait st a b : ObjectWaits (.cwait st a b) st a b none (fun _ => none)
  | cwaitb st d a b : ObjectWaits (.cwaitb st d a b) st a b (some d) (fun s => some ((s.g d).toNat % 2 ^ 32))
/-- A word that waits for a condition that does not hold yet, its own checks passed, and its bound. -/
inductive NotYet : Instr → State → Option Nat → Prop
  | object i st a b d lim s : ObjectWaits i st a b d lim → s.me.defer = none → ((s.g a).setWidth 56).toNat % 8 = 0 →
      (∃ x, Shows s ((s.g a).setWidth 56) x) → (∀ x, Shows s ((s.g a).setWidth 56) x → ¬ Reached x (s.g b)) → NotYet i s (lim s)
  | pop i st d a lim s : Pops i st d a lim → QueueWord 0xFFFFFFFFFFFFFF8F (s.g a) → HasQueue s.myCore (queueIn (s.g a)) →
      queueOfCore s.myCore (queueIn (s.g a)) = [] → NotYet i s (lim s)
  | future i st d a lim s e pa : FutureWaits i st d a lim → ((s.g a).setWidth 56).toNat % 16 = 0 →
      s.place s.act.1 .futRead ((s.g a).setWidth 56) 16 = .memory e pa → ¬ Reached (s.phys64 (pa + 8)) (s.g d) → NotYet i s (lim s)
  | receive i st d lim s : Receives i st d lim → s.myCore.task.msgs = [] → s.myCore.banks.fifoAt 18 = [] → NotYet i s (lim s)
  | bwait st sc a b s : BelayWord.BelayId sc (s.g a) → s.myCore.guardrec.getLsbD 63 = false →
      (s.belayAt (ropeCounter s sc (s.g a))).gen = (s.g b).setWidth 16 → NotYet (.bwait st sc a b) s none
  | qpush st a b s : QueueWord 0xFFFFFFFFFFFFFF88 (s.g a) → PushTarget s (s.g a) → Quiet s →
      s.queueRoom (pushCore s (s.g a)) (queueIn (s.g a)) = false → NotYet (.qpush st a b) s none
  | lease st s : s.holdsLease s.act.1 = false → NotYet (.lease st) s none
  | leaseb st a s : s.holdsLease s.act.1 = false → NotYet (.leaseb st a) s (some ((s.g a).toNat % 2 ^ 32))
  | fsync st s : s.fabricBusy s.act.1 s.act.2 = true → NotYet (.fsync st) s none

/-- The sends, with their bound. -/
inductive Sends : Instr → Stall → Reg → Reg → Reg → (State → Option Nat) → Prop
  | send st d a b : Sends (.send st d a b) st d a b (fun _ => none)
  | sendb st d a b : Sends (.sendb st d a b) st d a b (fun s => some ((s.g d).toNat % 2 ^ 32))
/-- The core that bits 10:0 of a word name, where there is one (R86). -/
def coreNamed (x : W64) : Option Nat :=
  let r := x.toNat / 8 % 64
  if r < 48 then some (x.toNat / 512 % 4 * 384 + r * 8 + x.toNat % 8) else none
/-- The oldest unread message of a task, in its inbox or its spill area (R298, R299). -/
def Oldest (c : Core) (e : FifoEnt) : Prop :=
  (∃ ms, c.task.msgs = e :: ms ∧ ∀ f fs, c.banks.fifoAt 18 = f :: fs → e.n < f.n) ∨
    ∃ es, c.banks.fifoAt 18 = e :: es ∧ ∀ m ms, c.task.msgs = m :: ms → e.n ≤ m.n

/-! ### Vector memory (R175–R180) -/

/-- The vector memory words: stall, pointer, whether its tag is decoded, element index of each lane, active lanes, and the access. -/
inductive VecWords : Instr → Stall → (State → W64) → Bool → (State → Nat → Nat) → (State → BitVec 16) → (State → FlightKind) → Prop
  | vld st v d a : VecWords (.vld st v d a) st (fun s => (((s.g d).setWidth 56 + (s.g a).setWidth 56 : VA).setWidth 64)) false
      (fun _ _ => 0) (fun _ => 0xFFFF)
      (fun s => .vload v (((s.g d).setWidth 56 + (s.g a).setWidth 56 : VA).setWidth 64) false [] 0xFFFF)
  | vst st v d a : VecWords (.vst st v d a) st (fun s => (((s.g d).setWidth 56 + (s.g a).setWidth 56 : VA).setWidth 64)) false
      (fun _ _ => 0) (fun _ => 0xFFFF)
      (fun s => .vstore (s.v v) (((s.g d).setWidth 56 + (s.g a).setWidth 56 : VA).setWidth 64) false [] 0xFFFF 0)
  | vldx st v d a : VecWords (.vldx st v d a) st (fun s => s.g d) true (fun s j => (s.g a).toNat + j) (fun _ => 0xFFFF)
      (fun s => .vload v (s.g d) true ((List.range 16).map ((s.g a).toNat + ·)) 0xFFFF)
  | vstx st v d a : VecWords (.vstx st v d a) st (fun s => s.g d) true (fun s j => (s.g a).toNat + j) (fun _ => 0xFFFF)
      (fun s => .vstore (s.v v) (s.g d) true ((List.range 16).map ((s.g a).toNat + ·)) 0xFFFF (s.me.rmode.setWidth 2))
  | vgather st v d a : VecWords (.vgather st v d a) st (fun s => s.g d) true
      (fun s j => if h : j < 16 then ((s.v v).get ⟨j, h⟩).toNat else 0) (fun s => (s.g a).setWidth 16)
      (fun s => .vload v (s.g d) true ((List.finRange 16).map fun j => ((s.v v).get j).toNat) ((s.g a).setWidth 16))
  | vscatter st v d a : VecWords (.vscatter st v d a) st (fun s => s.g d) true
      (fun s j => if h : j < 16 then ((s.v (v + 1)).get ⟨j, h⟩).toNat else 0) (fun s => (s.g a).setWidth 16)
      (fun s => .vstore (s.v v) (s.g d) true ((List.finRange 16).map fun j => ((s.v (v + 1)).get j).toNat) ((s.g a).setWidth 16)
        (s.me.rmode.setWidth 2))
/-- The address and size of a lane's element. -/
def laneVA (ptr : W64) (sc : Bool) (e j : Nat) : VA :=
  if sc then (match tagged ptr with | some t => elemVA t e | none => 0) else ptr.setWidth 56 + BitVec.ofNat 56 (4 * j)
def laneSize (ptr : W64) (sc : Bool) : Nat := if sc then (match tagged ptr with | some t => elemSize t.fmt | none => 0) else 4
/-- A vector memory word passes its checks at issue: a plain one is aligned to 4 bytes; the pointer of a scaled one decodes, its
base is aligned, every active index is at most 2^56 and every active element lies below 2^56 (R31, R175, R176). -/
def VecOk (ptr : W64) (sc : Bool) (e : Nat → Nat) (m : BitVec 16) : Prop :=
  if sc then ∃ t, tagged ptr = some t ∧ tagAligned t = true ∧
    ∀ j, j < 16 → m.getLsbD j = true → e j ≤ 2 ^ 56 ∧ t.va.toNat + elemOff t.fmt t.blog (e j) + elemSize t.fmt ≤ 2 ^ 56
  else ptr.toNat % 4 = 0
/-- What a lane of a load from the own scratch receives (R41, R175, R176). -/
def LaneRead (s : State) (ptr : W64) (sc : Bool) (e j : Nat) (r : W32 × FFlags) : Prop :=
  ∃ o, s.place s.act.1 .read (laneVA ptr sc e j) (laneSize ptr sc) = .scratch o ∧ Landed s o (laneSize ptr sc) ∧
    if sc then ∃ t y, tagged ptr = some t ∧ SlotIn s t e y ∧
      r = decodeLane t.fmt t.blog y (elemCode t e (cellsLE s.myCore.banks.bytes o (elemSize t.fmt)))
    else r = (BitVec.ofNat 32 (cellsLE s.myCore.banks.bytes o 4), 0)
/-- What a lane of a store writes into the own scratch: offset, size, bits, their mask, flags (R177). The slot, which integer
formats do not read, is read as it stood before the word. -/
def LaneWrite (s : State) (ptr : W64) (sc : Bool) (e j : Nat) (x : W32) (w : Nat × Nat × W64 × W64) (f : FFlags) : Prop :=
  s.place s.act.1 .write (laneVA ptr sc e j) (laneSize ptr sc) = .scratch w.1 ∧ w.2.1 = laneSize ptr sc ∧ Landed s w.1 w.2.1 ∧
    if sc then ∃ t y, tagged ptr = some t ∧ (t.fmt.isInt = false → SlotIn s t e y) ∧
      w.2.2 = elemBits t e (encodeLane t.fmt t.blog y s.mode false x).1 ∧ f = (encodeLane t.fmt t.blog y s.mode false x).2
    else w.2.2 = (x.setWidth 64, 0xFFFFFFFF) ∧ f = 0
/-- A page whose stores core n performs in its own L1, in program order (R219, R235, note 2 of R273). -/
def OwnPage (n : Nat) (e : Pte) (pa : Nat) : Prop :=
  hasOrder e pa = true ∧ e.sh = false ∧ (e.owner = n ∨ e.owner = 2047 ∧ dieOf n = homeDie pa)
/-- Every active lane lies outside both apertures, and what a store writes in a page that translates and is not the core's own: the
access leaves the core (R178, R180, R273). -/
def LanesLeave (s : State) (ptr : W64) (sc : Bool) (e : Nat → Nat) (m : BitVec 16) (store : Bool) : Prop :=
  m ≠ 0 ∧ ∀ j, j < 16 → m.getLsbD j = true →
    let va := laneVA ptr sc (e j) j
    (va.toNat < 0xFFFFFFFF800000 ∨ 0xFFFFFFFFC00000 ≤ va.toNat ∧ va.toNat < 0xFFFFFFFFF00000) ∧
      (store = true → (∀ p pa, s.place s.act.1 .write va (laneSize ptr sc) = .memory p pa → ¬ OwnPage s.act.1 p pa) ∧
        ∀ v w, s.place s.act.1 .write va (laneSize ptr sc) ≠ .page v w)
/-- The active lanes of a plain access of a core lie in pages, `e j` the entry of lane j, whose translations are settled and whose lines
find room; an entry that covers another lane's address is that lane's too. -/
def LanesOn (s : State) (n : Nat) (asid : Asid) (w : Kind) (ptr : W64) (m : BitVec 16) (e : Fin 16 → Pte) : Prop :=
  (∀ j : Fin 16, m.getLsbD j.val = true →
    s.place n w (laneVA ptr false 0 j.val) 4 = .memory (e j) ((e j).pa (laneVA ptr false 0 j.val)) ∧
      Translates s asid (laneVA ptr false 0 j.val) (e j) ∧ Settled n (e j) ∧ RoomFor s n asid (laneVA ptr false 0 j.val) (e j)) ∧
    ∀ i j : Fin 16, m.getLsbD i.val = true → m.getLsbD j.val = true → (e i).covers (laneVA ptr false 0 j.val) = true → e i = e j
/-- The other contexts of the acting core, and the other cores, are as before, but for what one that waits in `CWAIT` or `CWAITB` has seen
of its object (R292). -/
def OthersWatch (s t : State) : Prop :=
  (∀ n, n ≠ s.act.1 → t.core n = { s.core n with ctxs := (t.core n).ctxs }) ∧
    ∀ n k, (n, k) ≠ s.act → t.ctx n k = { s.ctx n k with answer := (t.ctx n k).answer }
/-- The ropes are as before, but that requests of contexts that wait no longer are withdrawn (R167, R189). -/
def Unasked (s t : State) : Prop :=
  ∀ r, t.rope r = { s.rope r with waiting := (t.rope r).waiting } ∧ (∀ w ∈ (t.rope r).waiting, w ∈ (s.rope r).waiting) ∧
    ∀ w ∈ (s.rope r).waiting, w ∉ (t.rope r).waiting → (t.ctx (w.1 / 16) (w.1 % 16)).asksLease = false
/-- The lanes of `d` are those of `m` that nothing stops, and each other lane of `m` meets a fault of its own, none a stale granule
(R167, R179, DESIGN CHOICE: log entry 103). -/
def Stopped (s : State) (n : Nat) (w : Kind) (ptr : W64) (m d : BitVec 16) : Prop :=
  d &&& m = d ∧ ∀ l ∈ lanesOf ptr false [] m, if d.getLsbD l.i.val then s.laneStop n w l = none
    else ∃ t, s.laneStop n w l = some (.inl t) ∧ (w = .read → t.cause ≠ 0x08)
/-- A vector access made at once in the own scratch: the word is done, its ring entry is complete, and no access stays in flight. -/
def AtOnce (i : Instr) (s t : State) (st : Stall) (f : FFlags) : Prop :=
  t = { s with cores := t.cores, queue := t.queue, next := t.next, ropes := t.ropes } ∧ (∀ e, e ∈ s.queue → e ∈ t.queue) ∧
    OthersWatch s t ∧ Unasked s t ∧ KeepsRest s.now s.me t.me ∧ RaisesNow i s t f ∧ GoesOn s t st ∧
    ∃ fl, t.myCore.ring.head? = some ⟨s.myCore.ringCtr, wordOf i, s.act.2, true, true, fl, s.me.pc, s.now, s.me.hm⟩

/-! ### Engine commands and leases (R103, R138–R141, R181–R195, R247–R254) -/

/-- The engine words: which unit, and what goes into the command as a, b and the offset from TBASE (R181, R194, R205, R247). -/
inductive EngineUnit | array | ladder | copy
  deriving DecidableEq, Repr
inductive EngineWords : Instr → Stall → EngineUnit → (State → W64) → (State → W64) → (State → W64) → Prop
  | mmul st t a b c : EngineWords (.mmul st t a b c) st .array (·.g a) (·.g b) (·.g c)
  | mmac st t a b c : EngineWords (.mmac st t a b c) st .array (·.g a) (·.g b) (·.g c)
  | mrun st t a b c : EngineWords (.mrun st t a b c) st .array (·.g a) (·.g b) (·.g c)
  | mread st t a b c : EngineWords (.mread st t a b c) st .array (·.g a) (·.g b) (·.g c)
  | mload st t a b c : EngineWords (.mload st t a b c) st .array (·.g a) (·.g b) (·.g c)
  | mzero st t c : EngineWords (.mzero st t c) st .array (fun _ => 0) (fun _ => 0) (·.g c)
  | mcomb st t a c : EngineWords (.mcomb st t a c) st .array (·.g a) (fun _ => 0) (·.g c)
  | mprog st a c : EngineWords (.mprog st a c) st .array (·.g a) (fun _ => 0) (·.g c)
  | lcfg st a c : EngineWords (.lcfg st a c) st .ladder (·.g a) (fun _ => 0) (·.g c)
  | lwgt st a c : EngineWords (.lwgt st a c) st .ladder (·.g a) (fun _ => 0) (·.g c)
  | lstep st r a c : EngineWords (.lstep st r a c) st .ladder (·.g a) (fun _ => 0) (·.g c)
  | lread st a c : EngineWords (.lread st a c) st .ladder (·.g a) (fun _ => 0) (·.g c)
  | lrung st a b c : EngineWords (.lrung st a b c) st .ladder (·.g a) (·.g b) (·.g c)
  | lclr st c : EngineWords (.lclr st c) st .ladder (fun _ => 0) (fun _ => 0) (·.g c)
  | copy st a b c : EngineWords (.copy st a b c) st .copy (·.g a) (·.g b) (·.g c)
  | copyApnd st a b c : EngineWords (.copyApnd st a b c) st .copy (·.g a) (·.g b) (·.g c)
  | copyl st a b c : EngineWords (.copyl st a b c) st .copy (·.g a) (·.g b) (·.g c)
  | copyz st a b c : EngineWords (.copyz st a b c) st .copy (·.g a) (·.g b) (·.g c)
  | cbump st a b c : EngineWords (.cbump st a b c) st .copy (·.g a) (·.g b) (·.g c)
/-- An engine command has issued: it starts at TBASE + off, no earlier than the engine sees it, and nothing else of the machine but
its context's count and its ring entry changes (R138, R181, R182). -/
def Commands (i : Instr) (s t : State) (a b off : W64) : Prop :=
  let start := ((if s.me.anchor then BitVec.ofNat 64 s.now else s.me.tbase) + off).toNat
  ∃ c : Cmd, t.cmds = s.cmds ++ [c] ∧ c.id = s.next ∧ c.core = s.act.1 ∧ c.ctx = s.act.2 ∧ c.bind = s.myCore.task.bind ∧
    c.instr = i ∧ c.a = a ∧ c.b = b ∧ c.start = start ∧ c.issued = s.now ∧ c.asid = s.asid ∧ c.mshape = s.me.mshape ∧
    c.seq = s.myCore.ringCtr ∧ c.word = wordOf i ∧ c.phase = .waiting ∧ c.writes = [] ∧
    (max start (s.now + 8), Ev.engineCommandStart s.act.1 s.next) ∈ t.queue ∧ (∀ e, e ∈ s.queue → e ∈ t.queue) ∧
    t.mem = s.mem ∧ t.locs = s.locs ∧ t.flights = s.flights ∧ t.ropes = s.ropes ∧ OthersSame s t ∧ t.myCore.banks = s.myCore.banks ∧
    t.myCore.active = s.myCore.active ∧ t.me.issued = (if s.me.cairnpc.getLsbD 63 then s.me.issued + 1 else s.me.issued) ∧
    t.me.suppress = s.me.suppress ∧
    ∃ fl, t.myCore.ring.head? = some ⟨s.myCore.ringCtr, wordOf i, s.act.2, false, false, fl, s.me.pc, s.now, s.me.hm⟩
/-- A core's request has reached the arbiter of its rope by a cycle (R103). -/
def Asks (x : Rope) (now n : Nat) : Prop := ∃ w ∈ x.waiting, w.1 / 16 = n ∧ w.2 ≤ now
/-- A run of a rope's lease ends (R103): the lease is free where another core waits, and the holder begins a new run otherwise. -/
def RunEnds (s t : State) (r : Nat) (l : Lease) : Prop :=
  ((∃ n, n ≠ l.core ∧ Asks (s.rope r) s.now n) →
    (t.rope r).lease = none ∧ (t.rope r).last = l.core ∧ (s.now, Ev.leaseGrant r) ∈ t.queue) ∧
  ((∀ n, Asks (s.rope r) s.now n → n = l.core) →
    (t.rope r).lease = some ⟨l.core, s.now + 1, 0, (l.at', l.cmds)⟩ ∧ (s.now + 1 + 8192, Ev.leaseRunEnd r (s.now + 1)) ∈ t.queue) ∧
  (t.rope r).waiting = (s.rope r).waiting ∧ (∀ q, q ≠ r → t.rope q = s.rope q) ∧ ∀ e, e ∈ s.queue → e ∈ t.queue
/-- The core that an arbitration chooses: of the rope's waiting cores, the first after the last holder (R103). -/
def Granted (x : Rope) (now n : Nat) : Prop :=
  ∃ j, j < 8 ∧ (Asks x now n ∧ n % 8 = (x.last % 8 + 1 + j) % 8) ∧
    ∀ i, i < j → ∀ m, Asks x now m → m % 8 ≠ (x.last % 8 + 1 + i) % 8
/-- The core that the lease of a rope goes to: the one that an arbitration has chosen, while it waits, else the next in turn (R103, R190). -/
def Wins (x : Rope) (now n : Nat) : Prop :=
  let waits := fun m => ∃ w ∈ x.waiting, w.1 / 16 = m
  (x.chosen = some n ∧ waits n) ∨ ((∀ m, x.chosen = some m → ¬ waits m) ∧ Granted x now n)
/-- A command of the array or the ladder. -/
def Leased (i : Instr) : Prop := ∃ st u a b off, EngineWords i st u a b off ∧ u ≠ .copy
/-- A command that is too early or out of order at its start (R181). -/
def TooEarly (s : State) (c : Cmd) : Prop :=
  c.start < c.issued + 8 ∨ ∃ d ∈ s.cmds, d.core = c.core ∧ d.ctx = c.ctx ∧ d.phase = .waiting ∧ d.id < c.id
/-- The command with a name waits for its start. -/
def Waiting (s : State) (c : Cmd) : Prop :=
  s.cmds.find? (fun d => d.id == c.id && d.core == c.core && d.phase == .waiting) = some c
/-- The command's task is on its core, and its context is not about to be stopped by something else. -/
def CmdLive (s : State) (c : Cmd) : Prop :=
  (s.core c.core).on ≠ none ∧ (s.core c.core).task.bind = c.bind ∧ (s.core c.core).failing = none ∧ (s.core c.core).stopped = none ∧
    (s.ctx c.core c.ctx).fault = none ∧ ∀ n l, (s.ctx c.core c.ctx).park ≠ .retry n l
/-- A command at its start, in time and in order (R181). -/
def InTime (s : State) (c : Cmd) : Prop := Waiting s c ∧ CmdLive s c ∧ ¬ TooEarly s c
/-- The same with the lease of its rope and its unit free (R181, R195, R207), or with a free copy engine (R250). -/
def ArrayReady (s : State) (c : Cmd) : Prop := InTime s c ∧ s.holdsLease c.core = true ∧ (s.rope (c.core / 8)).arrayBusy ≤ s.now
def LadderReady (s : State) (c : Cmd) : Prop := InTime s c ∧ s.holdsLease c.core = true ∧ (s.rope (c.core / 8)).ladderBusy ≤ s.now
def CopyReady (s : State) (c : Cmd) : Prop := InTime s c ∧ s.copyBusy c.core = false
/-- NFX counts a command of a cairn region that starts (R138), and no register or byte of scratch changes. -/
def Counted (s t : State) (c : Cmd) : Prop :=
  (∀ n k, (s.ctx n k).SameRegs (t.ctx n k)) ∧ (∀ n, (t.core n).banks = (s.core n).banks) ∧ (∀ e, e ∈ s.queue → e ∈ t.queue) ∧
    ((s.ctx c.core c.ctx).cairnV = true → (s.ctx c.core c.ctx).nfx < 63 →
      (t.ctx c.core c.ctx).nfx = (s.ctx c.core c.ctx).nfx + 1)
/-- A command of the array, or of the ladder, that starts (R138, R187, R188, R195, R207): it is under way, its unit is busy for F cycles, its
completion is to come, NFX counts it, and no register and no byte of memory or scratch changes. -/
def Begins (s t : State) (c : Cmd) (ladder : Bool) (F stop : Nat) (ws : List CmdWrite) : Prop :=
  t.cmds = s.cmds.map (fun d => if d.id = c.id then { d with phase := .running, writes := ws, fedBy := s.now + F } else d) ∧
    (s.now + stop, Ev.engineCommandComplete c.core c.id) ∈ t.queue ∧ t.mem = s.mem ∧ t.locs = s.locs ∧ Counted s t c ∧
    let x := s.rope (c.core / 8)
    let y := t.rope (c.core / 8)
    if ladder then y.ladderBusy = s.now + F ∧ y.arrayBusy = x.arrayBusy else y.arrayBusy = s.now + F ∧ y.ladderBusy = x.ladderBusy
/-- A copy that starts (R138, R250, R251): it is under way, with what `f` puts into it, and an event of it is to come. -/
def CopyBegins (s t : State) (c : Cmd) (stop : Nat) (ev : Ev) (f : Cmd → Cmd) : Prop :=
  t.cmds = s.cmds.map (fun d => if d.id = c.id then { f d with phase := .running, fedBy := s.now } else d) ∧
    (s.now + stop, ev) ∈ t.queue ∧ t.copyLast c.core = some s.now ∧ Counted s t c
/-- A command into a tile (R105, R195): `f` gives the elements of its shape, every other element and the other tile are as before, and the
tile is settled `st` cycles later. -/
def IntoTile (s t : State) (c : Cmd) (x : Tile) (st : Nat) (f : Nat → Nat → W32) : Prop :=
  (∀ q, q ≠ x → t.tile c.core q = s.tile c.core q) ∧ (t.tile c.core x).settled = max (s.tile c.core x).settled (s.now + st) ∧
    ∀ i j, j < 128 → (t.tile c.core x).at' i j =
      if i < c.mshape.toNat % 128 + 1 ∧ j < c.mshape.toNat / 2 ^ 8 % 128 + 1 then f i j else (s.tile c.core x).at' i j
/-- The side values of the rows below M become `m` and `v`; those of the other rows are as before (R198). -/
def Sides (s t : State) (c : Cmd) (x : Tile) (M : Nat) (m v : Nat → W32) : Prop :=
  ∀ i, (t.tile c.core x).mxAt i = (if i < M then m i else (s.tile c.core x).mxAt i) ∧
    (t.tile c.core x).smAt i = if i < M then v i else (s.tile c.core x).smAt i
def SameSides (s t : State) (c : Cmd) (x : Tile) : Prop := Sides s t c x 0 (fun _ => 0) fun _ => 0
/-- Every tile of the core is as before. -/
def SameTiles (s t : State) (c : Cmd) : Prop := ∀ q, t.tile c.core q = s.tile c.core q
/-- A descriptor with a length as an operand: whether it is read, and whether the command takes its format. -/
def opnd (d : W64) (len : Nat) (read ok : Bool) : Opnd := ⟨d, len, read, ok⟩
/-- The bytes of an operand, with the rope-net stores that its core has made (R188, DESIGN CHOICE: log entry 86). -/
def opndData (s : State) (n : Nat) (d : W64) (len : Nat) : List Byte :=
  (s.banksAhead n (descOwner n d)).readBytes ((s.descAt n d).getD 0) len
/-- The write of a destination operand when the command completes: its bytes, its tag, and stamps (R99, R187). -/
def destWrite (s : State) (n : Nat) (d : W64) (data : List Byte) : CmdWrite :=
  .scratch (descOwner n d) ((s.descAt n d).getD 0) data (some (descTag d)) true
/-- A descriptor's format is one that a conversion takes. -/
def converts (d : W64) : Bool := descFmt d != some .raw
/-- A row of an operand's bytes as exact values, with the rope-net stores that its core has made (R41, R188, R196). -/
def operandRow (s : State) (n : Nat) (d : W64) (len K i : Nat) : List FVal :=
  decodeRow ((descFmt d).getD .raw) (descBlog d) K ((opndData s n d len).drop (i * rowBytes ((descFmt d).getD .raw) (descBlog d) K))

/-! ### Vitrine pages and lineage (R51–R62, R223–R226, R255–R262) -/

/-- The page that ga names. -/
def vitPage (s : State) (a : Reg) : VA := (s.g a).setWidth 56 &&& 0xFFFFFFFFFF0000
/-- The page passes the checks of R261: it translates, is VITRINE, and has the permission; there is a route to it (R342). -/
def VitOk (s : State) (a : Reg) (w : Bool) (e : Pte) : Prop :=
  let va := vitPage s a
  (va.toNat < 0xFFFFFFFF800000 ∨ 0xFFFFFFFFC00000 ≤ va.toNat ∧ va.toNat < 0xFFFFFFFFF00000) ∧ s.xlate s.asid va = some e ∧
    e.malformed = false ∧ s.physOk (e.pa va) = true ∧ (if w then e.wr else e.rd) = true ∧ e.cls = .vitrine ∧
    s.noRoute (e.pa va) = false
/-- The record of the page, and that of every other page as before. -/
def VitBecomes (s t : State) (va : VA) (r : Option VRec) : Prop :=
  t.vrec s.asid va = r ∧ ∀ k, k ≠ vitKey s.asid va → Table.find? k t.vit = Table.find? k s.vit
/-- The vitrine words, and whether they write. -/
inductive VitWords : Instr → Reg → Bool → Prop
  | vclaim st a : VitWords (.vclaim st a) a true
  | apnd st d a b : VitWords (.apnd st d a b) a true
  | tailset st a b : VitWords (.tailset st a b) a true
  | seal st a : VitWords (.seal st a) a true
  | vfree st a : VitWords (.vfree st a) a true
  | vtail st d a : VitWords (.vtail st d a) a false
/-- No `COPY.apnd` of the context is still to make its claim (R261). -/
def NoAppend (s : State) : Prop := ∀ c ∈ s.cmds, c.core = s.act.1 → c.ctx = s.act.2 → c.unclaimed = false
/-- The frame of a word that waits for a home: nothing but what it names, and its context, has changed. -/
def HomeWord (s t : State) : Prop :=
  AwaitsHome s t s.lat.home ∧ OthersSame s t ∧ t.locs = s.locs ∧ t.flights = s.flights ∧ t.cmds = s.cmds ∧ t.queue = s.queue ∧
    t.myCore.banks = s.myCore.banks
/-- The eight words at an address of the own scratch. -/
def Words8 (s : State) (va : VA) (w : Nat → W64) : Prop :=
  ∃ o, s.place s.act.1 .read va 64 = .scratch o ∧ Landed s o 64 ∧
    ∀ k, w k = if k < 8 then BitVec.ofNat 64 (cellsLE s.myCore.banks.bytes (o + 8 * k) 8) else 0
/-- A record at a physical address holds the words of a node. -/
def HoldsNode (t : State) (pa : Nat) (n : Node) : Prop := ∀ k, k < 8 → t.phys64 (pa + 8 * k) = n.word k
/-- The lineage words with the handles that they check (R51, R255). -/
inductive LineageWords : Instr → (State → List W64) → Prop
  | lroot st d a : LineageWords (.lroot st d a) (fun s => [s.g d])
  | fork st d a b : LineageWords (.fork st d a b) (fun s => [s.g d, s.g a])
  | flatten st d a : LineageWords (.flatten st d a) (fun s => [s.g a])
  | rebase st d a b : LineageWords (.rebase st d a b) (fun s => [s.g a, s.g b])
  | ldrop st a : LineageWords (.ldrop st a) (fun s => [s.g a])
  | linfo st d a b : LineageWords (.linfo st d a b) (fun s => [s.g a])
  | ldl st d a b : LineageWords (.ldl st d a b) (fun s => [s.g a])
/-- A handle of R51, with its record's place. -/
def Handle (s : State) (x : W64) (pa : Nat) : Prop :=
  let h := x.toNat % 2 ^ 32
  0 < h ∧ h < 2 ^ 24 ∧ h < s.nrec s.asid ∧ s.recPA s.asid h = some pa
/-- No old copy of a record is left at a die (R55, DESIGN CHOICE: log entry 84). -/
def NoOldRecords (s : State) : Prop := ∀ o ∈ s.provOld, o.until' ≤ s.now
/-- An entry of the reclamation ring of an identifier that is still to be written. -/
def ofRing (asid : Asid) : Ev → Bool
  | .reclamationEntryWrite a _ _ _ _ => a == asid
  | _ => false
/-- The pages that a rewrite claims and the records that it writes lie apart in memory, and no walk reads a table in them (R52, R259). -/
def RewriteApart (s : State) (asid : Asid) (run : List VA) (hs : List Nat) : Prop :=
  let areas : List (Nat × Nat) := run.filterMap (fun va => (s.walk asid va).map fun e => (e.pa va, 65536)) ++
    hs.filterMap fun h => (s.recPA asid h).map fun pa => (pa, 64)
  areas.Pairwise (fun a b => a.1 + a.2 ≤ b.1 ∨ b.1 + b.2 ≤ a.1) ∧
  ∀ m, (∀ x, (∀ a ∈ areas, x < a.1 ∨ a.1 + a.2 ≤ x) → cellGet m x = s.byte x) →
    State.pvBase { s with mem := m } asid = s.pvBase asid ∧ ∀ va, State.walk { s with mem := m } asid va = s.walk asid va
/-- A lineage fault with a code (R256). -/
def LineageFaults (i : Instr) (s : State) (code : Nat) : Prop := Traps i s ⟨if code = 11 then 0x0E else 0x0F, 0, BitVec.ofNat 64 code⟩

/-! ### The fabric (R301–R304, R341, R342) -/

/-- The transfers: their record, and whether they go to a group. -/
inductive XferWords : Instr → Stall → Reg → Bool → Prop
  | fput st a : XferWords (.fput st a) st a false
  | fget st a : XferWords (.fget st a) st a false
  | fmcast st a : XferWords (.fmcast st a) st a true
/-- A record of k words in the own scratch, every check of an access to it passed. -/
def RecordIn (s : State) (va : VA) (k : Nat) (w : Nat → W64) : Prop :=
  s.spaceStop s.act.1 .read false false va (8 * k) = none ∧ ∀ j, j < k →
    ∃ o, s.place s.act.1 .read (va + BitVec.ofNat 56 (8 * j)) 8 = .scratch o ∧ w j = BitVec.ofNat 64 (cellsLE s.myCore.banks.bytes o 8)
/-- A transfer record that R301 and R302 allow: LEN, and for `FMCAST` the group and its landing zone. -/
def XferOk (s : State) (m : Bool) (w : Nat → W64) : Prop :=
  (w 2).toNat % 16 = 0 ∧ 16 ≤ (w 2).toNat ∧ (w 2).toNat ≤ 1048576 ∧
    (m = true → (w 1).toNat / 2 ^ 32 % 2 ^ 16 = 0 ∧
      ∃ z, s.group ((w 1).toNat / 2 ^ 48) 3 = some z ∧ (w 1).toNat % 2 ^ 32 + (w 2).toNat ≤ z.toNat / 2 ^ 32)
/-- A descriptor that R303 allows. That a rope reduction's mask holds the issuer and the root is the model's reading (DEDUCED: log entry 43). -/
def RedOk (s : State) (op : ROp) (w : Nat → W64) : Prop :=
  let x := (w 0).toNat
  x / 2 ^ 48 % 2 ^ 14 = 0 ∧ x / 2 ^ 13 % 2 ^ 19 = 0 ∧ (w 1).toNat / 2 ^ 32 = 0 ∧ w 5 = 0 ∧ w 6 = 0 ∧ w 7 = 0 ∧
    1 ≤ x % 2 ^ 13 ∧ x % 2 ^ 13 ≤ (if op = .rsc then 4094 else 4096) ∧
    (x / 2 ^ 62 % 2 = 1 → x / 2 ^ 43 % 2 ^ 5 = 0 ∧ (w 0).getLsbD (32 + s.act.1 % 8) = true ∧ (w 0).getLsbD (32 + x / 2 ^ 40 % 8) = true) ∧
    (x / 2 ^ 62 % 2 = 0 → ∃ g, s.group (x / 2 ^ 32 % 2 ^ 16) 0 = some g ∧ g.getLsbD 62 = true)
/-- What a descriptor names: a rope with its mask and root, or a group; and the port of the issuer's own contribution. -/
def redNames (n : Nat) (x : W64) : RedKey × Option Nat :=
  if x.toNat / 2 ^ 62 % 2 = 1 then (.rope (n / 8) (BitVec.ofNat 8 (x.toNat / 2 ^ 32)) (x.toNat / 2 ^ 40 % 8), some (n % 8))
  else (.group (x.toNat / 2 ^ 32 % 2 ^ 16), none)
/-- The operators on one element (R304). -/
def redOp (op : ROp) (x y : W32) : W32 :=
  match op with
  | .addS32 => w32 (x.toNat + y.toNat)
  | .addF32 => (f32Add .rne x y).1
  | .minS32 => w32 (min x.toInt y.toInt)
  | .maxS32 => w32 (max x.toInt y.toInt)
  | .minF32 => (f32Min x y).1
  | .maxF32 => (f32Max x y).1
  | .rsc => x
/-- A range of physical addresses in whole words. -/
def InWords (pa n a : Nat) : Prop := pa / 8 * 8 ≤ a ∧ a < (pa + n + 7) / 8 * 8
/-- `n` bytes lie in one page that the access may use, and what is written to their words does not move their translation. -/
def OnePage (s : State) (asid : Asid) (va : VA) (n : Nat) (e : Pte) : Prop :=
  va.toNat % 65536 + n ≤ 65536 ∧ ∀ i, i < n →
    s.poisoned (e.pa va + i) = false ∧ e.pa (va + BitVec.ofNat 56 i) = e.pa va + i ∧
    (s.cached asid (va + BitVec.ofNat 56 i) = none ∨ s.cached asid (va + BitVec.ofNat 56 i) = some e) ∧
    ∀ m : List Host.Cell, (∀ a, ¬ InWords (e.pa va) n a → cellGet m a = s.byte a) →
      ({ s with mem := m } : State).walk asid (va + BitVec.ofNat 56 i) = some e
/-- A range of a core's scratch that a late write may still use (R367). -/
def ScratchOf (s : State) (n : Nat) (asid : Asid) (va : VA) (len o : Nat) : Prop :=
  (s.core n).on ≠ none ∧ (s.core n).asid = asid ∧ va.toNat = 0x00FFFFFFFFF01000 + o ∧ o + len ≤ (s.core n).banks.slen

/-! ### Tasks (R10–R24, R155, R156) -/

/-- A STATE word with a code, reserved bits zero (R10). -/
def stateWord (x : W64) (code : Nat) : W64 := (x &&& 0x000007FFFF013F00) ||| BitVec.ofNat 64 code
/-- A FAILED word with a REASON. -/
def failedWord (x : W64) (reason : Nat) : W64 := (x &&& 0x000007FF00013F00) ||| BitVec.ofNat 64 (reason * 2 ^ 24 + 6)
/-- A word of memory lies where its page says. -/
def InPlace (s : State) (asid : Asid) (va : VA) (e : Pte) : Prop :=
  va.toNat % 8 = 0 ∧ ∀ l, Table.find? (wordKey asid va) s.locs = some l → l.pa = e.pa va
/-- The words STATE and PREDS of a TCB lie where its page says. -/
def TcbAt (s : State) (asid : Asid) (tcb : VA) (e : Pte) : Prop :=
  tcb.toNat % 256 = 0 ∧ e.pa (tcb + 8) = e.pa tcb + 8 ∧ e.pa (tcb + 16) = e.pa tcb + 16 ∧ e.pa tcb % 8 = 0 ∧
    InPlace s asid (tcb + 8) e ∧ InPlace s asid (tcb + 16) e
/-- STATE and PREDS as the home holds them. -/
def stateAt (s : State) (asid : Asid) (tcb : VA) (e : Pte) : W64 := s.devRead asid (tcb + 8) 8 e
def predsAt (s : State) (asid : Asid) (tcb : VA) (e : Pte) : W64 := s.devRead asid (tcb + 16) 4 e
/-- No record counts a TCB. -/
def Uncounted (s : State) (asid : Asid) (tcb : VA) : Prop := ∀ r ∈ s.recs, r.asid = asid → tcb.toNat ∉ r.waiting
/-- A decrement at home (R12, R16, R19). -/
def Decremented (s t : State) (asid : Asid) (tcb : VA) (e : Pte) : Prop :=
  let n := predsAt s asid tcb e
  let x := stateAt s asid tcb e
  (n = 0 → stateAt t asid tcb e = x ||| 0x10000 ∧ predsAt t asid tcb e = 0 ∧ t.queues = s.queues) ∧
    (n ≠ 0 → predsAt t asid tcb e = n - 1 ∧
      (n = 1 → x.toNat % 256 = 1 → stateAt t asid tcb e = stateWord x 2 ∧
        (asid, tcb.toNat) ∈ (t.queueOf (x.toNat / 2 ^ 8 % 64)).ready) ∧
      (¬ (n = 1 ∧ x.toNat % 256 = 1) → stateAt t asid tcb e = x ∧ t.queues = s.queues))
/-- The compare-and-swap of a cancel, with its result (R12, R79). -/
def CancelSwap (s t : State) (asid : Asid) (tcb : VA) (e : Pte) (r : Nat) : Prop :=
  let x := stateAt s asid tcb e
  (x.toNat % 256 < 3 → r = 1 ∧ stateAt t asid tcb e = stateWord x 5 ∧ ∀ q, (asid, tcb.toNat) ∉ (t.queueOf q).ready) ∧
    (x.toNat % 256 = 3 → r = 2 ∧ t.mem = s.mem ∧ t.locs = s.locs ∧
      ∀ n j, s.slotWith asid tcb = some (n, j) → ((t.core n).slot j).cancel = true) ∧
    (3 < x.toNat % 256 → r = 0 ∧ t.mem = s.mem ∧ t.locs = s.locs)
/-- The words that act on a TCB. -/
inductive TcbWords : Instr → Stall → Reg → Prop
  | tdec st a : TcbWords (.tdec st a) st a
  | tcancel st d a : TcbWords (.tcancel st d a) st a
/-- A TCB's address passes the checks of R156. -/
def TcbOk (s : State) (x : W64) (e : Pte) : Prop :=
  let va : VA := x.setWidth 56
  x.toNat % 256 = 0 ∧ x.toNat / 2 ^ 56 = 0 ∧ inLocal va = false ∧ inRope va = false ∧ s.xlate s.asid va = some e ∧
    e.malformed = false ∧ s.physOk (e.pa va) = true ∧ e.wr = true ∧ isRemote (e.pa va) = false ∧ e.cls = .normal
/-- Every engine command of the acting context has started. -/
def AllStarted (s : State) : Prop := ∀ c ∈ s.cmds, c.core = s.act.1 → c.ctx = s.act.2 → c.phase ≠ .waiting
/-- Nothing is due in this cycle before words. -/
def NoneDue (s : State) : Prop := ∀ e ∈ s.queue, s.now < e.1
/-- A task has left core n and slot j: nothing of it is left (R106, R155, R310). -/
def Vacated (t : State) (n j : Nat) : Prop :=
  (t.core n).on = none ∧ (t.core n).live = [] ∧ (t.core n).failing = none ∧ ((t.core n).slot j).v = false ∧
    (∀ l, (t.rope (n / 8)).lease = some l → l.core ≠ n) ∧ (t.core n).active.ladder = none ∧
    (∀ c ∈ t.cmds, c.core = n → c.bind ≠ ((t.core n).slot j).bind) ∧ ∀ f ∈ t.flights, f.core ≠ n
/-- A page fault parks the acting context at its word, and nothing else changes (R314). -/
def ParksAt (i : Instr) (s : State) (x : W64) (w : Bool) : Prop :=
  ∃ t, exec i s = .next t ∧ t.me.park = .pageFault s.asid x w ∧ t.me.pc = s.me.pc ∧ s.me.SameRegs t.me ∧ SameWorld s t
/-- A word that the device may write for a record (R24). -/
def ObjectOk (s : State) (asid : Asid) (x : W64) (e : Pte) : Prop :=
  let va : VA := x.setWidth 56
  x.toNat / 2 ^ 56 = 0 ∧ s.walk asid va = some e ∧ e.malformed = false ∧ s.physOk (e.pa va) = true ∧ e.wr = true ∧
    s.poisoned (e.pa va) = false ∧ e.cls = .normal ∧ InPlace s asid va e

/-! ### Failure, the handler and the switch (R305–R331, R336) -/

/-- A core fails its task: no word issues until TASK_FAILURE, which is to come (R306, R310). -/
def FailsOn (s t : State) (n reason : Nat) : Prop :=
  match (s.core n).failing with
  | some r => (t.core n).failing = some r
  | none => (t.core n).failing = some reason ∧ (s.now + s.lat.fail, Ev.taskFailure n) ∈ t.queue
/-- A failure that no trap brings: its drain begins in the next cycle, or with the handler running its last step follows (R308, R310, R332). -/
def FailsTask (s t : State) (n reason : Nat) : Prop :=
  match (s.core n).failing with
  | some r => (t.core n).failing = some r
  | none => (t.core n).failing = some reason ∧
      (s.now + (if (s.core n).inHM = true ∨ (s.core n).halted ≠ none then s.lat.fail else 1), Ev.taskFailure n) ∈ t.queue
/-- A core enters halted-fault with a cause, and the task on it fails with that cause (R313). -/
def HaltsOn (s t : State) (n cause : Nat) : Prop :=
  (t.core n).halted = some cause ∧ (t.core n).failing = some cause ∧
    ((s.core n).failing = none → (s.now + s.lat.fail, Ev.taskFailure n) ∈ t.queue)
/-- The report ring has no room (R336). -/
def RingFull (s : State) : Prop := 2 ^ (s.regs.crlog.toNat % 16) ≤ (s.regs.crhead - s.regs.crtail).toNat
/-- A report record is written and CRHEAD advances, or the report is dropped (R336). -/
def Reported (s t : State) (kind code q : Nat) (taskid : W32) (epc loc : W64) : Prop :=
  let pa := s.regs.crbase.toNat + 32 * (s.regs.crhead.toNat % 2 ^ (s.regs.crlog.toNat % 16))
  (RingFull s → t.regs.crdrop = true ∧ t.regs.crhead = s.regs.crhead ∧ ∀ a, t.byte a = s.byte a) ∧
    (¬ RingFull s → t.phys64 pa = w64 (kind * 2 ^ 56 + code % 256 * 2 ^ 48 + q % 64 * 2 ^ 42 + taskid.toNat : Nat) ∧
      t.phys64 (pa + 8) = epc ∧ t.phys64 (pa + 16) = loc ∧ t.phys64 (pa + 24) = w64 s.now ∧ t.regs.crhead = s.regs.crhead + 1 ∧
      (s.regs.crvec.toNat % 2 ^ 16 < 16 → (64, s.regs.crvec.toNat % 2 ^ 16) ∈ t.msix) ∧ ∀ a, a < pa ∨ pa + 32 ≤ a → t.byte a = s.byte a)
/-- Bits 25:0 of COORD of a core. -/
def placeOf (s : State) (n : Nat) : W64 := w64 (s.regs.fabid.toNat % 1024 * 2 ^ 16 + n / 384 % 4 * 2 ^ 9 + n / 8 % 48 * 2 ^ 3 + n % 8)
/-- A context is saved as R318 says: from its CairnImage, or with its present registers; `d` is the set. -/
def SavedAs (c d : Ctx) : Prop :=
  let keep := c.cairnV = false ∨ (∃ a b g, c.park = .belay a b g) ∨ (∃ a b w, c.park = .pageFault a b w) ∨ c.replay ≠ []
  (keep → c.SameRegs d ∧ d.mshape = c.mshape) ∧
    (¬ keep → ∀ i, c.image = some i → d.g = i.g ∧ d.v = i.v ∧ d.p = i.p ∧ d.mshape = i.mshape ∧ d.hg = c.hg) ∧
    d.pc = c.pc ∧ d.park = c.park ∧ d.cairnpc = c.cairnpc ∧ d.rmode = c.rmode ∧ d.cause = c.cause ∧ d.epc = c.epc ∧
    d.faddr = c.faddr ∧ d.finfo = c.finfo ∧ d.fseq = c.fseq
/-- Context 0 as it was stopped, with the registers that the handler left in it. -/
def Ctx.stoppedAs (c : Ctx) (st : Option Ctx) : Ctx := match st with | some t => { c with pc := t.pc, park := t.park, replay := t.replay } | none => c
/-- Bytes of the selected register sets and 512 (R318, R330). -/
def maskBytes (x : W64) : Nat :=
  (if x.getLsbD 0 then 2496 else 0) + 928 * ((List.range 11).filter fun k => k != 0 && x.getLsbD k).length + 512
/-- Where the register set of a context begins in bank 19, its vector registers and its predicates (R318). -/
def setAt (k : Nat) : Nat := if k = 0 then 0 else 0x9C0 + 0x3A0 * (k - 1)
def setVecs (k : Nat) : Nat := if k = 0 then 32 else 8
def setPreds (k : Nat) : Nat := if k = 0 then 8 else 4
/-- A 64-bit word of the save bank lies in the task area or in a set of a mask. -/
def InSets (x : W64) (w : Nat) : Prop :=
  0x2E00 ≤ 8 * w ∧ 8 * w < 0x3000 ∨ ∃ k, k < 11 ∧ x.getLsbD k = true ∧ setAt k ≤ 8 * w ∧ 8 * w < setAt k + (if k = 0 then 2496 else 928)
/-- The registers of a set stand in the save bank, at 311,296 of the banks' bytes (R318). -/
def SetStands (m : List Host.Cell) (k : Nat) (c : Ctx) : Prop :=
  let base := 311296 + setAt k
  (∀ r : Fin 32, cellsLE m (base + 8 * r.val) 8 = (c.g.get r).toNat) ∧
    (∀ (r : Fin 32) (j : Fin 16), r.val < setVecs k → cellsLE m (base + 256 + 64 * r.val + 4 * j.val) 4 = ((c.v.get r).get j).toNat) ∧
    ∀ q : Nat, q < setPreds k → cellsLE m (base + 256 + 64 * setVecs k + 8 * q) 8 = (c.pget (BitVec.ofNat 3 q)).toNat
/-- An image whose words are marked uncorrectable beside those that were (R326). -/
def Spoilt (o p : Option Image) (bad : Nat → Prop) : Prop :=
  (o = none → p = none) ∧ ∀ i, o = some i → ∃ j, p = some j ∧ j = { i with bad := j.bad } ∧ ∀ w, w ∈ j.bad ↔ w ∈ i.bad ∨ bad w
/-- The words of a granule of the save bank. -/
def GranuleWord (g w : Nat) : Prop := 608 ≤ g ∧ g < 640 ∧ 64 * (g - 608) ≤ w ∧ w < 64 * (g - 608) + 64
/-- The words of handler mode. -/
inductive HandlerWords : Instr → Prop
  | ctxsv st a : HandlerWords (.ctxsv st a)
  | ctxld st a : HandlerWords (.ctxld st a)
  | bxch st : HandlerWords (.bxch st)
  | cresume st : HandlerWords (.cresume st)
/-- The bivouac store is ready for the exchange (R320, R321): it holds the task that comes in, or is empty where a first start, or
nothing, comes in; with nothing on the core and nothing coming in it keeps what it holds. -/
def ExchangeReady (s : State) (n : Nat) : Prop :=
  match s.comingIn n, (s.core n).biv with
  | some (j, x), some b => x.ctxloc ≠ 3 ∧ b.slot = j
  | some (_, x), none => x.ctxloc = 3
  | none, some _ => (s.core n).on = none
  | none, none => True
/-- Banks as `BXCH` writes them back into a core: every granule that is not stale is stamped (R320). -/
def Restamped (old new : Banks) (tick : BitVec 16) : Prop :=
  new.bytes = old.bytes ∧ new.tags = old.tags ∧ new.spcfg = old.spcfg ∧
    (∀ g, new.granAt g = if (old.granAt g).exp then old.granAt g else { old.granAt g with stamp := tick }) ∧
    ∀ k, (new.fifoAt k).map (·.val) = (old.fifoAt k).map (·.val)
/-- Banks as they leave a core: stale granules keep EXP (R102). -/
def Kept (old new : Banks) (tick : BitVec 16) : Prop :=
  new.bytes = old.bytes ∧ new.tags = old.tags ∧ new.spcfg = old.spcfg ∧ new.fifo = old.fifo ∧
    ∀ g, new.granAt g = if (old.granAt g).exp ∨ 60 < (tick - (old.granAt g).stamp).toNat then { old.granAt g with exp := true } else old.granAt g
/-- A granule that `SPKEEP` names, clipped to S (R321, R322). -/
def KeptGranule (i : Image) (g : Nat) : Prop :=
  i.area.spkeep.toNat % 1024 ≤ g ∧ g < i.area.spkeep.toNat % 1024 + i.area.spkeep.toNat / 2 ^ 32 % 1024 ∧ g < (i.banks.slen + 511) / 512

/-! ### Launch (R20–R25, R70–R79, R90, R93) -/

/-- The fields of CFG. -/
def cfgField (b : QBlock) (lo w : Nat) : Nat := b.cfg.toNat / 2 ^ lo % 2 ^ w
/-- A launch record that R21 and R72 allow, by its eight words. -/
def RecOk (b : QBlock) (w : Nat → W64) : Prop :=
  let x := (w 0).toNat
  1 ≤ x % 256 ∧ x % 256 ≤ 3 ∧ x / 2 ^ 8 % 256 < 4 ∧ x / 2 ^ 32 = 0 ∧
    (x % 256 = 3 → x / 2 ^ 16 % 2 ^ 16 = 0) ∧ (x % 256 ≠ 3 → 1 ≤ x / 2 ^ 16 % 2 ^ 16 ∧ x / 2 ^ 16 % 2 ^ 16 ≤ 4096) ∧
    cfgField b 38 13 ≤ (w 2).toNat ∧ (w 2).toNat ≤ cfgField b 51 13 ∧ (w 5).toNat < 64 ∧ w 6 = 0 ∧ w 7 = 0 ∧
    (w 1).toNat % 256 = 0 ∧ (w 1).toNat / 2 ^ 56 = 0
/-- The queue's next record, as it lies in identifier ASIDLO (R71). -/
def NextRecord (s : State) (q : Nat) (w : Nat → W64) : Prop :=
  let b := s.queueOf q
  b.en = true ∧ b.err = 0 ∧ b.qhead ≠ b.seen ∧ ∀ k, k < 8 →
    s.devGet (BitVec.ofNat 13 (cfgField b 38 13)) (b.qbase.setWidth 56 + BitVec.ofNat 56 (64 * (b.qhead.toNat % 2 ^ cfgField b 0 5)) + BitVec.ofNat 56 (8 * k)) 8 =
      some (w k)
/-- A queue has taken ERR, and raised ERRVEC, unless it had an error. -/
def TakesError (s t : State) (q code : Nat) : Prop :=
  ((s.queueOf q).err = 0 → (t.queueOf q).err.toNat = code ∧
    ((s.queueOf q).errvec.toNat < 64 → (s.func (cfgField (s.queueOf q) 32 6)).masked = false → cfgField (s.queueOf q) 32 6 ∉ s.flr →
      (cfgField (s.queueOf q) 32 6, (s.queueOf q).errvec.toNat) ∈ t.msix)) ∧
    ((s.queueOf q).err ≠ 0 → (t.queueOf q).err = (s.queueOf q).err)
/-- The queue goes on to its next record. -/
def Polls (s t : State) (q : Nat) : Prop :=
  ∃ e, (e = Ev.submitRecord q ∨ e = Ev.cancelRecord q ∨ e = Ev.markerRecord q) ∧ (s.now + s.lat.home, e) ∈ t.queue
/-- A configuration that may not be enabled (R72). -/
def ConfigBad (s : State) (b : QBlock) : Prop :=
  let f := s.func (cfgField b 32 6)
  16 < cfgField b 0 5 ∨ cfgField b 51 13 < cfgField b 38 13 ∨ cfgField b 38 13 < f.w18.toNat / 2 ^ 38 % 2 ^ 13 ∨
    f.w18.toNat / 2 ^ 51 < cfgField b 51 13 ∨ ∃ r, r < 192 ∧ b.qmask.getLsbD r = true ∧ f.fropes.getLsbD r = false
/-- The checks of R20, in its order, on the words of a TCB. -/
def LaunchCheck (s : State) (b : QBlock) (asid : Asid) (tcb : VA) (k : Nat) : Prop :=
  let w := s.tcbWord asid tcb
  let x := (w 0x38).toNat
  match k with
  | 0 => x / 2 ^ 45 % 2 ^ 12 = 0 ∧ ∀ i, i < 8 → w (0xC0 + 8 * i) = 0
  | 1 => (w 0).toNat % 4 = 0 ∧ (w 0).toNat / 2 ^ 56 = 0
  | 2 =>
    let id := x / 2 ^ 32 % 2 ^ 13
    cfgField b 38 13 ≤ id ∧ id ≤ cfgField b 51 13 ∧ (s.idWord (BitVec.ofNat 13 id) 8).getLsbD 63 = true ∧
      (s.idWord (BitVec.ofNat 13 id) 8).toNat / 2 ^ 57 % 64 = cfgField b 32 6
  | 3 => ∃ r, r < 192 ∧ b.qmask.getLsbD r = true ∧ (s.tcbRopes asid tcb).getLsbD r = true
  | 4 => x % 2 ^ 32 ≤ 294912
  | 5 => ∀ i, i < 8 → (w (0x48 + 16 * i)).toNat < 2 ^ 40 ∧ (w (0x48 + 16 * i) ≠ 0 → ∃ f, descFmt (w (0x40 + 16 * i)) = some f)
  | 6 => w 0x18 = 0 ∨ (w 0x18).toNat % 8 = 0 ∧ (w 0x18).toNat / 2 ^ 56 = 0
  | 7 => b.cfg.getLsbD (16 + x / 2 ^ 57 % 16) = true
  | _ => True
/-- A core that may take a bind. -/
def MayTake (s : State) (m : BitVec 192) (n : Nat) : Prop :=
  n < 1536 ∧ m.getLsbD (n / 8) = true ∧ (s.core n).halted = none ∧ ∃ j, j < 11 ∧ ((s.core n).slot j).v = false
/-- A queue with ready work and a core for it (R73). -/
def Servable (s : State) (q : Nat) : Prop := (s.queueOf q).ready ≠ [] ∧ ∃ n, MayTake s (s.queueOf q).qmask n
/-- Places after the queue served last. -/
def turnOf (s : State) (q : Nat) : Nat := (q + 64 - (s.served + 1) % 64) % 64
/-- A STATE word that the bind writes: BOUND with BCORE (R10, R75). -/
def boundWord (x : W64) (n : Nat) : W64 :=
  (x &&& 0xFF013F00) ||| w64 (3 + (n / 384 % 4 * 2 ^ 9 + n / 8 % 48 * 2 ^ 3 + n % 8) * 2 ^ 32 : Nat)
/-- The slot that R77 prefers of two. -/
def Preferred (j : Nat) (t : Slot) (i : Nat) (u : Slot) : Prop :=
  u.prio < t.prio ∨ u.prio = t.prio ∧ (t.ctxloc < u.ctxloc ∨ t.ctxloc = u.ctxloc ∧ j ≤ i)
/-- EPRIO (R78). -/
def eprioOf (b : QBlock) (age : Nat) : Nat :=
  if cfgField b 8 8 = 0 then cfgField b 5 3 else min 7 (cfgField b 5 3 + age / cfgField b 8 8)

/-! ### Time, upkeep and the device (R80–R85, R98–R101, R215, R219, R227–R232, R326, R336–R343) -/

/-- The dirty bytes of the words that `p` names reach memory and those words are clean; every other word is as it was (R217). -/
def CarriedHome (s t : State) (p : Nat → Prop) : Prop :=
  (∀ e ∈ t.locs, p e.1 → e.2.dirty = 0) ∧ (∀ e ∈ s.locs, ¬ p e.1 → e ∈ t.locs) ∧
    ∀ e ∈ s.locs, p e.1 → (∀ d ∈ s.locs, d.2.pa % 8 = 0 ∧ (d.2.pa = e.2.pa → d = e)) → t.phys64 e.2.pa = s.overlay e.2
/-- The words of a line of 128 bytes, and of a page of 64 KiB · 2^k. -/
def InLine (asid : Asid) (line key : Nat) : Prop := key / 2 ^ 53 = asid.toNat ∧ key % 2 ^ 53 / 16 = line
def InPage (asid : Asid) (va : VA) (k key : Nat) : Prop := key / 2 ^ 53 = asid.toNat ∧ key % 2 ^ 53 / 2 ^ (13 + k) = va.toNat / 2 ^ (16 + k)
/-- Two words are written at an address of physical memory, and nothing else of memory. -/
def PairWritten (s t : State) (pa : Nat) (x y : W64) : Prop :=
  t.phys64 pa = x ∧ t.phys64 (pa + 8) = y ∧ ∀ a, a < pa ∨ pa + 16 ≤ a → t.byte a = s.byte a
/-- No word of a cache lies in a range of physical memory. -/
def NoneCachedAt (s : State) (pa n : Nat) : Prop := ∀ e ∈ s.locs, e.2.pa + 8 ≤ pa ∨ pa + n ≤ e.2.pa
/-- A function may not start an invalidation for the identifier in XASID (R215). -/
def NotItsRange (s : State) (func : Option (BitVec 6)) : Prop :=
  ∃ f, func = some f ∧ (s.regs.xreg.toNat % 2 ^ 13 < (s.func f.toNat).w18.toNat / 2 ^ 38 % 2 ^ 13 ∨
    (s.func f.toNat).w18.toNat / 2 ^ 51 < s.regs.xreg.toNat % 2 ^ 13)
/-- The next request of the migration ring, in order (R228): its place and its words. -/
def NextRequest (s : State) (pa : Nat) (va : VA) (w : W64) (new : Nat) : Prop :=
  s.regs.migctl.getLsbD 63 = true ∧ s.regs.mighead ≠ s.regs.migtail ∧
    pa = s.regs.migbase.toNat + 32 * (s.regs.mighead.toNat % 2 ^ (s.regs.migctl.toNat % 16)) ∧
    va = (s.phys64 pa).setWidth 56 ∧ w = s.phys64 (pa + 8) ∧ new = (s.phys64 (pa + 16)).toNat
/-- A request has been answered: MSTAT, MIGHEAD and MIGVEC; and the ring goes on. -/
def Answered (s t : State) (pa stat : Nat) : Prop :=
  t.phys64 (pa + 24) = w64 stat ∧ t.regs = { s.regs with mighead := s.regs.mighead + 1 } ∧
    (s.regs.migctl.toNat / 2 ^ 32 % 2 ^ 16 < 16 → (64, s.regs.migctl.toNat / 2 ^ 32 % 2 ^ 16) ∈ t.msix) ∧
    (s.regs.mighead + 1 ≠ s.regs.migtail → (s.now + s.lat.copy, Ev.migrationRequest) ∈ t.queue)
/-- Two ranges of memory do not meet. -/
def Apart (a n b m : Nat) : Prop := a + n ≤ b ∨ b + m ≤ a
/-- A page of NORMAL memory of 64 KiB that the request's words name. -/
def Moves (e : Pte) : Prop := e.malformed = false ∧ e.cls = .normal ∧ e.sz = 0
/-- What decides the status of a request that fails, in the order of R228 and R229. -/
def MigFails (w : W64) (e? : Option Pte) (stat : Nat) : Prop :=
  let mode := w.toNat / 2 ^ 62
  let fmt := fun (b : Nat) => tagged (w64 (w.toNat / 2 ^ b % 256 * 2 ^ 56 : Nat))
  (stat = 3 ∧ ∀ e, e? = some e → ¬ Moves e) ∨ ∃ e, e? = some e ∧ Moves e ∧ ((stat = 2 ∧ e.mig ≠ 0) ∨ (e.mig = 0 ∧ mode = 2 ∧
    ((stat = 4 ∧ e.wr = true) ∨ (stat = 5 ∧ e.wr = false ∧ (fmt 8 = none ∨ fmt 0 = none)))))
/-- The pages that an entry of the retirement list names (R230); which lines an HBM row holds is free (DESIGN CHOICE: log entry 29). -/
def EntryPage (x : W64) (p : Nat) : Prop :=
  (x.toNat / 2 ^ 60 = 0 ∧ ∃ l ∈ Config.rowLines x, p = l / 512) ∨
    (x.toNat / 2 ^ 60 = 1 ∧ p = 2 ^ 24 * (1 + x.toNat / 2 ^ 56 % 16) + x.toNat % 2 ^ 40 % 2 ^ 24)
/-- A base that R231 refuses. -/
def BaseBad (x : W64) : Prop := x.toNat % 64 ≠ 0 ∨ 2 ^ 39 ≤ x.toNat

/-- The size exponent of the page that an invalidation covers: the greatest of the table's and the cached translations. -/
def SizeAt (s : State) (asid : Asid) (va : VA) (z : Nat) : Prop :=
  let here := fun (y : Nat) => (∃ e, s.walk asid va = some e ∧ e.sz = y) ∨
    ∃ x ∈ s.tlb, x.asid = asid ∧ (Pte.mk x.pte x.w0 x.w8).covers va = true ∧ (Pte.mk x.pte x.w0 x.w8).sz = y
  (∀ y, here y → y ≤ z) ∧ (z = 0 ∨ here z)
/-- The entry and the lines that a retirement at an address names (R230, R232; log entries 29 and 73). -/
def RowAt (pa : Nat) (e : W64) (ls : List Nat) : Prop :=
  (pa < 2 ^ 39 ∧ e = Config.rowOf pa ∧ ls = pa / 128 :: Config.rowLines e) ∨
    (2 ^ 40 ≤ pa ∧ pa < 5 * 2 ^ 40 ∧ e = w64 (2 ^ 60 + (pa / 2 ^ 40 - 1) * 2 ^ 56 + pa % 2 ^ 40 / 2 ^ 16 : Nat) ∧
      ls = (List.range 512).map fun i => pa / 65536 * 512 + i)
/-- A row is retired at run time: its lines are poisoned, and its entry is appended where the page list has room. -/
def RowRetired (s u : State) (e : W64) (ls : List Nat) : Prop :=
  let n := s.regs.plcount.toNat
  (∀ l, l ∈ u.poison ↔ l ∈ ls ∨ l ∈ s.poison) ∧ u = { s with mem := u.mem, poison := u.poison, ecc := u.ecc, regs := u.regs } ∧
    (n < s.regs.plcap.toNat % 2 ^ 32 → u.regs = { s.regs with plcount := s.regs.plcount + 1 } ∧ u.phys64 (s.regs.plbase.toNat + 8 * n) = e ∧
      ∀ a, a < s.regs.plbase.toNat + 8 * n ∨ s.regs.plbase.toNat + 8 * n + 8 ≤ a → u.byte a = s.byte a) ∧
    (s.regs.plcap.toNat % 2 ^ 32 ≤ n → u.regs = s.regs ∧ u.mem = s.mem)
/-- A granule is poisoned: of scratch and of the save bank by its own mark, of a FIFO bank by the 64 entries that lie in it (R326). -/
def GranuleBad (b d : Banks) (g : Nat) : Prop :=
  d = { b with gran := d.gran, fifo := d.fifo } ∧ (∀ h, h ≠ g → d.granAt h = b.granAt h) ∧
    (512 * g < b.slen ∨ b.role (g / 32) = 3 → d.granAt g = { b.granAt g with poison := true } ∧ d.fifo = b.fifo) ∧
    (b.slen ≤ 512 * g → b.role (g / 32) ≠ 3 → d.gran = b.gran ∧ (∀ k, k ≠ g / 32 → d.fifoAt k = b.fifoAt k) ∧ (d.fifoAt (g / 32)).length = (b.fifoAt (g / 32)).length ∧
      ∀ i x, (b.fifoAt (g / 32))[i]? = some x →
        (d.fifoAt (g / 32))[i]? = some (if b.role (g / 32) = 2 ∧ i / 64 = g % 32 then { x with bad := true } else x))

/-- A firmware header that R338 does not allow (with DEDUCED: log entry 64 for its base). -/
def HeaderBad (s : State) : Prop :=
  let pa := s.regs.fwbase.toNat
  pa % 65536 ≠ 0 ∨ s.phys pa 4 ≠ 0x46574E58 ∨ s.phys (pa + 8) 4 % 64 ≠ 0 ∨ 2 ^ 24 < s.phys (pa + 8) 4 ∨ s.phys (pa + 8) 4 ≤ s.phys (pa + 12) 4 ∨
    s.phys (pa + 8) 4 < s.phys (pa + 16) 4 + 8192 ∨ s.phys (pa + 20) 44 ≠ 0
/-- A halted core holds nothing (R81, R82). -/
def Wiped (t : State) (n : Nat) : Prop :=
  let c := t.core n
  c.on = none ∧ c.ctxs = [] ∧ c.banks = Banks.init ∧ c.lines = [] ∧ c.active = Pair.init ∧ c.save = none ∧ c.failing = none ∧ c.halted = none ∧
    c.check = 0 ∧ c.wstat = 0 ∧ c.guardrec = 0 ∧ c.utvec = 0 ∧ c.utmask = 0 ∧ c.spkeep = 0 ∧ c.resinfo = 0 ∧ (∀ l, (t.rope (n / 8)).lease = some l → l.core ≠ n) ∧ ∀ f ∈ t.flights, f.core ≠ n
/-- The plain registers of the physical function, with the bits that are not reserved. -/
inductive HostReg : Nat → (HostRegs → W64) → W64 → Prop
  | idtbase : HostReg 0x100 (·.idtbase) 0xFFFFFFFFFFFFFFFF
  | heatbase : HostReg 0x180 (·.heatbase) 0xFFFFFFFFFFFFFFFF
  | heatctl : HostReg 0x188 (·.heatctl) 0x800000000000001F
  | migbase : HostReg 0x300 (·.migbase) 0xFFFFFFFFFFFFFFFF
  | migctl : HostReg 0x310 (·.migctl) 0x8000FFFF0000000F
  | rlbase : HostReg 0x400 (·.rlbase) 0xFFFFFFFFFFFFFFFF
  | rlcount : HostReg 0x408 (·.rlcount) 0xFFFFFFFFFFFFFFFF
  | plbase : HostReg 0x410 (·.plbase) 0xFFFFFFFFFFFFFFFF
  | plcap : HostReg 0x428 (·.plcap) 0xFFFFFFFF
  | fwbase : HostReg 0x500 (·.fwbase) 0xFFFFFFFFFFFFFFFF
  | attbuf : HostReg 0x580 (·.attbuf) 0xFFFFFFFFFFFFFFFF
  | fabid : HostReg 0x600 (·.fabid) 0x3FF
  | gtbase : HostReg 0x608 (·.gtbase) 0xFFFFFFFFFFFFFFFF
  | gtlog : HostReg 0x610 (·.gtlog) 0x1F
  | pwrcap : HostReg 0x700 (·.pwrcap) 0xFFF
  | crbase : HostReg 0x800 (·.crbase) 0xFFFFFFFFFFFFFFFF
  | crlog : HostReg 0x808 (·.crlog) 0xF
  | crvec : HostReg 0x818 (·.crvec) 0xFFFF

/-! ### Steps -/

/-- The instruction of the table that an event is. -/
inductive EvIs : Ev → Instr → Prop
  | hostRegisterWrite t size val : EvIs (.hostRegisterWrite t size val) (.hostRegisterWrite t size val)
  | qtailWrite q v : EvIs (.qtailWrite q v) (.qtailWrite q v)
  | queueEnable q en : EvIs (.queueEnable q en) (.queueEnable q en)
  | queueClear q : EvIs (.queueClear q) (.queueClear q)
  | submitRecord q : EvIs (.submitRecord q) (.submitRecord q)
  | cancelRecord q : EvIs (.cancelRecord q) (.cancelRecord q)
  | markerRecord q : EvIs (.markerRecord q) (.markerRecord q)
  | recordSettle id : EvIs (.recordSettle id) (.recordSettle id)
  | curatorBind core slot start delay spill : EvIs (.curatorBind core slot start delay spill) (.curatorBind core slot start delay spill)
  | dispatchBind core slot : EvIs (.dispatchBind core slot) (.dispatchBind core slot)
  | dispatchStart core slot : EvIs (.dispatchStart core slot) (.dispatchStart core slot)
  | dispatchSelect core : EvIs (.dispatchSelect core) (.dispatchSelect core)
  | preemptTake core : EvIs (.preemptTake core) (.preemptTake core)
  | handlerEntry core ctx ent : EvIs (.handlerEntry core ctx ent) (.handlerEntry core ctx ent)
  | taskFailure core : EvIs (.taskFailure core) (.taskFailure core)
  | impreciseFaultTaken core ctx : EvIs (.impreciseFaultTaken core ctx) (.impreciseFaultTaken core ctx)
  | ageInterval : EvIs (.ageInterval) (.ageInterval)
  | tick : EvIs (.tick) (.tick)
  | watchdogExpiry core slot : EvIs (.watchdogExpiry core slot) (.watchdogExpiry core slot)
  | granuleCheckerVisit core g : EvIs (.granuleCheckerVisit core g) (.granuleCheckerVisit core g)
  | cacheLineSweep core asid line : EvIs (.cacheLineSweep core asid line) (.cacheLineSweep core asid line)
  | cacheLineExpire core asid line : EvIs (.cacheLineExpire core asid line) (.cacheLineExpire core asid line)
  | fifoEntrySpill core bank : EvIs (.fifoEntrySpill core bank) (.fifoEntrySpill core bank)
  | leaseGrant rope : EvIs (.leaseGrant rope) (.leaseGrant rope)
  | leaseRunEnd rope granted : EvIs (.leaseRunEnd rope granted) (.leaseRunEnd rope granted)
  | engineCommandStart core id : EvIs (.engineCommandStart core id) (.engineCommandStart core id)
  | retryResume core ctx : EvIs (.retryResume core ctx) (.retryResume core ctx)
  | engineCommandComplete core id : EvIs (.engineCommandComplete core id) (.engineCommandComplete core id)
  | copyComplete core id : EvIs (.copyComplete core id) (.copyComplete core id)
  | boundedWaitExpiry core ctx token : EvIs (.boundedWaitExpiry core ctx token) (.boundedWaitExpiry core ctx token)
  | wfeTimeout core ctx token : EvIs (.wfeTimeout core ctx token) (.wfeTimeout core ctx token)
  | loadAnswered id : EvIs (.loadAnswered id) (.loadAnswered id)
  | storePerformed id : EvIs (.storePerformed id) (.storePerformed id)
  | atomicPerformed id : EvIs (.atomicPerformed id) (.atomicPerformed id)
  | predsDecrement asid tcb pa : EvIs (.predsDecrement asid tcb pa) (.predsDecrement asid tcb pa)
  | pageReclassify asid va : EvIs (.pageReclassify asid va) (.pageReclassify asid va)
  | pageFaultAnswer who pte w0 w8 : EvIs (.pageFaultAnswer who pte w0 w8) (.pageFaultAnswer who pte w0 w8)
  | pageFaultDenial who : EvIs (.pageFaultDenial who) (.pageFaultDenial who)
  | xlatInvalidatePage func : EvIs (.xlatInvalidatePage func) (.xlatInvalidatePage func)
  | xlatInvalidateAll func : EvIs (.xlatInvalidateAll func) (.xlatInvalidateAll func)
  | xlatInvalidateComplete : EvIs (.xlatInvalidateComplete) (.xlatInvalidateComplete)
  | migrationRequest : EvIs (.migrationRequest) (.migrationRequest)
  | heatHalve : EvIs (.heatHalve) (.heatHalve)
  | heatArrayWrite die : EvIs (.heatArrayWrite die) (.heatArrayWrite die)
  | rlctlGo : EvIs (.rlctlGo) (.rlctlGo)
  | retirementListLoad : EvIs (.retirementListLoad) (.retirementListLoad)
  | memoryEccError pa uncorrectable : EvIs (.memoryEccError pa uncorrectable) (.memoryEccError pa uncorrectable)
  | uncorrectableError site : EvIs (.uncorrectableError site) (.uncorrectableError site)
  | vitrineDataWritten asid page claim : EvIs (.vitrineDataWritten asid page claim) (.vitrineDataWritten asid page claim)
  | recallAck asid page holder : EvIs (.recallAck asid page holder) (.recallAck asid page holder)
  | ropeNetStoreArrival core ends bytes : EvIs (.ropeNetStoreArrival core ends bytes) (.ropeNetStoreArrival core ends bytes)
  | seqsetTagWrite core task slot tag : EvIs (.seqsetTagWrite core task slot tag) (.seqsetTagWrite core task slot tag)
  | queueEntryArrival core task q val : EvIs (.queueEntryArrival core task q val) (.queueEntryArrival core task q val)
  | messageDelivery core taskid asid val fromCore fromCtx token : EvIs (.messageDelivery core taskid asid val fromCore fromCtx token) (.messageDelivery core taskid asid val fromCore fromCtx token)
  | eventSignalArrival core asid : EvIs (.eventSignalArrival core asid) (.eventSignalArrival core asid)
  | belayArrival node expect child word : EvIs (.belayArrival node expect child word) (.belayArrival node expect child word)
  | belayRelease node : EvIs (.belayRelease node) (.belayRelease node)
  | fabricLanding head off data : EvIs (.fabricLanding head off data) (.fabricLanding head off data)
  | fabricTransferComplete id : EvIs (.fabricTransferComplete id) (.fabricTransferComplete id)
  | reductionPartialArrival key seq port op elems vals bad : EvIs (.reductionPartialArrival key seq port op elems vals bad) (.reductionPartialArrival key seq port op elems vals bad)
  | reductionOutcomeArrival key seq bad res : EvIs (.reductionOutcomeArrival key seq bad res) (.reductionOutcomeArrival key seq bad res)
  | remoteAccessTimeout id : EvIs (.remoteAccessTimeout id) (.remoteAccessTimeout id)
  | fabricLinkChange port up pkg : EvIs (.fabricLinkChange port up pkg) (.fabricLinkChange port up pkg)
  | reclamationEntryWrite asid kind handle range since : EvIs (.reclamationEntryWrite asid kind handle range since) (.reclamationEntryWrite asid kind handle range since)
  | crtailWrite v : EvIs (.crtailWrite v) (.crtailWrite v)
  | thermalLevelStep temp : EvIs (.thermalLevelStep temp) (.thermalLevelStep temp)
  | coreOvertempHalt core : EvIs (.coreOvertempHalt core) (.coreOvertempHalt core)
  | telemUpdate watts temp : EvIs (.telemUpdate watts temp) (.telemUpdate watts temp)
  | fwGo : EvIs (.fwGo) (.fwGo)
  | fwVerifyComplete edOk mlOk : EvIs (.fwVerifyComplete edOk mlOk) (.fwVerifyComplete edOk mlOk)
  | attestGo : EvIs (.attestGo) (.attestGo)
  | attestReportComplete : EvIs (.attestReportComplete) (.attestReportComplete)
  | hostLinkTraining cxl : EvIs (.hostLinkTraining cxl) (.hostLinkTraining cxl)
  | packageReset : EvIs (.packageReset) (.packageReset)
  | functionLevelReset f : EvIs (.functionLevelReset f) (.functionLevelReset f)
  | flrComplete f : EvIs (.flrComplete f) (.flrComplete f)
  | bivouacSpill core : EvIs (.bivouacSpill core) (.bivouacSpill core)
  | spillLoadBack core slot : EvIs (.spillLoadBack core slot) (.spillLoadBack core slot)
  | haltedFaultRecovery core : EvIs (.haltedFaultRecovery core) (.haltedFaultRecovery core)
  | icinvComplete core ctx : EvIs (.icinvComplete core ctx) (.icinvComplete core ctx)
  | flushWalkComplete core ctx : EvIs (.flushWalkComplete core ctx) (.flushWalkComplete core ctx)
  | illegalInstruction word : EvIs (.illegalInstruction word) (.illegalInstruction word)
  | instructionFetch core ctx : EvIs (.instructionFetch core ctx) (.instructionFetch core ctx)
  | curatorCancel asid tcb : EvIs (.curatorCancel asid tcb) (.curatorCancel asid tcb)
/-- An event that comes after the words of its cycle: the end of a bound (R189, R282). -/
def AfterWords : Ev → Prop
  | .boundedWaitExpiry _ _ _ => True
  | .wfeTimeout _ _ _ => True
  | _ => False
/-- No event is due before words: the one that comes first lies ahead, or comes after the words of its cycle and a word may issue (DESIGN
CHOICE: log entry 6). -/
def Idle (s : State) : Prop := ∀ e, s.queue.head? = some e → s.now < e.1 ∨ (AfterWords e.2 ∧ s.pick ≠ none)
/-- A context's place in its core's round robin: 0 for the one after the context that issued last (R129). -/
def turnNo (s : State) (n k : Nat) : Nat := (k + 10 - (s.core n).last % 11) % 11

end Sys2Proof.Machine
end

