-- ==== Sys2Proof/Certificates/Slice0/Obligations.lean ====
section
/-! DEFINITION. The statements of this model. Each says in its docstring which rules of spec/ it states; the words they are made
of are defined in Sys2Proof.Safety. -/

open Sys2Proof Sys2Proof.Machine

/-! ### Words that compute, transfer and trap -/

/-- R143–R148, R157: every integer word but the address sums writes its destination as its table row says, with the latency of R132, and does nothing
else. R148: `ADDA`, `SUBA` and `ADDAI` keep the tag and write the exact sum when it is an address; otherwise they take the tag fault with FADDR the
operand. -/
def Obligations.IntegerWords : Prop :=
  (∀ i s st l d f, IntRule i st l d f → Ready i s → Computes i s st l d (f s)) ∧
  (∀ i s st d a f, AddrRule i st d a f → Ready i s →
    (0 ≤ f s → f s < 2 ^ 56 → Computes i s st 1 d (w64 ((s.g a).toNat / 2 ^ 56 * 2 ^ 56 + f s))) ∧
    (f s < 0 ∨ 2 ^ 56 ≤ f s → Traps i s ⟨0x07, s.g a, 0⟩))
/-- R113, R130, R149, R150: where branches, jumps and calls go, what they link, and that a taken one costs two cycles. R113, R117, R368: a register
target that is misaligned takes cause 0x03, a tagged one cause 0x07, and a target in an aperture takes cause 0x06 outside handler mode; FADDR is the
target. -/
def Obligations.ControlTransfers : Prop :=
  (∀ i s st tgt d, JumpRule i st tgt d → Ready i s → (∀ va, tgt s = some va → MayGo s.me va) →
    (∀ a, RegJump i a → (s.g a).toNat % 4 = 0 ∧ (s.g a).toNat < 2 ^ 56) → Transfers i s st (tgt s) d) ∧
  (∀ i s st tgt d, JumpRule i st tgt d → Ready i s →
    (∀ a, RegJump i a → (s.g a).toNat % 4 ≠ 0 → Traps i s ⟨0x03, s.g a, 0⟩) ∧
    (∀ a, RegJump i a → (s.g a).toNat % 4 = 0 → 2 ^ 56 ≤ (s.g a).toNat → Traps i s ⟨0x07, s.g a, 0⟩) ∧
    (∀ va, tgt s = some va → ¬ MayGo s.me va → (∀ a, RegJump i a → (s.g a).toNat % 4 = 0 ∧ (s.g a).toNat < 2 ^ 56) →
      Traps i s ⟨0x06, va.setWidth 64, 0⟩))
/-- R305, R306, R308, R309, R311, R313: what a precise trap saves and where it goes. That a failed delivery reports cause 0x06 and enters the handler
is the model's reading of R311, that the failure follows as TASK_FAILURE is log entry 8. R329: `TRAP n` raises cause 0x20 with FINFO n; R312, R109:
`ERET` returns in handler mode and while UT is set, no earlier than three cycles or its stall count lets it, and otherwise raises cause 0x02. -/
def Obligations.TakingTraps : Prop :=
  (∀ i s t, Traps i s t → t.cause < 256 → TrapTaken i s t) ∧
  ((∀ st n s, Ready (.trap st n) s → Traps (.trap st n) s ⟨0x20, 0, n.setWidth 64⟩) ∧
  ∀ st s, Ready (.eret st) s →
    (s.me.hm = true ∨ s.me.ut = true ∧ MayGo s.me (s.me.epc.setWidth 56) → ∃ t, exec (.eret st) s = .next t ∧ Returns s t st) ∧
    (s.me.hm = false → s.me.ut = false → Traps (.eret st) s ⟨0x02, 0, 0⟩))
/-- R137, R151, R152, R136: `DLY` delays the next word, `TSYNC` moves TBASE to the next cycle, `CAIRN` records a cairn where no command of the context
is still to start and no access is in flight; a latched cancel event is taken by the lead where the word first issues (R79). -/
def Obligations.TimingWords : Prop :=
  (∀ st a s, Ready (.dly st a) s → ∃ t, exec (.dly st a) s = .next t ∧ s.me.SameRegs t.me ∧ KeepsSpecials s.now s.me t.me ∧
    OnlyMe s t ∧ t.me.pc = s.me.pc + 4 ∧ t.me.readyAt = s.now + 1 + st.toNat + (s.g a).toNat % 2 ^ 32) ∧
  (∀ st s, Ready (.tsync st) s → ∃ t, exec (.tsync st) s = .next t ∧ s.me.SameRegs t.me ∧ GoesOn s t st ∧ OnlyMe s t ∧
    t.me.tbase = w64 (s.now + 1) ∧ t.me.cairnpc = s.me.cairnpc ∧ t.me.image = s.me.image ∧ t.me.rmode = s.me.rmode ∧
    t.me.xstat = s.me.xstat) ∧
  (∀ st s, Ready (.cairn st) s → Quiet s → s.unstarted s.act.1 s.act.2 = [] → ¬ (s.act.2 = 0 ∧ s.myCore.task.cancel = true) →
    ∃ t, exec (.cairn st) s = .next t ∧ s.me.SameRegs t.me ∧ RecordsCairn s t ∧ GoesOn s t st ∧ OnlyMe s t ∧
      t.me.xstat = s.me.xstat ∧ t.me.rmode = s.me.rmode ∧ t.me.mshape = s.me.mshape) ∧
  (∀ st s, Ready (.cairn st) s → s.me.park ≠ .drain → s.act.2 = 0 → s.myCore.task.cancel = true → Traps (.cairn st) s ⟨0x17, 0, 0⟩)
/-- R153, R43, R192: `HSTART` starts the lowest free helper with the lead's registers and answers its index, or 0 where all ten are live; a helper
that issues it takes cause 0x02, a bad target the trap of R113. R154: `HEXIT` ends a helper that has nothing under way, after a release of core scope,
and a lead takes cause 0x02; `HWAIT` goes on with an acquire of core scope where its helper has ended, or where ga names no other live helper, and
else waits. -/
def Obligations.Helpers : Prop :=
  (∀ st d a s, Ready (.hstart st d a) s →
    (s.act.2 = 0 → (s.g a).toNat % 4 = 0 → (s.g a).toNat < 2 ^ 56 → s.flightsOf s.act.1 s.act.2 = [] → ∀ h, LowestFree s h →
      ∃ t, exec (.hstart st d a) s = .next t ∧ Gets s t 4 d (w64 (h.getD 0)) ∧ KeepsG s.me t.me d ∧ KeepsVP s.me t.me ∧
        KeepsSpecials s.now s.me t.me ∧ GoesOn s t st ∧ t = { s with cores := t.cores } ∧
        (∀ n, n ≠ s.act.1 → t.core n = s.core n) ∧ (∀ k, k ≠ 0 → some k ≠ h → t.ctx s.act.1 k = s.ctx s.act.1 k) ∧
        ∀ k, h = some k → Started s.now { s.me with tbase := t.me.tbase } (t.ctx s.act.1 k) ((s.g a).setWidth 56)) ∧
    (s.act.2 ≠ 0 → Traps (.hstart st d a) s ⟨0x02, 0, 0⟩) ∧
    (s.act.2 = 0 → (s.g a).toNat % 4 ≠ 0 → Traps (.hstart st d a) s ⟨0x03, s.g a, 0⟩) ∧
    (s.act.2 = 0 → (s.g a).toNat % 4 = 0 → 2 ^ 56 ≤ (s.g a).toNat → Traps (.hstart st d a) s ⟨0x07, s.g a, 0⟩)) ∧
  ((∀ st s, Ready (.hexit st) s →
    (s.act.2 ≠ 0 → Quiet s → s.me.reportsBy ≤ s.now → (∀ c ∈ s.cmds, ¬ (c.core = s.act.1 ∧ c.ctx = s.act.2)) →
      ∃ t, exec (.hexit st) s = .next t ∧ Released s t .core ∧ t.me.live = false ∧ t.me.fault = none ∧ SameWorld s t) ∧
    (s.act.2 = 0 → Traps (.hexit st) s ⟨0x02, 0, 0⟩)) ∧
  ∀ st a s, Ready (.hwait st a) s → AtRest s → s.me.leftHere = none →
    (let h := (s.g a).toNat
     (h = 0 ∨ 10 < h ∨ h = s.act.2 ∨ (s.ctx s.act.1 h).live = false →
      ∃ t, exec (.hwait st a) s = .next t ∧ GoesOnOnly s t st ∧ Acquired s t .core) ∧
     (1 ≤ h → h ≤ 10 → h ≠ s.act.2 → (s.ctx s.act.1 h).live = true →
      ∃ t, exec (.hwait st a) s = .next t ∧ t.me.pc = s.me.pc ∧ t.me.park ≠ .no ∧ s.me.SameRegs t.me ∧ SameWorld s t)))
/-- R327, R132: `CRD` reads each control register after two cycles; `RMODE` is read where no access is in flight (R135). R327, R328: `CWR`, `CSET` and
`CCLR` write the registers that the context may write, and nothing else; a register that it may not write takes cause 0x02, and then a result that the
register's rule turns away takes cause 0x01; its FADDR and FINFO are the model's reading (log entry 13). -/
def Obligations.ControlRegisters : Prop :=
  ((∀ st cr d s f, CRegRule cr f → Ready (.crd st cr d) s → Computes (.crd st cr d) s st 2 d (f s)) ∧
  ∀ st d s, Ready (.crd st .rmode d) s → s.flightsOf s.act.1 s.act.2 = [] →
    ∃ t, exec (.crd st .rmode d) s = .next t ∧ GetsNow s t d s.me.rmode ∧ KeepsSpecials s.now s.me t.me ∧ GoesOn s t st ∧ OnlyMe s t) ∧
  (∀ i s st r a f, CRegWrite i st r a f → Ready i s →
    (MayWrite s.me r → ¬ Refused r (f (s.begin.creg r) (s.g a)) →
      ∃ t, exec i s = .next t ∧ t.creg r = cregHolds r (s.begin.creg r) (f (s.begin.creg r) (s.g a)) ∧
        (∀ q, cregMoves r q = false → t.creg q = s.begin.creg q) ∧ s.me.SameRegs t.me ∧ GoesOn s t st ∧
        t = { s with cores := t.cores } ∧ (∀ n, n ≠ s.act.1 → t.core n = s.core n) ∧
        (∀ k, k ≠ s.act.2 → t.ctx s.act.1 k = s.ctx s.act.1 k) ∧ t.myCore.banks = s.myCore.banks) ∧
    (MayWrite s.me r → Refused r (f (s.begin.creg r) (s.g a)) → Traps i s ⟨0x01, s.me.pc.setWidth 64, (wordOf i).setWidth 64⟩) ∧
    (¬ MayWrite s.me r → Traps i s ⟨0x02, 0, 0⟩))
/-- R44, R158–R161, R132: a scalar floating-point word writes the rounded result and makes its flags sticky; where an enabled flag is raised it writes
the destination first and takes cause 0x18 with the enabled flags in FINFO. -/
def Obligations.FloatResults : Prop :=
  ∀ i s st l d f, FloatRule i st l d f → Ready i s →
    (Trapped s.me (f s).2 = 0 → ComputesFloat i s st l d (f s)) ∧
    (Trapped s.me (f s).2 ≠ 0 → exec i s = .next
      (((s.begin.gput 1 d (f s).1).onMe fun c => { c with rmode := c.rmode ||| ((f s).2.setWidth 64 <<< 8) }).trap
        ⟨0x18, 0, (Trapped s.me (f s).2).setWidth 64⟩))
/-- R32, R44: decoding a code of a format that is no NaN and encoding its value gives the code back, whatever the rounding, and raises no flag. R44:
rounding `m / 2^k` to an integer moves by less than one, in the direction that the mode names; to nearest it moves by at most a half, and a tie goes
to the even neighbour. -/
def Obligations.NumberFormats : Prop :=
  (∀ f ∈ [fp32, bf16, fp16, e4m3, e5m2, e2m1], ∀ m c, c < 2 * f.signBit → (f.dec c).isNan = false →
    f.enc .ieee m (f.dec c) = (c, 0)) ∧
  (∀ (mode : RM) (neg : Bool) (m k : Nat), let r := roundShift mode neg m k
    (r.2 = false ↔ m % 2 ^ k = 0) ∧ (r.2 = false → r.1 * 2 ^ k = m) ∧ r.1 * 2 ^ k < m + 2 ^ k ∧ m < r.1 * 2 ^ k + 2 ^ k ∧
    match mode with
    | .rtz => r.1 * 2 ^ k ≤ m
    | .rdn => if neg then m ≤ r.1 * 2 ^ k else r.1 * 2 ^ k ≤ m
    | .rup => if neg then r.1 * 2 ^ k ≤ m else m ≤ r.1 * 2 ^ k
    | .rne => 2 * (r.1 * 2 ^ k) ≤ 2 * m + 2 ^ k ∧ 2 * m ≤ 2 * (r.1 * 2 ^ k) + 2 ^ k ∧
        (2 * (r.1 * 2 ^ k) = 2 * m + 2 ^ k ∨ 2 * m = 2 * (r.1 * 2 ^ k) + 2 ^ k → r.1 % 2 = 0))

/-! ### Scalar memory -/

/-- R95, R96, R100, R238, R326, R214, R216, R232: where a read or a write of a context goes and which trap it takes: scratch, a guard, another core's
scratch, a page, or a page fault. R342: a store to a page without a route goes there, and is dropped as it is performed. R216: a read of a vitrine page
past its published tail takes cause 0x11 at its first byte past it. The order of poison before staleness is R233's. -/
def Obligations.PlacesOfAccesses : Prop :=
  ∀ (s : State) (n : Nat) (w : Bool) (va : VA) (size : Nat),
    let k : Kind := if w then .write else .read
    let b := (s.core n).banks
    let S := b.slen
    let g := b.granAt ((va.toNat - 0xFFFFFFFFF01000) / 512)
    (0xFFFFFFFFF01000 ≤ va.toNat → va.toNat + size ≤ 0xFFFFFFFFF01000 + S →
      s.place n k va size =
        if w = false ∧ g.poison = true then .trap ⟨0x13, va.setWidth 64, 0⟩
        else if w = false ∧ (g.exp = true ∨ 60 < (s.tick - g.stamp).toNat) then .trap ⟨0x08, va.setWidth 64, 0⟩
        else .scratch (va.toNat - 0xFFFFFFFFF01000)) ∧
    (0xFFFFFFFFF00FC0 ≤ va.toNat → va.toNat < 0xFFFFFFFFF01000 →
      s.place n k va size = .guard ((va.toNat : Int) - 0xFFFFFFFFF01000)) ∧
    (0xFFFFFFFFF01000 + S ≤ va.toNat → va.toNat < 0xFFFFFFFFF01000 + S + 64 → 0 < size →
      s.place n k va size = .guard ((va.toNat : Int) - 0xFFFFFFFFF01000)) ∧
    (0xFFFFFFFFF00000 ≤ va.toNat → va.toNat < 0xFFFFFFFFF00FC0 ∨ 0xFFFFFFFFF01000 + S + 64 ≤ va.toNat → 0 < size →
      s.place n k va size = .trap ⟨0x06, va.setWidth 64, 0⟩) ∧
    (0xFFFFFFFF800000 ≤ va.toNat → va.toNat < 0xFFFFFFFFC00000 → w = false → s.place n k va size = .trap ⟨0x06, va.setWidth 64, 0⟩) ∧
    (va.toNat < 0xFFFFFFFF800000 ∨ 0xFFFFFFFFC00000 ≤ va.toNat ∧ va.toNat < 0xFFFFFFFFF00000 →
      (s.xlate (s.core n).asid va = none → s.place n k va size = .page va w) ∧
      ∀ e, s.xlate (s.core n).asid va = some e →
        (e.malformed = true ∨ s.physOk (e.pa va) = false ∨ (if w then e.wr else e.rd) = false →
          s.place n k va size = .trap ⟨0x06, va.setWidth 64, 0⟩) ∧
        (e.malformed = false → s.physOk (e.pa va) = true → (if w then e.wr else e.rd) = true → e.cls = .normal →
          s.place n k va size =
            if s.poisoned (e.pa va) = true ∧ (w = false ∨ s.noRoute (e.pa va) = false) then .trap ⟨0x13, va.setWidth 64, 0⟩
            else .memory e (e.pa va)) ∧
        (e.malformed = false → s.physOk (e.pa va) = true → e.cls = .future → (if w then e.wr else e.rd) = true →
          s.place n k va size = .trap ⟨0x06, va.setWidth 64, 0⟩) ∧
        (e.malformed = false → s.physOk (e.pa va) = true → e.cls = .vitrine → w = true → e.wr = true →
          s.place n k va size = .trap ⟨0x10, va.setWidth 64, 0⟩) ∧
        (e.malformed = false → s.physOk (e.pa va) = true → e.cls = .device → w = true → e.wr = true →
          s.place n k va size = .trap ⟨0x06, va.setWidth 64, 0⟩) ∧
        ∀ x, e.malformed = false → s.physOk (e.pa va) = true → e.cls = .vitrine → w = false → e.rd = true →
          s.vrec (s.core n).asid va = some x → x.state ≠ .recalling →
          (va.toNat % 65536 + size ≤ x.ptail →
            s.place n k va size = if s.poisoned (e.pa va) then .trap ⟨0x13, va.setWidth 64, 0⟩ else .memory e (e.pa va)) ∧
          (x.ptail < va.toNat % 65536 + size → s.place n k va size =
            .trap ⟨0x11, (va + BitVec.ofNat 56 (x.ptail - va.toNat % 65536)).setWidth 64, 0⟩))
/-- R233, R234, R235, R239: a load of the core's own scratch delivers its bytes at once, little-endian, extended as the type says, and changes nothing
else. R178, R238: it waits for the context's own rope-net stores to those bytes that are on their way (log entry 101). R233, R235, R263: a load of a page is in flight after its word, and the context goes on; the word changes no byte of memory. R96, R233, R239:
loads that deliver nothing: a misaligned address takes cause 0x03; the trap of its place is taken; a page fault parks the context at the word; a guard
reads zero and is recorded; a window of size 0 takes cause 0x14, and a read beyond the window gives zero and marks WSTAT. -/
def Obligations.Loading : Prop :=
  (∀ i s st t d fr ok ea o, Loads i st t d fr ok ea → Ready i s → ok s → (ea s).toNat % ldBytes t = 0 →
    s.place s.act.1 .read (ea s) (ldBytes t) = .scratch o →
    (Landed s o (ldBytes t) → ∃ u, exec i s = .next u ∧
      GetsNow s u d (ldValue t (BitVec.ofNat 64 (cellsLE s.myCore.banks.bytes o (ldBytes t)))) ∧
      KeepsSpecials s.now s.me u.me ∧ GoesOn s u st ∧ OnlyMe s u) ∧ AwaitsNet i s o (ldBytes t)) ∧
  (∀ i s st t d fr ok ea e pa, Loads i st t d fr ok ea → Ready i s → ok s → (ea s).toNat % ldBytes t = 0 →
    s.place s.act.1 .read (ea s) (ldBytes t) = .memory e pa →
    ∃ u, exec i s = .next u ∧ KeepsSpecials s.now s.me u.me ∧ GoesOn s u st ∧
      Flies s u ⟨s.next, s.act.1, s.act.2, s.asid, .load (fr || e.cls = .device) (ldDest t d), ⟨ea s, ldBytes t, 0, 0⟩, 0, wordOf i,
        s.me.hm, false, s.me.pc⟩ (.loadAnswered s.next) (if isRemote pa then s.lat.remote else s.lat.load)) ∧
  ((∀ i s st t d fr ok ea, Loads i st t d fr ok ea → Ready i s → ok s →
    ((ea s).toNat % ldBytes t ≠ 0 → Traps i s ⟨0x03, (ea s).setWidth 64, 0⟩) ∧
    ((ea s).toNat % ldBytes t = 0 →
      (∀ x, s.place s.act.1 .read (ea s) (ldBytes t) = .trap x → Traps i s x) ∧
      (∀ va w, s.place s.act.1 .read (ea s) (ldBytes t) = .page va w → ∃ u, exec i s = .next u ∧
        u.me.park = .pageFault s.asid (va.setWidth 64) w ∧ u.me.pc = s.me.pc ∧ s.me.SameRegs u.me ∧ OnlyMe s u) ∧
      (∀ o, s.place s.act.1 .read (ea s) (ldBytes t) = .guard o → ∃ u, exec i s = .next u ∧ GetsNow s u d 0 ∧
        GoesOn s u st ∧ u.mem = s.mem ∧ u.myCore.banks = s.myCore.banks ∧
        u.myCore.guardrec = (if s.myCore.guardrec.getLsbD 63 then s.myCore.guardrec ||| 0x4000000000000000
          else w64 (2 ^ 63 + s.act.2 * 2 ^ 32 + o / 16384 % 32 * 2 ^ 19 + o % 16384))))) ∧
  ∀ st t d w b s, Ready (.ldw st t d w b) s →
    ((winOf s w).2 = 0 → Traps (.ldw st t d w b) s ⟨0x14, 0, 0⟩) ∧
    ((winOf s w).2 ≠ 0 → (winOf s w).2.toNat < (s.g b).toNat + ldBytes t → ∃ u, exec (.ldw st t d w b) s = .next u ∧
      GetsNow s u d 0 ∧ GoesOn s u st ∧ u.mem = s.mem ∧ u.myCore.banks = s.myCore.banks ∧
      u.myCore.wstat = s.myCore.wstat ||| w64 (1 + 2 ^ (8 + w.toNat))))
/-- R234, R236, R235, R238, R96: a store to the core's own scratch replaces the written bits of its bytes and nothing else, after the context's own
rope-net stores to them that are on their way (R178, log entry 101); a store to another core's scratch arrives ten cycles later, a store to a guard is dropped and recorded. R218, R219, R235, R263: a store to a page is in flight after its word; a
store to a page that is PRIVATE to the core is performed in its own L1, in program order, when no earlier access of the context is under way. A misplaced
store takes its trap, and a page fault parks the context. -/
def Obligations.Storing : Prop :=
  (∀ i s st n ea x m, Stores i st n ea x m → Ready i s → (ea s).toNat % n = 0 →
    (∀ o, s.place s.act.1 .write (ea s) n = .scratch o → AwaitsNet i s o n) ∧
    (∀ o, s.place s.act.1 .write (ea s) n = .scratch o → Landed s o n → ∃ u, exec i s = .next u ∧ s.me.SameRegs u.me ∧
      KeepsSpecials s.now s.me u.me ∧ GoesOn s u st ∧ u = { s with cores := u.cores } ∧ (∀ k, k ≠ s.act.1 → u.core k = s.core k) ∧
      (∀ k, k ≠ s.act.2 → u.ctx s.act.1 k = s.ctx s.act.1 k) ∧ u.myCore.banks = { s.myCore.banks with bytes := u.myCore.banks.bytes } ∧
      (∀ a, a < n → cellGet u.myCore.banks.bytes (o + a) =
        (mixed (BitVec.ofNat 64 (cellsLE s.myCore.banks.bytes o n)) (x s) m).extractLsb' (8 * a) 8) ∧
      ∀ a, a < o ∨ o + n ≤ a → cellGet u.myCore.banks.bytes a = cellGet s.myCore.banks.bytes a) ∧
    (∀ c o, s.place s.act.1 .write (ea s) n = .rope c o → ∃ u bs, exec i s = .next u ∧ s.me.SameRegs u.me ∧
      KeepsSpecials s.now s.me u.me ∧ GoesOn s u st ∧ u = { s with cores := u.cores, queue := u.queue } ∧
      (∀ k, k ≠ s.act.1 → u.core k = s.core k) ∧ u.myCore.banks = s.myCore.banks ∧
      (s.now + 10, .ropeNetStoreArrival c ⟨(s.core c).task.bind, 16 * s.act.1 + s.act.2⟩ bs) ∈ u.queue ∧
      bs.length = n ∧ ∀ a, (h : a < bs.length) → bs[a].addr = o + a ∧ bs[a].mask = m.extractLsb' (8 * a) 8 ∧
        bs[a].val = (x s &&& m).extractLsb' (8 * a) 8) ∧
    (∀ o, s.place s.act.1 .write (ea s) n = .guard o → ∃ u, exec i s = .next u ∧ s.me.SameRegs u.me ∧ GoesOn s u st ∧
      u.mem = s.mem ∧ u.myCore.banks = s.myCore.banks ∧
      u.myCore.guardrec = (if s.myCore.guardrec.getLsbD 63 then s.myCore.guardrec ||| 0x4000000000000000
        else w64 (2 ^ 63 + s.act.2 * 2 ^ 32 + 2 ^ 31 + o / 16384 % 32 * 2 ^ 19 + o % 16384))) ∧
    (∀ t, s.place s.act.1 .write (ea s) n = .trap t → Traps i s t) ∧
    (∀ va w, s.place s.act.1 .write (ea s) n = .page va w → ∃ u, exec i s = .next u ∧
      u.me.park = .pageFault s.asid (va.setWidth 64) w ∧ u.me.pc = s.me.pc ∧ s.me.SameRegs u.me ∧ OnlyMe s u)) ∧
  (∀ i s st n ea x m e pa, Stores i st n ea x m → Ready i s → (ea s).toNat % n = 0 →
    s.place s.act.1 .write (ea s) n = .memory e pa →
    let own := hasOrder e pa ∧ e.sh = false ∧ (e.owner = s.act.1 ∨ e.owner = 2047 ∧ dieOf s.act.1 = homeDie pa)
    (¬ own → ∃ u, exec i s = .next u ∧ KeepsSpecials s.now s.me u.me ∧ GoesOn s u st ∧
      Flies s u ⟨s.next, s.act.1, s.act.2, s.asid, .store, ⟨ea s, n, x s &&& m, m⟩, 0, wordOf i, s.me.hm, false, s.me.pc⟩
        (.storePerformed s.next) (if isRemote pa then s.lat.remote else s.lat.load)) ∧
    (own → e.owner = s.act.1 → Translates s s.asid (ea s) e → RoomFor s s.act.1 s.asid (ea s) e → s.flightsOf s.act.1 s.act.2 = [] → (∀ f ∈ s.flights, f.id < s.next) →
      ∃ u, exec i s = .next u ∧ s.me.SameRegs u.me ∧ KeepsSpecials s.now s.me u.me ∧ GoesOn s u st ∧ u.flights = s.flights ∧
        StoredIn s u s.asid (ea s) (x s &&& m) m e (s.loc (wordKey s.asid (ea s)) pa)))
/-- R222, R234, R235, R263, R266: a load in flight is performed: its register gets one of the values that the load may return, extended as its type
says, and nothing else changes. R218, R235, R236, R263: a store in flight is performed: its bits are the latest in its word's home order, or in the
bytes of an uncached page, and no other byte and no register changes; R285, R342: without a route it is dropped, and the poison kept for a later word.
That an evicted copy is brought up to date, and which copies a fill evicts, is the model's reading (log entry 7); the accesses here find room. -/
def Obligations.AccessesPerformed : Prop :=
  (∀ s f fr d e, s.flights.find? (fun g => g.id == f.id) = some f → f.kind = .load fr d → s.before f = [f] → f.stuck = false →
    Translates s f.asid f.acc.va e → Settled f.core e → NoDirty s f.asid f.acc.va e → RoomFor s f.core f.asid f.acc.va e →
    ∃ t x, exec (.loadAnswered f.id) s = .next t ∧
      MayRead s (s.ctx f.core f.ctx) (fr || e.cls = .device) f.asid f.acc.va f.acc.size e x ∧ Performed s t f ∧ t.mem = s.mem ∧
      (∀ k, k ≠ wordKey f.asid f.acc.va → Table.find? k t.locs = Table.find? k s.locs) ∧
      Lands f (s.ctx f.core f.ctx) (t.ctx f.core f.ctx) (match d with
        | .none => none
        | .gz r b => some (r, x &&& spanBits 0 (b / 8))
        | .gs r b => some (r, w64 ((x.toNat : Int).bmod (2 ^ b))))) ∧
  (∀ s f e, s.flights.find? (fun g => g.id == f.id) = some f → f.kind = .store → s.before f = [f] → f.stuck = false →
    Translates s f.asid f.acc.va e →
    (s.noRoute (e.pa f.acc.va) = false → Settled f.core e → RoomFor s f.core f.asid f.acc.va e →
      ∃ t, exec (.storePerformed f.id) s = .next t ∧ Performed s t f ∧
        StoredIn s t f.asid f.acc.va f.acc.val f.acc.mask e (s.loc (wordKey f.asid f.acc.va) (e.pa f.acc.va)) ∧
        Lands f (s.ctx f.core f.ctx) (t.ctx f.core f.ctx) none) ∧
    (s.noRoute (e.pa f.acc.va) = true → ∃ t, exec (.storePerformed f.id) s = .next t ∧ Performed s t f ∧ t.mem = s.mem ∧
      t.locs = s.locs ∧ Lands f (s.ctx f.core f.ctx) (t.ctx f.core f.ctx) none ∧
      (t.ctx f.core f.ctx).defer = deferred (s.ctx f.core f.ctx) f.acc.va))
/-- R283: the new value of each operation on integers is the exact one, to the width of the type; the float forms round to nearest even (R48) and
choose by minimumNumber and maximumNumber; R284: what gd receives. -/
def Obligations.AtomicValues : Prop :=
  (∀ op ty old x cmp, ty ≠ .f32 → op ≠ .fadd → op ≠ .fmax → op ≠ .fmin →
    (op.new ty old x cmp).map (·.setWidth ty.bits) = (atomInt op ty old x cmp).map (BitVec.ofInt ty.bits)) ∧
  (∀ old x cmp, AOp.new .fadd .f32 old x cmp =
    some ((f32Add .rne (old.setWidth 32) (x.setWidth 32)).1.setWidth 64)) ∧
  (∀ old x cmp, AOp.new .fmax .f32 old x cmp = some ((f32Max (old.setWidth 32) (x.setWidth 32)).1.setWidth 64)) ∧
  (∀ old x cmp, AOp.new .fmin .f32 old x cmp = some ((f32Min (old.setWidth 32) (x.setWidth 32)).1.setWidth 64)) ∧
  ∀ (ty : ATy) old, ty.result old = atomResult ty old
/-- R283, R284, R285: an atomic on the core's own scratch is performed at once, after the context's own rope-net stores to its bytes that are on their
way (R178, log entry 101); one on a page is in flight after its word, and `ATOMNR` waits for its
home; a misaligned address takes cause 0x03, an address in a guard or the rope aperture cause 0x06, and a place that stops the access its trap or a
page fault. R263, R270, R283–R285: an atomic in flight is performed in one instant: it reads the latest value (or what log entry 7 lets an evicted copy
become), stores the new one where its operation writes one, and `ATOM` delivers the old one; a poison that `ATOMNR` meets is kept for a later word.
R342: an `ATOM` without a route is dropped, and what it delivers is free (log entry 27). -/
def Obligations.Atomics : Prop :=
  (∀ i s st op ty ret a b, (∃ d, i = .atom st op ty d a b ∧ ret = some d) ∨ (i = .atomnr st op ty a b ∧ ret = none) → Ready i s →
    s.me.defer = none →
    let ea : VA := (s.g a).setWidth 56
    let n := ty.bits / 8
    let cmp := match ret with | some d => s.g d | none => 0
    (ea.toNat % n ≠ 0 → Traps i s ⟨0x03, ea.setWidth 64, 0⟩) ∧
    (ea.toNat % n = 0 →
      (∀ o, s.place s.act.1 .atomic ea n = .scratch o → AwaitsNet i s o n) ∧
      (∀ o, s.place s.act.1 .atomic ea n = .scratch o → Landed s o n →
        let old := BitVec.ofNat 64 (cellsLE s.myCore.banks.bytes o n)
        ∃ u, exec i s = .next u ∧ GoesOn s u st ∧ KeepsSpecials s.now s.me u.me ∧ u = { s with cores := u.cores } ∧
          (∀ d, ret = some d → GetsNow s u d (atomResult ty old)) ∧ (ret = none → s.me.SameRegs u.me) ∧
          (∀ j, j < n → cellGet u.myCore.banks.bytes (o + j) =
            (match op.new ty old (s.g b) cmp with | some v => v | none => old).extractLsb' (8 * j) 8) ∧
          ∀ j, j < o ∨ o + n ≤ j → cellGet u.myCore.banks.bytes j = cellGet s.myCore.banks.bytes j) ∧
      (∀ e pa, s.place s.act.1 .atomic ea n = .memory e pa → ∃ u, exec i s = .next u ∧ u.me.pc = s.me.pc + 4 ∧
        (ret = none → u.me.park = .home (s.now + s.lat.home)) ∧ (ret ≠ none → GoesOn s u st) ∧
        Flies s u ⟨s.next, s.act.1, s.act.2, s.asid, .atomic op ty cmp ret, ⟨ea, n, s.g b, 0⟩, 0, wordOf i, s.me.hm, false, s.me.pc⟩
          (.atomicPerformed s.next) (if isRemote pa then s.lat.remote else s.lat.load)) ∧
      (∀ t, s.place s.act.1 .atomic ea n = .trap t → (ret ≠ none ∨ t.cause ≠ 0x13 → Traps i s t) ∧
        (ret = none → t.cause = 0x13 → ∃ u, exec i s = .next u ∧ u.me.pc = s.me.pc + 4 ∧
          if 0xFFFFFFFFF00000 ≤ ea.toNat then GoesOn s u st ∧ OnlyMe s u ∧ s.me.SameRegs u.me ∧ u.me.defer = some (0x13, ea.setWidth 64)
          else u.me.park = .home (s.now + s.lat.home) ∧
            Flies s u ⟨s.next, s.act.1, s.act.2, s.asid, .atomic op ty cmp ret, ⟨ea, n, s.g b, 0⟩, 0, wordOf i, s.me.hm, false, s.me.pc⟩
              (.atomicPerformed s.next) s.lat.load)) ∧
      (∀ va w, s.place s.act.1 .atomic ea n = .page va w → ∃ u, exec i s = .next u ∧
        u.me.park = .pageFault s.asid (va.setWidth 64) w ∧ u.me.pc = s.me.pc ∧ s.me.SameRegs u.me ∧ OnlyMe s u) ∧
      (0xFFFFFFFF800000 ≤ ea.toNat → ea.toNat < 0xFFFFFFFFC00000 → Traps i s ⟨0x06, ea.setWidth 64, 0⟩))) ∧
  (∀ s f op ty cmp ret e, s.flights.find? (fun g => g.id == f.id) = some f → f.kind = .atomic op ty cmp ret → s.before f = [f] →
    f.stuck = false → f.acc.size = ty.bits / 8 → Translates s f.asid f.acc.va e →
    (ret = none → s.poisoned (e.pa f.acc.va) = true → ∃ t, exec (.atomicPerformed f.id) s = .next t ∧
      t.flights = s.flights.filter (fun g => g.id != f.id) ∧ t.mem = s.mem ∧ t.locs = s.locs ∧
      t.ctx f.core f.ctx = { s.ctx f.core f.ctx with
        defer := deferred (s.ctx f.core f.ctx) f.acc.va, answer := (t.ctx f.core f.ctx).answer }) ∧
    (∀ r, ret = some r → s.noRoute (e.pa f.acc.va) = true → ∃ t x, exec (.atomicPerformed f.id) s = .next t ∧ Performed s t f ∧
      t.mem = s.mem ∧ t.locs = s.locs ∧ Lands f (s.ctx f.core f.ctx) (t.ctx f.core f.ctx) (some (r, x)) ∧
      (t.ctx f.core f.ctx).defer = deferred (s.ctx f.core f.ctx) f.acc.va) ∧
    ((if ret = none then s.poisoned (e.pa f.acc.va) else s.noRoute (e.pa f.acc.va)) = false → Settled f.core e →
      NoDirty s f.asid f.acc.va e →
      ∃ t l old, exec (.atomicPerformed f.id) s = .next t ∧ Performed s t f ∧
        (if hasOrder e (e.pa f.acc.va) then Found s f.asid f.acc.va (e.pa f.acc.va) l ∧ old = readAt l l.top f.acc.va (ty.bits / 8)
          else old = BitVec.ofNat 64 (s.phys (e.pa f.acc.va) (ty.bits / 8))) ∧
        (match op.new ty old f.acc.val cmp with
          | some v => StoredIn s t f.asid f.acc.va v (spanBits 0 (ty.bits / 8)) e l
          | none => t.mem = s.mem ∧ ∀ k, k ≠ wordKey f.asid f.acc.va → Table.find? k t.locs = Table.find? k s.locs) ∧
        Lands f (s.ctx f.core f.ctx) (t.ctx f.core f.ctx) (ret.map fun r => (r, atomResult ty old))))
/-- R221, R237, R267, R268, R286: fences acquire and release at their scope, and an acquire of device or system scope drops the die's lines of other
dies' memory; `LD.acq` reads fresh and then acquires, `ST.rel` releases and then stores, when no access of the context is under way. What a fresh read
may find of an evicted copy is the model's reading (log entry 7). -/
def Obligations.AcquiresAndReleases : Prop :=
  (∀ st sc s, Ready (.fenceAcq st sc) s → AtRest s → ∃ t, exec (.fenceAcq st sc) s = .next t ∧ Acquired s t sc ∧
    s.me.SameRegs t.me ∧ KeepsSpecials s.now s.me t.me ∧ GoesOn s t st ∧ SameAfter sc s t) ∧
  (∀ st sc s, Ready (.fenceRel st sc) s → Quiet s → ∃ t, exec (.fenceRel st sc) s = .next t ∧ Released s t sc ∧
    s.me.SameRegs t.me ∧ KeepsSpecials s.now s.me t.me ∧ GoesOn s t st ∧ SameWorld s t) ∧
  (∀ st sc s, Ready (.fenceAr st sc) s → Quiet s → ∃ t, exec (.fenceAr st sc) s = .next t ∧ Released s t sc ∧ Acquired s t sc ∧
    s.me.SameRegs t.me ∧ KeepsSpecials s.now s.me t.me ∧ GoesOn s t st ∧ SameAfter sc s t) ∧
  (∀ st sc d b off s, Ready (.ldAcq st sc d b off) s → AtRest s → (mEA s b off 8).toNat % 8 = 0 →
    (∀ o, s.place s.act.1 .read (mEA s b off 8) 8 = .scratch o → Landed s o 8 → ∃ t, exec (.ldAcq st sc d b off) s = .next t ∧
      GetsNow s t d (BitVec.ofNat 64 (cellsLE s.myCore.banks.bytes o 8)) ∧ Acquired s t sc ∧ KeepsSpecials s.now s.me t.me ∧
      GoesOn s t st ∧ SameAfter sc s t) ∧
    (∀ e pa, s.place s.act.1 .read (mEA s b off 8) 8 = .memory e pa → Settled s.act.1 e → NoDirty s s.asid (mEA s b off 8) e →
      RoomFor s s.act.1 s.asid (mEA s b off 8) e → pa = e.pa (mEA s b off 8) →
      ∃ t x, exec (.ldAcq st sc d b off) s = .next t ∧ MayRead s s.me true s.asid (mEA s b off 8) 8 e x ∧ GetsNow s t d x ∧
        Acquired s t sc ∧ KeepsSpecials s.now s.me t.me ∧ t.me.pc = s.me.pc + 4 ∧ t.mem = s.mem ∧ t.flights = s.flights ∧
        (∀ k, k ≠ wordKey s.asid (mEA s b off 8) → Table.find? k t.locs = Table.find? k s.locs) ∧ OthersAfter sc s t ∧
        t.myCore.banks = s.myCore.banks ∧ t.me.park = .home (s.now + (if isRemote pa then s.lat.remote else s.lat.load)))) ∧
  ∀ st sc d b off s, Ready (.stRel st sc d b off) s → Quiet s → (mEA s b off 8).toNat % 8 = 0 →
    (0xFFFFFFFF800000 ≤ (mEA s b off 8).toNat → (mEA s b off 8).toNat < 0xFFFFFFFFC00000 →
      Traps (.stRel st sc d b off) s ⟨0x06, (mEA s b off 8).setWidth 64, 0⟩) ∧
    (∀ o, s.place s.act.1 .write (mEA s b off 8) 8 = .scratch o → ∃ t, exec (.stRel st sc d b off) s = .next t ∧ Released s t sc ∧
      s.me.SameRegs t.me ∧ KeepsSpecials s.now s.me t.me ∧ GoesOn s t st ∧ t.mem = s.mem ∧ t.locs = s.locs ∧ t.flights = s.flights ∧
      OthersSame s t ∧ (∀ j, j < 8 → cellGet t.myCore.banks.bytes (o + j) = (s.g d).extractLsb' (8 * j) 8) ∧
      ∀ j, j < o ∨ o + 8 ≤ j → cellGet t.myCore.banks.bytes j = cellGet s.myCore.banks.bytes j) ∧
    (∀ e pa, s.place s.act.1 .write (mEA s b off 8) 8 = .memory e pa → Settled s.act.1 e → s.noRoute pa = false →
      RoomFor s s.act.1 s.asid (mEA s b off 8) e → pa = e.pa (mEA s b off 8) →
      ∃ t, exec (.stRel st sc d b off) s = .next t ∧ Released s t sc ∧ s.me.SameRegs t.me ∧ KeepsSpecials s.now s.me t.me ∧
        t.me.pc = s.me.pc + 4 ∧ t.flights = s.flights ∧ OthersSame s t ∧ t.myCore.banks = s.myCore.banks ∧
        t.me.park = .home (s.now + (if isRemote pa then s.lat.remote else s.lat.load)) ∧
        StoredIn s t s.asid (mEA s b off 8) (s.g d) 0xFFFFFFFFFFFFFFFF e (s.loc (wordKey s.asid (mEA s b off 8)) pa))

/-! ### Vector words -/

/-- R162–R166, R168–R172, R132: a masked lane word writes the active lanes of its destination with its latency, and no other lane or register; its
flags become sticky, and an enabled one is reported with its ring entry once the result is written. -/
def Obligations.LaneResults : Prop :=
  ∀ i s st l d p f, LaneRule i st l d p f → Ready i s → RingFree s →
    ComputesLanes i s st l d (maskOf s p) (fun j => (f s j).1) (flagsOf (maskOf s p) fun j => (f s j).2)
/-- R47, R173: a reduction folds sixteen lanes in the tree of R47, inactive ones as the identity, into every lane of its destination. -/
def Obligations.Reductions : Prop :=
  ∀ i s st l d a p ident op, TreeRule i st l d a p ident op → Ready i s → RingFree s →
    let r := treeOf (op s) 4 fun j => if h : j < 16 then (if (maskOf s p).getLsbD j then (s.v a).get ⟨j, h⟩ else ident) else 0
    ComputesLanes i s st l d 0xFFFF (fun _ => r.1) r.2
/-- R171, R175: `VSEL` chooses lane by lane, `VBCAST` writes every lane, `VINS` one lane, and `VEXT` reads one lane, into which no load is in flight, into a general register. R163,
R170: a masked test writes the bits of its active lanes and zeros elsewhere after two cycles; p0 takes no value. -/
def Obligations.LaneMovesAndTests : Prop :=
  ((∀ st d a b p s, Ready (.vsel st d a b p) s → RingFree s →
    ComputesLanes (.vsel st d a b p) s st 2 d 0xFFFF
      (fun j => if (maskOf s p).getLsbD j.val then (s.v a).get j else (s.v b).get j) 0) ∧
  (∀ st v a s, Ready (.vbcast st v a) s → RingFree s →
    ComputesLanes (.vbcast st v a) s st 1 v 0xFFFF (fun _ => (s.g a).setWidth 32) 0) ∧
  (∀ st v d a s, Ready (.vins st v d a) s → RingFree s →
    ComputesLanes (.vins st v d a) s st 1 v (BitVec.ofNat 16 (2 ^ ((s.g d).toNat % 16))) (fun _ => (s.g a).setWidth 32) 0) ∧
  ∀ st v d a s, Ready (.vext st v d a) s → RingFree s →
    (∀ f ∈ s.flightsOf s.act.1 s.act.2, f.names.contains (.v v) = false) → ∃ t, exec (.vext st v d a) s = .next t ∧
    Gets s t 2 d (((s.v v).get ⟨(s.g a).toNat % 16, Nat.mod_lt _ (by decide)⟩).setWidth 64) ∧ KeepsG s.me t.me d ∧ KeepsVP s.me t.me ∧
    KeepsSpecials s.now s.me t.me ∧ GoesOn s t st ∧ TakesRing (.vext st v d a) s t true) ∧
  (∀ i s st d p f, PredRule i st d p f → Ready i s → RingFree s → ∃ t, exec i s = .next t ∧
    (d ≠ 0 → ∀ j, (t.me.pAt (s.now + 2) d).getLsbD j = if h : j < 16 then (maskOf s p).getLsbD j && (f s ⟨j, h⟩).1 else false) ∧
    (∀ u q, q ≠ d → t.me.pAt u q = s.me.pAt u q) ∧ t.me.pAt (s.now + 2) 0 = 0xFFFFFFFFFFFFFFFF ∧
    (∀ u q, t.me.vAt u q = s.me.vAt u q) ∧ KeepsG s.me t.me 0 ∧ KeepsRest s.now s.me t.me ∧
    RaisesLate i s t 2 (flagsOf (maskOf s p) fun j => (f s j).2) ∧ GoesOn s t st ∧ TakesRing i s t true)

/-! ### Scaled elements, scratch and caches -/

/-- R241, R31, R233: a scaled access whose pointer has no format or a wrong BLOG takes cause 0x07, an element that reaches 2^56 cause 0x07, a
misaligned base cause 0x03, and then the trap of its element's place; FADDR of cause 0x07, where the spec is silent, is the model's reading (log entry
20). R240, R241, R41, R44: `LDX` delivers the element rounded to FP32 or to INT32,
under its scale slot, at once from the core's own scratch and with a home's answer from a page (of evicted copies, log entry 7); an enabled flag traps after the write. R241, R177,
R45, R44: `STX` writes the element's own bits of the code that Convert gives under its scale slot, which integers do not read, and no other bit of the scratch or of the page;
an enabled flag traps after the write. -/
def Obligations.ScaledAccesses : Prop :=
  (∀ i a b w s, ElemWords i a b w → Ready i s →
    (tagged (s.g a) = none → Traps i s ⟨0x07, ((s.g a).setWidth 56).setWidth 64, 0⟩) ∧
    ∀ t, tagged (s.g a) = some t →
      let out := 2 ^ 56 < t.va.toNat + elemOff t.fmt t.blog (s.g b).toNat + elemSize t.fmt
      (out → Traps i s ⟨0x07, t.va.setWidth 64, 0⟩) ∧
      (¬ out → tagAligned t = false → Traps i s ⟨0x03, t.va.setWidth 64, 0⟩) ∧
      (ElemOk s a b t → ∀ x, s.place s.act.1 (if w then .write else .read) (elemVA t (s.g b).toNat) (elemSize t.fmt) = .trap x →
        Traps i s x)) ∧
  (∀ i s st d a b conv t, ElemLoads i st d a b conv → Ready i s → ElemOk s a b t → s.flightsOf s.act.1 s.act.2 = [] →
    let k := (s.g b).toNat
    (∀ o y, s.place s.act.1 .read (elemVA t k) (elemSize t.fmt) = .scratch o → Landed s o (elemSize t.fmt) → SlotIn s t k y →
      let r := conv s.mode t.fmt t.blog y (elemCode t k (cellsLE s.myCore.banks.bytes o (elemSize t.fmt)))
      (Trapped s.me r.2 = 0 → ComputesFloat i s st 1 d r) ∧
      (Trapped s.me r.2 ≠ 0 → exec i s = .next
        (((s.begin.gput 1 d r.1).onMe fun c => { c with rmode := c.rmode ||| (r.2.setWidth 64 <<< 8) }).trap
          ⟨0x18, 0, (Trapped s.me r.2).setWidth 64⟩))) ∧
    (∀ e pa, s.place s.act.1 .read (elemVA t k) (elemSize t.fmt) = .memory e pa → t.blog = 0 →
      Translates s s.asid (elemVA t k) e → Settled s.act.1 e → NoDirty s s.asid (elemVA t k) e →
      RoomFor s s.act.1 s.asid (elemVA t k) e → s.me.rmode.extractLsb' 16 5 = (0 : BitVec 5) →
      ∃ u x, exec i s = .next u ∧ MayReadBits s s.me (e.cls = .device) s.asid (elemVA t k) (elemSize t.fmt) (elemBits t k 0).2 e x ∧
        Gets s u 1 d (conv s.mode t.fmt 0 0 (elemCode t k x.toNat)).1 ∧ KeepsG s.me u.me d ∧ KeepsVP s.me u.me ∧
        KeepsRest s.now s.me u.me ∧
        u.me.rmode = s.me.rmode ||| ((conv s.mode t.fmt 0 0 (elemCode t k x.toNat)).2.setWidth 64 <<< 8) ∧
        AwaitsHome s u (if isRemote pa then s.lat.remote else s.lat.load) ∧ u.mem = s.mem ∧ u.flights = s.flights ∧ OthersSame s u)) ∧
  (∀ i s st d a b nsat t, ElemStores i st d a b nsat → Ready i s → ElemOk s a b t → s.flightsOf s.act.1 s.act.2 = [] →
    let k := (s.g b).toNat
    (∀ o y, s.place s.act.1 .write (elemVA t k) (elemSize t.fmt) = .scratch o → Landed s o (elemSize t.fmt) → (t.fmt.isInt = false → SlotIn s t k y) →
      let r := encodeLane t.fmt t.blog y s.mode nsat ((s.g d).setWidth 32)
      let m := elemBits t k r.1
      let n := elemSize t.fmt
      ∃ u, (if Trapped s.me r.2 = 0 then exec i s = .next u ∧ GoesOn s u st
          else exec i s = .next (u.trap ⟨0x18, 0, (Trapped s.me r.2).setWidth 64⟩)) ∧
        s.me.SameRegs u.me ∧ KeepsRest s.now s.me u.me ∧ u.me.rmode = s.me.rmode ||| (r.2.setWidth 64 <<< 8) ∧
        u = { s with cores := u.cores } ∧ OthersSame s u ∧ u.myCore.banks = { s.myCore.banks with bytes := u.myCore.banks.bytes } ∧
        (∀ j, j < n → cellGet u.myCore.banks.bytes (o + j) =
          (mixed (BitVec.ofNat 64 (cellsLE s.myCore.banks.bytes o n)) m.1 m.2).extractLsb' (8 * j) 8) ∧
        ∀ j, j < o ∨ o + n ≤ j → cellGet u.myCore.banks.bytes j = cellGet s.myCore.banks.bytes j) ∧
    (∀ e pa, s.place s.act.1 .write (elemVA t k) (elemSize t.fmt) = .memory e pa → t.blog = 0 ∨ t.fmt.isInt = true →
      Translates s s.asid (elemVA t k) e → Settled s.act.1 e → s.noRoute pa = false → RoomFor s s.act.1 s.asid (elemVA t k) e →
      s.me.rmode.extractLsb' 16 5 = (0 : BitVec 5) →
      let r := encodeLane t.fmt t.blog 0 s.mode nsat ((s.g d).setWidth 32)
      ∃ u, exec i s = .next u ∧ s.me.SameRegs u.me ∧ KeepsRest s.now s.me u.me ∧
        u.me.rmode = s.me.rmode ||| (r.2.setWidth 64 <<< 8) ∧
        AwaitsHome s u (if isRemote pa then s.lat.remote else s.lat.load) ∧ u.flights = s.flights ∧ OthersSame s u ∧
        StoredIn s u s.asid (elemVA t k) (elemBits t k r.1).1 (elemBits t k r.1).2 e (s.loc (wordKey s.asid (elemVA t k)) pa)))
/-- R242: `PREF` never stops: it only fetches, so no register, no byte of memory and no access in flight changes, and where its address is no page it
does nothing at all. R246, R116, R217: `FLUSH` and `FLUSHINV` carry every dirty byte of the range to memory, which stands there at issue (DESIGN CHOICE:
log entry 24), `FLUSHINV` drops the copies, and the context waits for the walk; `ICINV` releases at its scope and drops the instruction lines and fetched words of the range in the cores of the scope, and its
own context fetches its next word anew. No register changes. -/
def Obligations.CacheWords : Prop :=
  (∀ st a b s, Ready (.pref st a b) s →
    let va : VA := (s.g a).setWidth 56 + (s.g b).setWidth 56
    ∃ t, exec (.pref st a b) s = .next t ∧ Ends s t st ∧ t.flights = s.flights ∧ t.queue = s.queue ∧
      (∀ n k, (n, k) ≠ s.act → (s.ctx n k).SameRegs (t.ctx n k)) ∧ (∀ n, (t.core n).banks = (s.core n).banks) ∧
      ((∀ e pa, s.place s.act.1 .read va 1 ≠ .memory e pa) → OnlyMe s t) ∧
      ∀ e pa, s.place s.act.1 .read va 1 = .memory e pa → Settled s.act.1 e → OthersSame s t ∧
        (RoomFor s s.act.1 s.asid va e → t.mem = s.mem ∧ t.locs = s.locs)) ∧
  ((∀ i st a b inv s, Flushes i st a b inv → Ready i s → s.flightsOf s.act.1 s.act.2 = [] → s.locs.ascending = true →
    ∃ t, exec i s = .next t ∧ s.me.SameRegs t.me ∧ KeepsSpecials s.now s.me t.me ∧ AwaitsHome s t s.lat.flush ∧
      (s.now + s.lat.flush, Ev.flushWalkComplete s.act.1 s.act.2) ∈ t.queue ∧ t.flights = s.flights ∧
      (∀ e ∈ t.locs, e.1 / 2 ^ 53 = s.asid.toNat → InRange (s.g a) (s.g b) (e.1 % 2 ^ 53 * 8) → inv = false ∧ e.2.dirty = 0) ∧
      CarriedHome s t (fun k => k / 2 ^ 53 = s.asid.toNat ∧ InRange (s.g a) (s.g b) (k % 2 ^ 53 * 8)) ∧
      ((∀ e ∈ s.locs, e.2.dirty = 0) → t.mem = s.mem) ∧ ∀ n k, (n, k) ≠ s.act → (s.ctx n k).SameRegs (t.ctx n k)) ∧
  (∀ st sc a b s, Ready (.icinv st sc a b) s → Quiet s →
    ∃ t, exec (.icinv st sc a b) s = .next t ∧ s.me.SameRegs t.me ∧ KeepsSpecials s.now s.me t.me ∧ AwaitsHome s t s.lat.icinv ∧
      Released s t sc ∧ (s.now + s.lat.icinv, Ev.icinvComplete s.act.1 s.act.2) ∈ t.queue ∧ t.mem = s.mem ∧ t.locs = s.locs ∧
      (∀ n w, w ∈ (t.core n).icache → w ∈ (s.core n).icache ∧
        ¬ (CoresOf sc s.act.1 n ∧ w.1 / 2 ^ 56 = s.asid.toNat ∧ InRange (s.g a) (s.g b) (w.1 % 2 ^ 56))) ∧
      (∀ n w, w ∈ (s.core n).icache →
        ¬ (CoresOf sc s.act.1 n ∧ w.1 / 2 ^ 56 = s.asid.toNat ∧ InRange (s.g a) (s.g b) (w.1 % 2 ^ 56)) → w ∈ (t.core n).icache) ∧
      t.me.fbuf = [] ∧
      (∀ n k w, w ∈ (t.ctx n k).fbuf → w ∈ (s.ctx n k).fbuf ∧ ¬ (CoresOf sc s.act.1 n ∧ InRange (s.g a) (s.g b) w.1)) ∧
      ∀ n k, (n, k) ≠ s.act → (s.ctx n k).SameRegs (t.ctx n k) ∧ (t.core n).banks = (s.core n).banks) ∧
  ∀ i core ctx s, i = .icinvComplete core ctx ∨ i = .flushWalkComplete core ctx → ∃ t, exec i s = .next t ∧
    t = { s with cores := t.cores } ∧ (∀ n k, (n, k) ≠ (core, ctx) → t.ctx n k = s.ctx n k) ∧
    t.ctx core ctx = { s.ctx core ctx with park := (t.ctx core ctx).park } ∧
    (∀ c, (s.ctx core ctx).park = .home c → (t.ctx core ctx).park = .no) ∧
    ((∀ c, (s.ctx core ctx).park ≠ .home c) → (t.ctx core ctx).park = (s.ctx core ctx).park))
/-- R243, R91, R99: `SPRESIZE` of a lead whose core has nothing under way waits for the write-backs of the lines it gives up (their time is free: log
entry 82) and for the zeroing, and then gives the scratch its new size and the FIFO banks their number, keeps what lies below the smaller size, stamps
the granules that the zeroing wrote with TICK as it then stands (DEDUCED: log entry 22), and moves the unread entries of banks that are no FIFO any more
in order; a layout that stays costs 256 cycles; its operand errors take causes 0x02 and 0x01 (FADDR and FINFO of 0x01 are the model's reading: log entry
13). R244, R98, R326: `RENEW` checks its range as it issues and its granules in the next cycle; each granule is rewritten, with the TICK of that cycle,
in ascending order in its bank (DEDUCED: log entry 23), and no byte changes; outside the scratch it takes cause 0x06, at a poisoned granule 0x13, at a
stale one 0x08, and then renews nothing. -/
def Obligations.ScratchSizeAndFreshness : Prop :=
  (∀ st a s, Ready (.spresize st a) s →
    let x := (s.g a).toNat
    let S := (x % 2 ^ 32 + 63) / 64 * 64
    let f := x / 2 ^ 32 % 32
    let ok := x / 2 ^ 37 = 0 ∧ x % 2 ^ 32 ≤ 294912 ∧ (S + 16383) / 16384 + f ≤ 18
    let free := (∀ g ∈ s.flights, g.core ≠ s.act.1) ∧ ∀ c ∈ s.cmds, c.core ≠ s.act.1
    (s.act.2 = 0 → ok → free → s.me.answer ≠ some writesBack → s.myCore.banks.spcfg = spcfgWord S f →
      ∃ t, exec (.spresize st a) s = .next t ∧ AwaitsHome s t 256 ∧ LaidOut t.myCore.banks S f ∧ t.myCore.banks = s.myCore.banks ∧
        s.me.SameRegs t.me ∧ KeepsSpecials s.now s.me t.me ∧ t.flights = s.flights ∧ OthersSame s t ∧ t.mem = s.mem ∧ t.locs = s.locs) ∧
    (s.act.2 = 0 → ok → free → s.me.answer ≠ some writesBack → s.myCore.banks.spcfg ≠ spcfgWord S f →
      ∃ t d, exec (.spresize st a) s = .next t ∧ t.me.pc = s.me.pc ∧ t.me.park = .drain ∧ t.me.readyAt = max s.me.readyAt (s.now + d) ∧
        256 ≤ d ∧ t.me.answer = some writesBack ∧ t.myCore.banks = s.myCore.banks ∧ s.me.SameRegs t.me ∧ t.flights = s.flights ∧
        OthersSame s t ∧ ((∀ l ∈ s.myCore.lines, l.dirty = false) → d = 256 ∧ t.mem = s.mem ∧ t.locs = s.locs)) ∧
    (s.act.2 = 0 → ok → s.me.answer = some writesBack →
      ∃ t, exec (.spresize st a) s = .next t ∧ LaidOut t.myCore.banks S f ∧ Resized s.tick s.myCore.banks t.myCore.banks S ∧
        GoesOn s t st ∧ s.me.SameRegs t.me ∧ KeepsSpecials s.now s.me t.me ∧ t.flights = s.flights ∧ OthersSame s t ∧
        ((∀ l ∈ s.myCore.lines, l.dirty = false) → t.mem = s.mem ∧ t.locs = s.locs) ∧
        (s.myCore.on ≠ none → ∀ k, k < 18 → s.myCore.banks.role k = 2 → k < 19 - f →
          (Table.find? (17 - k) t.myCore.task.spilled).getD [] = queueOfCore s.myCore (17 - k) ∧ t.myCore.banks.fifoAt k = [])) ∧
    (s.act.2 = 0 → ¬ ok → Traps (.spresize st a) s ⟨0x01, s.me.pc.setWidth 64, (wordOf (.spresize st a)).setWidth 64⟩) ∧
    (s.act.2 ≠ 0 → Traps (.spresize st a) s ⟨0x02, 0, 0⟩)) ∧
  (∀ st a b s, Ready (.renew st a b) s →
    let va := ((s.g a).setWidth 56).toNat
    let n := (s.g b).toNat
    let o := va - 0xFFFFFFFFF01000
    let first := o / 512
    let last := (o + n - 1) / 512
    let bk := s.myCore.banks
    let stale := fun g => (bk.granAt g).exp = true ∨ 60 < (s.tick - (bk.granAt g).stamp).toNat
    (n = 0 → ∃ t, exec (.renew st a b) s = .next t ∧ GoesOnOnly s t st) ∧
    (n ≠ 0 → va < 0xFFFFFFFFF01000 → Traps (.renew st a b) s ⟨0x06, ((s.g a).setWidth 56).setWidth 64, 0⟩) ∧
    (n ≠ 0 → 0xFFFFFFFFF01000 ≤ va → bk.slen < o + n → Traps (.renew st a b) s ⟨0x06, w64 (0xFFFFFFFFF01000 + max o bk.slen : Nat), 0⟩) ∧
    (n ≠ 0 → 0xFFFFFFFFF01000 ≤ va → o + n ≤ bk.slen → s.me.answer = none →
      ∃ t, exec (.renew st a b) s = .next t ∧ StaysTill s t (s.now + 1) ∧ t.me.answer = some (0, s.now, 0)) ∧
    ∀ x t0 y, n ≠ 0 → 0xFFFFFFFFF01000 ≤ va → o + n ≤ bk.slen → s.me.answer = some (x, t0, y) →
      (∀ g, first ≤ g → g ≤ last → (bk.granAt g).poison = true →
        (∀ h, first ≤ h → h < g → (bk.granAt h).poison = false) →
        Traps (.renew st a b) s ⟨0x13, w64 (0xFFFFFFFFF01000 + 512 * g : Nat), 0⟩) ∧
      ((∀ g, first ≤ g → g ≤ last → (bk.granAt g).poison = false) → ∀ g, first ≤ g → g ≤ last → stale g →
        (∀ h, first ≤ h → h < g → ¬ stale h) → Traps (.renew st a b) s ⟨0x08, w64 (0xFFFFFFFFF01000 + 512 * g : Nat), 0⟩) ∧
      ((∀ g, first ≤ g → g ≤ last → (bk.granAt g).poison = false ∧ ¬ stale g) →
        ∃ t m, exec (.renew st a b) s = .next t ∧ s.me.SameRegs t.me ∧ KeepsSpecials s.now s.me t.me ∧
          AwaitsHome s t (t0 + 4 + 8 * m - s.now) ∧
          (∀ k, k < 18 → inBank first last k ≤ m) ∧ (m = 0 ∨ ∃ k, k < 18 ∧ inBank first last k = m) ∧
          t = { s with cores := t.cores } ∧ OthersSame s t ∧ t.myCore.banks = bk ∧
          (∀ g, first ≤ g → g ≤ last → (g, t0 + 3 + 8 * inBank first g (g / 32)) ∈ t.myCore.renewing) ∧
          ∀ x, x ∈ s.myCore.renewing → x ∈ t.myCore.renewing))
/-- R245: `SEQSET` writes the tag of the slot that its address names twelve cycles later, `SEQGET` reads it; an address that names no slot takes cause
0x06. R238, R367: a rope-net store that arrives replaces the written bits of its bytes while its task is on the core, and is discarded afterwards. -/
def Obligations.TagsAndRopeNetStores : Prop :=
  ((∀ st a b s, Ready (.seqset st a b) s →
    let va : VA := (s.g a).setWidth 56
    let sends := fun k j => ∃ t, exec (.seqset st a b) s = .next t ∧ Ends s t st ∧ t = { s with cores := t.cores, queue := t.queue } ∧
      (∀ e, e ∈ s.queue → e ∈ t.queue) ∧ OthersSame s t ∧ t.myCore.banks = s.myCore.banks ∧
      (s.now + 12, Ev.seqsetTagWrite k (s.core k).task.bind j ((s.g b).setWidth 16)) ∈ t.queue
    (∀ o, s.place s.act.1 .write va 1 = .scratch o → sends s.act.1 (o / 2048)) ∧
    (∀ k o, s.place s.act.1 .write va 1 = .rope k o → sends k (o / 2048)) ∧
    ((∀ o, s.place s.act.1 .write va 1 ≠ .scratch o) → (∀ k o, s.place s.act.1 .write va 1 ≠ .rope k o) →
      Traps (.seqset st a b) s ⟨0x06, va.setWidth 64, 0⟩)) ∧
  (∀ st d a s, Ready (.seqget st d a) s →
    let va : VA := (s.g a).setWidth 56
    let reads := fun k j => ∃ t, exec (.seqget st d a) s = .next t ∧ GetsNow s t d (((s.core k).banks.tagAt j).setWidth 64) ∧
      KeepsSpecials s.now s.me t.me ∧ GoesOn s t st ∧ OnlyMe s t
    (∀ o, s.place s.act.1 .write va 1 = .scratch o → reads s.act.1 (o / 2048)) ∧
    (∀ k o, s.place s.act.1 .write va 1 = .rope k o → reads k (o / 2048)) ∧
    ((∀ o, s.place s.act.1 .write va 1 ≠ .scratch o) → (∀ k o, s.place s.act.1 .write va 1 ≠ .rope k o) →
      Traps (.seqget st d a) s ⟨0x06, va.setWidth 64, 0⟩)) ∧
  ∀ core task slot tag s, ∃ t, exec (.seqsetTagWrite core task slot tag) s = .next t ∧ t = { s with cores := t.cores } ∧
    (∀ n, n ≠ core → t.core n = s.core n) ∧ t.core core = { s.core core with banks := (t.core core).banks } ∧
    (t.core core).banks = { (s.core core).banks with tags := (t.core core).banks.tags } ∧
    ∀ j, (t.core core).banks.tagAt j = if (s.core core).on ≠ none ∧ (s.core core).task.bind = task ∧ j = slot then tag
      else (s.core core).banks.tagAt j) ∧
  (∀ core ends bs s, ∃ t, exec (.ropeNetStoreArrival core ends bs) s = .next t ∧ t = { s with cores := t.cores } ∧
    (∀ n, n ≠ core → t.core n = s.core n) ∧ t.core core = { s.core core with banks := (t.core core).banks } ∧
    ((s.core core).on = none ∨ (s.core core).task.bind ≠ ends.task → t.core core = s.core core) ∧
    ((s.core core).on ≠ none → (s.core core).task.bind = ends.task →
      (∀ a, (∀ w ∈ bs, w.addr ≠ a) → cellGet (t.core core).banks.bytes a = cellGet (s.core core).banks.bytes a) ∧
      ∀ w ∈ bs, (∀ u ∈ bs, u.addr = w.addr → u = w) → w.addr < (s.core core).banks.slen →
        cellGet (t.core core).banks.bytes w.addr = (cellGet (s.core core).banks.bytes w.addr &&& ~~~w.mask) ||| (w.val &&& w.mask)))

/-! ### Synchronisation -/

/-- R130, R282, R289, R291–R302, R317: a word whose condition does not hold parks its context until it does; a bounded one has its expiry to come, and
where nothing of the bound is left it has no effect and takes cause 0x12 with its word in FINFO. R282, R189, R300: when a bound has run out and neither
the condition holds nor the message has its space, the wait takes its trap, `SENDB` cause 0x15 and every other cause 0x12, and a request for the lease is
withdrawn; where the condition holds in that cycle it wins, and the bound is judged again while the word has not gone on. R189, R190: `LEASEB` asks the
arbiter even where the lease is free, so that a bound of 0 expires there too (DEDUCED: log entry 80). R291: `WFE` will return 0, unless it has been woken.
A wait that has ended before is not touched. -/
def Obligations.WordsThatWait : Prop :=
  ((∀ i s lim, NotYet i s lim → Ready i s → Fresh s → lim ≠ some 0 → Waits i s lim (.boundedWaitExpiry s.act.1 s.act.2)) ∧
  (∀ i s b, NotYet i s (some b) → Ready i s → s.me.park = .no → s.me.answer = none → s.me.leftHere.getD b = 0 →
    ∃ u : State, exec i s = .next (u.trap ⟨0x12, 0, (wordOf i).setWidth 64⟩) ∧
      u = { s.begin.onMe (fun c => { c with left := none }) with tlb := u.tlb, fresh := u.fresh, ropes := u.ropes }) ∧
  ∀ st d a s, Ready (.wfe st d a) s → Fresh s → s.me.defer = none → s.myCore.task.event = false →
    Waits (.wfe st d a) s (if (s.g a).toNat % 2 ^ 32 = 0 then none else some ((s.g a).toNat % 2 ^ 32)) (.wfeTimeout s.act.1 s.act.2)) ∧
  (∀ s n k tok,
    (∀ w, (s.ctx n k).park = .cond w → w.token = tok →
      ((s.core n).failing = none → s.sendHolds tok = false → s.waitHolds n k w.instr = false →
        ∃ u : State, exec (.boundedWaitExpiry n k tok) s =
            .next (u.takeTrap n k ⟨expiryCause w.instr, 0, (wordOf w.instr).setWidth 64⟩
              (s.ctx n k).pc false false false) ∧
          u = { s with cores := u.cores, ropes := u.ropes } ∧ (∀ m j, (m, j) ≠ (n, k) → u.ctx m j = s.ctx m j) ∧
          u.ctx n k = { s.ctx n k with left := none } ∧ (∀ r, r ≠ n / 8 → u.rope r = s.rope r) ∧
          u.rope (n / 8) = { s.rope (n / 8) with waiting := (s.rope (n / 8)).waiting.filter fun x => x.1 != 16 * n + k }) ∧
      (s.sendHolds tok = true → exec (.boundedWaitExpiry n k tok) s = .next s) ∧
      ((s.core n).failing = none → s.sendHolds tok = false → s.waitHolds n k w.instr = true →
        ∃ t, exec (.boundedWaitExpiry n k tok) s = .next t ∧ t = { s with queue := t.queue } ∧ (∀ e, e ∈ s.queue → e ∈ t.queue) ∧
          (s.now + 1, Ev.boundedWaitExpiry n k tok) ∈ t.queue) ∧
      ∃ t, exec (.wfeTimeout n k tok) s = .next t ∧ t = { s with cores := t.cores } ∧
        (∀ m j, (m, j) ≠ (n, k) → t.ctx m j = s.ctx m j) ∧ t.ctx n k = { s.ctx n k with answer := (s.ctx n k).answer.orElse fun _ => some (0, 0, 0) }) ∧
    ((∀ w, (s.ctx n k).park = .cond w → w.token ≠ tok) → exec (.boundedWaitExpiry n k tok) s = .next s ∧
      ∃ t, exec (.wfeTimeout n k tok) s = .next t ∧ ∀ m j, t.ctx m j = s.ctx m j))
/-- R287–R289, R137, R267, R268: `BELAY` releases, arrives and waits for its counter to move, and then acquires and records a cairn; `BARR` releases,
arrives, reads GEN and records a cairn; `BWAIT` acquires where GEN has moved. A bad belay word takes cause 0x01 (its FADDR and FINFO: log entry 13); a
guard record that stands as the word first issues takes cause 0x09. R288: an
arrival is counted at its node, and a release that travels down advances GEN of the node and goes on to the children that arrived in that count. No
register and no byte of memory changes. -/
def Obligations.BelaysAndTheirTree : Prop :=
  ((∀ st sc a s, Ready (.belay st sc a) s → (∀ x y z, s.me.park ≠ .belay x y z) → BelayWord sc (s.g a) →
    s.myCore.guardrec.getLsbD 63 = false → Quiet s → s.unstarted s.act.1 s.act.2 = [] →
    ∃ t, exec (.belay st sc a) s = .next t ∧ s.me.SameRegs t.me ∧ KeepsSpecials s.now s.me t.me ∧ t.me.pc = s.me.pc ∧
      t.me.park = .belay sc (ropeCounter s sc (s.g a)).id (s.belayAt (ropeCounter s sc (s.g a))).gen ∧ Released s t sc ∧
      Arrives s t (ropeCounter s sc (s.g a)) ((s.g a).toNat % 128) s.arriver (s.g a) ∧ t.mem = s.mem ∧ t.locs = s.locs ∧
      OthersSame s t ∧ t.myCore.banks = s.myCore.banks) ∧
  (∀ st sc a s x y z, Ready (.belay st sc a) s → s.me.park = .belay x y z → AtRest s →
    ∃ t, exec (.belay st sc a) s = .next t ∧ s.me.SameRegs t.me ∧ Acquired s t sc ∧ CairnAt s t ∧ GoesOn s t st ∧ SameAfter sc s t ∧
      t.belays = s.belays) ∧
  (∀ st sc d a s, Ready (.barr st sc d a) s → BelayWord sc (s.g a) → s.myCore.guardrec.getLsbD 63 = false → Quiet s →
    s.unstarted s.act.1 s.act.2 = [] →
    ∃ t, exec (.barr st sc d a) s = .next t ∧ GetsNow s t d ((s.belayAt (ropeCounter s sc (s.g a))).gen.setWidth 64) ∧
      CairnAt s t ∧ GoesOn s t st ∧ Released s t sc ∧
      Arrives s t (ropeCounter s sc (s.g a)) ((s.g a).toNat % 128) s.arriver (s.g a) ∧ t.mem = s.mem ∧ t.locs = s.locs ∧
      OthersSame s t ∧ t.myCore.banks = s.myCore.banks) ∧
  (∀ st sc a b s, Ready (.bwait st sc a b) s → BelayWord.BelayId sc (s.g a) → s.myCore.guardrec.getLsbD 63 = false →
    AtRest s → (s.belayAt (ropeCounter s sc (s.g a))).gen ≠ (s.g b).setWidth 16 →
    ∃ t, exec (.bwait st sc a b) s = .next t ∧ Ends s t st ∧ Acquired s t sc ∧ SameAfter sc s t ∧ t.belays = s.belays) ∧
  ∀ i s sc a ok, (∃ st, i = .belay st sc a ∧ ok = BelayWord sc (s.g a)) ∨ (∃ st d, i = .barr st sc d a ∧ ok = BelayWord sc (s.g a)) ∨
      (∃ st b, i = .bwait st sc a b ∧ ok = BelayWord.BelayId sc (s.g a)) →
    Ready i s → (∀ x y z, s.me.park ≠ .belay x y z) →
    (¬ ok → Traps i s ⟨0x01, s.me.pc.setWidth 64, (wordOf i).setWidth 64⟩) ∧
    (ok → s.me.park ≠ .drain → (∀ w, s.me.park ≠ .cond w) → s.myCore.guardrec.getLsbD 63 = true → exec i s = .next (s.begin.deferred ⟨0x09, guardAddr s.myCore.guardrec, 0⟩))) ∧
  ((∀ k expect child w s, ∃ t, exec (.belayArrival k expect child w) s = .next t ∧ Arrives s t k expect child w ∧
    t = { s with belays := t.belays, queue := t.queue } ∧ ∀ e, e ∈ s.queue → e ∈ t.queue) ∧
  ∀ k s, ∃ t, exec (.belayRelease k) s = .next t ∧ (t.belayAt k).gen = (s.belayAt k).gen + 1 ∧
    (∀ j, j ≠ k → t.belayAt j = s.belayAt j) ∧ t = { s with belays := t.belays, queue := t.queue } ∧
    (∀ e, e ∈ s.queue → e ∈ t.queue) ∧
    (k.level ≠ 0 → ∀ c cs, (s.belayAt k).sent = c :: cs → (t.belayAt k).sent = cs ∧ ∀ ch ∈ c,
      (s.now + s.lat.belay, Ev.belayRelease { k with level := k.level - 1, node := ch }) ∈ t.queue))
/-- R291: `EVSIG` releases at device scope and sends a signal to the core that ga names (reserved bits take cause 0x01, log entry 13); the signal sets
the latch of every bound task of the identifier there and wakes every context of the task on the core that is parked in `WFE`, so that it returns 1; `WFE`
takes the latch, or the answer that a signal or its bound gave. R292, R233: `CWAIT` and `CWAITB` go on with an acquire of device scope where the object
that a fresh read shows has reached gb, or was seen to have reached it; `CWAITB` delivers the value observed. R268: loads in flight are answered before
these acquires, and one that a page fault holds keeps the word where it is. What a fresh read may find of an evicted copy
is log entry 7. -/
def Obligations.SignalsAndCompletions : Prop :=
  ((∀ st a s, Ready (.evsig st a) s →
    ((s.g a).toNat < 2 ^ 11 → Quiet s → ∃ t, exec (.evsig st a) s = .next t ∧ Ends s t st ∧ Released s t .device ∧
      t.mem = s.mem ∧ t.locs = s.locs ∧ OthersSame s t ∧ t.myCore.banks = s.myCore.banks ∧
      let r := (s.g a).toNat / 8 % 64
      if r < 48 then (s.now + s.lat.evsig, Ev.eventSignalArrival ((s.g a).toNat / 512 * 384 + r * 8 + (s.g a).toNat % 8) s.asid) ∈ t.queue
      else t.queue = s.queue) ∧
    (2 ^ 11 ≤ (s.g a).toNat → Traps (.evsig st a) s ⟨0x01, s.me.pc.setWidth 64, (wordOf (.evsig st a)).setWidth 64⟩)) ∧
  (∀ core asid s, ∃ t, exec (.eventSignalArrival core asid) s = .next t ∧ t = { s with cores := t.cores } ∧
    (∀ n, n ≠ core → t.core n = s.core n) ∧
    (∀ j, (t.core core).slot j = { (s.core core).slot j with
      event := ((s.core core).slot j).event || (((s.core core).slot j).v && ((s.core core).slot j).asid == asid) }) ∧
    ∀ k,
      let woken := (s.core core).on ≠ none ∧ (s.core core).asid = asid ∧ k ∈ (s.core core).live ∧
        ∃ w st d a, (s.ctx core k).park = .cond w ∧ w.instr = .wfe st d a
      (woken → t.ctx core k = { s.ctx core k with answer := some (1, 0, 0) }) ∧ (¬ woken → t.ctx core k = s.ctx core k)) ∧
  ∀ st d a s, Ready (.wfe st d a) s → s.me.defer = none →
    (s.myCore.task.event = true ∨ s.me.answer ≠ none → HeldBack (.wfe st d a) s) ∧
    (s.myCore.task.event = true → s.flightsOf s.act.1 s.act.2 = [] → ∃ t, exec (.wfe st d a) s = .next t ∧ GetsNow s t d 1 ∧ Acquired s t .device ∧
      KeepsSpecials s.now s.me t.me ∧ GoesOn s t st ∧ t.mem = s.mem ∧ t.locs = s.locs ∧ OthersAfter .device s t ∧
      t.myCore.task = { s.myCore.task with event := false } ∧ t.myCore.banks = s.myCore.banks) ∧
    (s.myCore.task.event = false → s.flightsOf s.act.1 s.act.2 = [] → ∀ v c f, s.me.answer = some (v, c, f) → ∃ t, exec (.wfe st d a) s = .next t ∧ GetsNow s t d v ∧
      Acquired s t .device ∧ KeepsSpecials s.now s.me t.me ∧ GoesOn s t st ∧ SameAfter .device s t)) ∧
  (∀ i s st a b d lim, ObjectWaits i st a b d lim → Ready i s → s.me.defer = none →
    let va : VA := (s.g a).setWidth 56
    let done := fun (x : W64) => ∃ t, exec i s = .next t ∧ (match d with | some r => GetsNow s t r x | none => s.me.SameRegs t.me) ∧
      Acquired s t .device ∧ KeepsSpecials s.now s.me t.me ∧ GoesOn s t st ∧ t.mem = s.mem ∧ t.flights = s.flights ∧
      t.queue = s.queue ∧ OthersAfter .device s t ∧ t.myCore.banks = s.myCore.banks
    (va.toNat % 8 ≠ 0 → Traps i s ⟨0x03, va.setWidth 64, 0⟩) ∧
    (va.toNat % 8 = 0 → (∀ x, s.place s.act.1 .read va 8 = .trap x → Traps i s x) ∧
      ((∃ x, Shows s va x) → s.me.answer ≠ none → HeldBack i s) ∧
      (s.flightsOf s.act.1 s.act.2 = [] → (∃ x, Shows s va x) →
        (s.me.answer = none → (∀ x, Shows s va x → Reached x (s.g b)) → ∃ x, Shows s va x ∧ done x) ∧
        ∀ x c f, s.me.answer = some (x, c, f) → done x)))
/-- R293, R294, R137: `QPUSH` sends its value to the queue that ga names and records a cairn; it arrives ten cycles later; the pops take the oldest
entry, acquire at rope scope and record a cairn. Reserved bits take cause 0x01 (its FADDR and FINFO: log entry 13), no such queue cause 0x06, as
does a push that waits when its target core has another task. -/
def Obligations.RopeQueues : Prop :=
  (∀ st a b s, Ready (.qpush st a b) s → Fresh s →
    (QueueWord 0xFFFFFFFFFFFFFF88 (s.g a) → PushTarget s (s.g a) → Quiet s → s.unstarted s.act.1 s.act.2 = [] →
      s.queueRoom (pushCore s (s.g a)) (queueIn (s.g a)) = true → ∃ t, exec (.qpush st a b) s = .next t ∧ s.me.SameRegs t.me ∧
        CairnAt s t ∧ GoesOn s t st ∧ Released s t .rope ∧ t.mem = s.mem ∧ t.locs = s.locs ∧ OthersSame s t ∧
        t.myCore.banks = s.myCore.banks ∧ (s.now + 10, Ev.queueEntryArrival (pushCore s (s.g a))
          (s.core (pushCore s (s.g a))).task.bind (queueIn (s.g a)) (s.g b)) ∈ t.queue ∧ ∀ e, e ∈ s.queue → e ∈ t.queue) ∧
    (¬ QueueWord 0xFFFFFFFFFFFFFF88 (s.g a) → Traps (.qpush st a b) s ⟨0x01, s.me.pc.setWidth 64, (wordOf (.qpush st a b)).setWidth 64⟩) ∧
    (QueueWord 0xFFFFFFFFFFFFFF88 (s.g a) → ¬ PushTarget s (s.g a) → Traps (.qpush st a b) s ⟨0x06, 0, 0⟩)) ∧
  (∀ st a b s w, Ready (.qpush st a b) s → s.me.park = .cond w → QueueWord 0xFFFFFFFFFFFFFF88 (s.g a) → PushTarget s (s.g a) →
    w.bind ≠ (s.core (pushCore s (s.g a))).task.bind → Traps (.qpush st a b) s ⟨0x06, 0, 0⟩) ∧
  (∀ core task q x s, q ≤ 17 → ∃ t, exec (.queueEntryArrival core task q x) s = .next t ∧ t.mem = s.mem ∧ t.queue = s.queue ∧
    (∀ n, n ≠ core → t.core n = s.core n) ∧ (∀ n k, t.ctx n k = s.ctx n k) ∧
    let here := (s.core core).on ≠ none ∧ (s.core core).task.bind = task ∧ HasQueue (s.core core) q
    (here → queueOfCore (t.core core) q = queueOfCore (s.core core) q ++ [⟨s.next, x, s.tick, false⟩] ∧
      ∀ p, p ≤ 17 → p ≠ q → queueOfCore (t.core core) p = queueOfCore (s.core core) p) ∧ (¬ here → t = s)) ∧
  ∀ i s st d a lim, Pops i st d a lim → Ready i s → Fresh s →
    (QueueWord 0xFFFFFFFFFFFFFF8F (s.g a) → HasQueue s.myCore (queueIn (s.g a)) →
      (∀ e es, queueOfCore s.myCore (queueIn (s.g a)) = e :: es → e.bad = false → AtRest s →
        s.unstarted s.act.1 s.act.2 = [] → ∃ t, exec i s = .next t ∧ GetsNow s t d e.val ∧ CairnAt s t ∧ GoesOn s t st ∧ Acquired s t .rope ∧ t.mem = s.mem ∧
          t.queue = s.queue ∧ OthersSame s t ∧ queueOfCore t.myCore (queueIn (s.g a)) = es ∧
          (∀ q, q ≤ 17 → q ≠ queueIn (s.g a) → queueOfCore t.myCore q = queueOfCore s.myCore q)) ∧
      (∀ e es, queueOfCore s.myCore (queueIn (s.g a)) = e :: es → e.bad = true → Traps i s ⟨0x13, 0, 0⟩)) ∧
    (¬ QueueWord 0xFFFFFFFFFFFFFF8F (s.g a) → Traps i s ⟨0x01, s.me.pc.setWidth 64, (wordOf i).setWidth 64⟩) ∧
    (QueueWord 0xFFFFFFFFFFFFFF8F (s.g a) → ¬ HasQueue s.myCore (queueIn (s.g a)) → Traps i s ⟨0x06, 0, 0⟩)
/-- R295, R296: `FUTSET` releases, writes VALUE, advances GEN and returns it; without a route it is dropped, the poison is kept for a later word, and
what it returns is free (R285, R342, log entry 27); the future waits return VALUE and acquire where GEN has reached gd.
R297–R300: `SEND` and `SENDB` release, send their message and wait; what its receiver answers is delivered in gd: 0 placed, 1 no such task. A bound of
zero without space, messages on their way counted (DEDUCED: log entry 25), takes cause 0x15 with the word in FINFO (DEDUCED: log entry 116), reserved bits cause 0x01 (its FADDR and FINFO: log entry 13); a message without space waits
for the next cycle with those behind it; the receives take the oldest message, acquire at device scope and record a cairn. -/
def Obligations.FuturesAndMessages : Prop :=
  ((∀ st d a b s e pa, Ready (.futset st d a b) s → ((s.g a).setWidth 56).toNat % 16 = 0 → Quiet s →
    s.place s.act.1 .futWrite ((s.g a).setWidth 56) 16 = .memory e pa → s.noRoute pa = true →
    ∃ t x, exec (.futset st d a b) s = .next t ∧ GetsNow s t d x ∧ KeepsSpecials s.now s.me t.me ∧ Released s t .device ∧
      AwaitsHome s t (if isRemote pa then s.lat.remote else s.lat.load) ∧ t.mem = s.mem ∧ t.locs = s.locs ∧
      t.me.defer = some (0x13, ((s.g a).setWidth 56).setWidth 64) ∧ OthersSame s t ∧ t.myCore.banks = s.myCore.banks) ∧
  (∀ st d a b s e pa, Ready (.futset st d a b) s → ((s.g a).setWidth 56).toNat % 16 = 0 → Quiet s →
    s.place s.act.1 .futWrite ((s.g a).setWidth 56) 16 = .memory e pa → s.noRoute pa = false →
    ∃ t, exec (.futset st d a b) s = .next t ∧ GetsNow s t d (s.phys64 (pa + 8) + 1) ∧ KeepsSpecials s.now s.me t.me ∧
      Released s t .device ∧ AwaitsHome s t (if isRemote pa then s.lat.remote else s.lat.load) ∧ t.phys64 pa = s.g b ∧
      t.phys64 (pa + 8) = s.phys64 (pa + 8) + 1 ∧ (∀ x, x < pa ∨ pa + 16 ≤ x → t.byte x = s.byte x) ∧ t.locs = s.locs ∧
      OthersSame s t ∧ t.myCore.banks = s.myCore.banks) ∧
  (∀ i s st d a lim e pa, FutureWaits i st d a lim → Ready i s → ((s.g a).setWidth 56).toNat % 16 = 0 → AtRest s →
    s.place s.act.1 .futRead ((s.g a).setWidth 56) 16 = .memory e pa → Reached (s.phys64 (pa + 8)) (s.g d) →
    ∃ t, exec i s = .next t ∧ GetsNow s t d (s.phys64 pa) ∧ KeepsSpecials s.now s.me t.me ∧ Acquired s t .device ∧ GoesOn s t st ∧
      t.mem = s.mem ∧ t.locs = s.locs ∧ t.queue = s.queue ∧ OthersAfter .device s t ∧ t.myCore.banks = s.myCore.banks) ∧
  ∀ i s a k, (∃ st d lim, FutureWaits i st d a lim ∧ k = Kind.futRead) ∨ (∃ st d b, i = .futset st d a b ∧ k = .futWrite) → Ready i s →
    (((s.g a).setWidth 56).toNat % 16 ≠ 0 → Traps i s ⟨0x03, ((s.g a).setWidth 56).setWidth 64, 0⟩) ∧
    (((s.g a).setWidth 56).toNat % 16 = 0 → ∀ x, s.place s.act.1 k ((s.g a).setWidth 56) 16 = .trap x → Traps i s x)) ∧
  ((∀ i s st d a b lim, Sends i st d a b lim → Ready i s →
    let x := s.g a
    (x.toNat / 2 ^ 11 % 2 ^ 21 ≠ 0 → Traps i s ⟨0x01, s.me.pc.setWidth 64, (wordOf i).setWidth 64⟩) ∧
    (x.toNat / 2 ^ 11 % 2 ^ 21 = 0 →
      (∀ v c f, s.me.answer = some (v, c, f) → ∃ t, exec i s = .next t ∧ GetsNow s t d v ∧ KeepsSpecials s.now s.me t.me ∧
        GoesOn s t st ∧ OnlyMe s t) ∧
      let room := ∀ n, coreNamed x = some n →
        s.sendRoom n s.asid (BitVec.ofNat 32 (x.toNat / 2 ^ 32)) (s.underWay n s.asid (BitVec.ofNat 32 (x.toNat / 2 ^ 32))) = true
      let left := if lim s = some 0 then none else lim s
      (Fresh s → Quiet s → lim s ≠ some 0 ∨ room → ∃ t, exec i s = .next t ∧ s.me.SameRegs t.me ∧ KeepsSpecials s.now s.me t.me ∧
        t.me.pc = s.me.pc ∧ t.me.park = .cond ⟨s.now, left, s.next, i, 0⟩ ∧ Released s t .device ∧ t.mem = s.mem ∧ OthersSame s t ∧
        t.myCore.banks = s.myCore.banks ∧ (∀ e, e ∈ s.queue → e ∈ t.queue) ∧
        (∀ n, left = some n → (s.now + n, Ev.boundedWaitExpiry s.act.1 s.act.2 s.next) ∈ t.queue) ∧
        match coreNamed x with
        | some n => (s.now + s.lat.msg, Ev.messageDelivery n (BitVec.ofNat 32 (x.toNat / 2 ^ 32)) s.asid (s.g b) s.act.1 s.act.2 s.next) ∈ t.queue
        | none => t.me.answer = some (1, 0, 0)) ∧
      (Fresh s → Quiet s → lim s = some 0 → ¬ room →
        ∃ u : State, exec i s = .next (u.trap ⟨0x15, 0, (wordOf i).setWidth 64⟩) ∧ u.queue = s.queue ∧ u.mem = s.mem ∧ s.me.SameRegs u.me))) ∧
  (∀ core id asid x n k tok s, (s.ctx n k).waitsOn tok = true →
    ∃ t, exec (.messageDelivery core id asid x n k tok) s = .next t ∧ t.mem = s.mem ∧ (∀ m, m ≠ core → m ≠ n → t.core m = s.core m) ∧
      (∀ m j, (m, j) ≠ (n, k) → t.ctx m j = s.ctx m j) ∧
      match (s.core core).slotOf asid id with
      | none => t.ctx n k = { s.ctx n k with answer := some (1, 0, 0) } ∧ t.queue = s.queue
      | some j =>
        let box := (s.core core).banks.fifoAt 18
        let e : FifoEnt := ⟨s.next, x, s.tick, false⟩
        if (s.core core).on = some j ∧ (s.core core).banks.role 18 = 2 ∧ box.length < 2048 then
          (t.core core).banks.fifoAt 18 = box ++ [e] ∧ t.ctx n k = { s.ctx n k with answer := some (0, 0, 0) } ∧ t.queue = s.queue
        else if ((s.core core).slot j).msgs.length < 2048 then
          ((t.core core).slot j).msgs = ((s.core core).slot j).msgs ++ [e] ∧
            t.ctx n k = { s.ctx n k with answer := some (0, 0, 0) } ∧ t.queue = s.queue
        else t.ctx n k = s.ctx n k ∧ (s.now + 1, Ev.messageDelivery core id asid x n k tok) ∈ t.queue ∧
          ∀ y ∈ s.queue, if y.1 ≤ s.now ∧ y.2.sameReceiver (.messageDelivery core id asid x n k tok) = true then (s.now + 1, y.2) ∈ t.queue
            else y ∈ t.queue) ∧
  (∀ core id asid x n k tok s, (s.ctx n k).waitsOn tok = false → exec (.messageDelivery core id asid x n k tok) s = .next s) ∧
  ∀ i s st d lim e, Receives i st d lim → Ready i s → Fresh s → Oldest s.myCore e → AtRest s →
    s.unstarted s.act.1 s.act.2 = [] →
    (e.bad = false → ∃ t, exec i s = .next t ∧ GetsNow s t d e.val ∧ CairnAt s t ∧ GoesOn s t st ∧ Acquired s t .device ∧
      t.mem = s.mem ∧ t.queue = s.queue ∧ OthersAfter .device s t ∧
      t.myCore.task.msgs = s.myCore.task.msgs.filter (fun m => m.n != e.n) ∧
      t.myCore.banks.fifoAt 18 = (s.myCore.banks.fifoAt 18).filter fun m => m.n != e.n) ∧
    (e.bad = true → Traps i s ⟨0x13, 0, 0⟩))

/-! ### Vector memory -/

/-- R175–R178, R166: a vector memory word that passes its checks takes a ring entry; where its active lanes lie in no aperture, and what a store writes
not in the core's own pages, it is in flight afterwards, and its context goes on; a tag that breaks R41 and an element beyond 2^56 take cause 0x07, whose
FADDR is the model's reading (log entry 20). R175–R178, R41, R168: a vector load from the core's own scratch writes every active lane, and a vector store
writes the own bits of every active lane's element in ascending order of the lanes, at once; flags are raised as a vector word raises them. -/
def Obligations.VectorMemory : Prop :=
  (∀ i s st ptr sc e m kind, VecWords i st ptr sc e m kind → Ready i s → RingFree s →
    (VecOk (ptr s) sc (e s) (m s) → LanesLeave s (ptr s) sc (e s) (m s) (match kind s with | .vstore _ _ _ _ _ _ => true | _ => false) →
      ∃ t ev fl, exec i s = .next t ∧ KeepsSpecials s.now s.me t.me ∧ GoesOn s t st ∧
        (ev = .loadAnswered s.next ∨ ev = .storePerformed s.next) ∧
        Flies s t ⟨s.next, s.act.1, s.act.2, s.asid, kind s, ⟨(ptr s).setWidth 56, 64, 0, 0⟩, s.myCore.ringCtr, wordOf i, s.me.hm, false, s.me.pc⟩
          ev s.lat.load ∧
        t.myCore.ring.head? = some ⟨s.myCore.ringCtr, wordOf i, s.act.2, true, false, fl, s.me.pc, s.now, s.me.hm⟩) ∧
    (sc = false → (ptr s).toNat % 4 ≠ 0 → Traps i s ⟨0x03, ptr s, 0⟩) ∧
    (sc = true → tagged (ptr s) = none → Traps i s ⟨0x07, ((ptr s).setWidth 56).setWidth 64, 0⟩) ∧
    ∀ t, sc = true → tagged (ptr s) = some t →
      (tagAligned t = false → Traps i s ⟨0x03, t.va.setWidth 64, 0⟩) ∧
      (tagAligned t = true → ∀ j, j < 16 → (m s).getLsbD j = true →
        2 ^ 56 < e s j ∨ 2 ^ 56 < t.va.toNat + elemOff t.fmt t.blog (e s j) + elemSize t.fmt → Traps i s ⟨0x07, t.va.setWidth 64, 0⟩)) ∧
  ((∀ i s st ptr sc e m kind v idx (r : Fin 16 → W32 × FFlags), VecWords i st ptr sc e m kind →
    kind s = .vload v (ptr s) sc idx (m s) → Ready i s → RingFree s → s.flightsOf s.act.1 s.act.2 = [] → (∀ f ∈ s.flights, f.id < s.next) → VecOk (ptr s) sc (e s) (m s) →
    (∀ j : Fin 16, (m s).getLsbD j.val = true → LaneRead s (ptr s) sc (e s j.val) j.val (r j)) →
    ∃ t, exec i s = .next t ∧ AtOnce i s t st (flagsOf (m s) fun j => (r j).2) ∧ t.myCore.banks = s.myCore.banks ∧
      (∀ j, (t.me.vget v).get j = if (m s).getLsbD j.val then (r j).1 else (s.v v).get j) ∧
      (∀ q, q ≠ v → t.me.vget q = s.v q) ∧ t.me.g = s.me.g ∧ t.me.hg = s.me.hg ∧ t.me.p = s.me.p ∧ t.me.pend = s.me.pend) ∧
  ∀ i s st ptr sc e m kind x idx mode (w : Fin 16 → Nat × Nat × W64 × W64) f, VecWords i st ptr sc e m kind →
    kind s = .vstore x (ptr s) sc idx (m s) mode → Ready i s → RingFree s → s.flightsOf s.act.1 s.act.2 = [] →
    (∀ f ∈ s.flights, f.id < s.next) → VecOk (ptr s) sc (e s) (m s) →
    (∀ j : Fin 16, (m s).getLsbD j.val = true → LaneWrite s (ptr s) sc (e s j.val) j.val (x.get j) (w j) (f j)) →
    ∃ t, exec i s = .next t ∧ AtOnce i s t st (flagsOf (m s) f) ∧ s.me.SameRegs t.me ∧
      t.myCore.banks = (List.finRange 16).foldl (fun b j =>
        if (m s).getLsbD j.val then b.store (w j).1 (w j).2.1 (w j).2.2.1 (w j).2.2.2 else b) s.myCore.banks)
/-- R167, R168, R178–R180, R263, R266: a plain vector load in flight on pages writes each active lane that nothing stops with a value that a load of its
bytes may return, a plain vector store makes each such lane the latest of its bytes; an access with a lane that a trap stops reports the lowest such lane
imprecisely with its word and ring entry, a DEVICE page being cause 0x06 (DEDUCED: log entry 26), delivers and stores its other lanes, and writes none
where a lane of a load is stale (DESIGN CHOICE: log entry 103); one that meets a page fault stays in flight,
held. That an evicted copy is brought up to date is the model's reading (log entry 7); the loads here find room. -/
def Obligations.PerformingVectorAccesses : Prop :=
  ∀ s f, s.flights.find? (fun g => g.id == f.id) = some f → s.before f = [f] → f.stuck = false → (s.core f.core).asid = f.asid →
    (s.ctx f.core f.ctx).fault = none →
    let c := s.ctx f.core f.ctx
    (∀ v ptr idx m d e, f.kind = .vload v ptr false idx m → ptr.toNat % 4 = 0 → LanesOn s f.core f.asid .read ptr d e →
      Stopped s f.core .read ptr m d → (∀ j : Fin 16, d.getLsbD j.val = true → (e j).cls ≠ .device ∧ NoDirty s f.asid (laneVA ptr false 0 j.val) (e j)) →
      ∃ t, exec (.loadAnswered f.id) s = .next t ∧ t.flights = s.flights.filter (fun g => g.id != f.id) ∧ t.mem = s.mem ∧
        (∀ j : Fin 16, d.getLsbD j.val = true → ∃ x, MayRead s c false f.asid (laneVA ptr false 0 j.val) 4 (e j) x ∧ ((t.ctx f.core f.ctx).vget v).get j = x.setWidth 32) ∧
        (∀ j : Fin 16, d.getLsbD j.val = false → ((t.ctx f.core f.ctx).vget v).get j = (c.vget v).get j) ∧
        (∀ q, q ≠ v → (t.ctx f.core f.ctx).vget q = c.vget q) ∧ (t.ctx f.core f.ctx).g = c.g ∧ (t.ctx f.core f.ctx).hg = c.hg ∧
        (t.ctx f.core f.ctx).p = c.p ∧ (t.ctx f.core f.ctx).pc = c.pc) ∧
    (∀ x ptr idx m d mode e, f.kind = .vstore x ptr false idx m mode → ptr.toNat % 4 = 0 → LanesOn s f.core f.asid .write ptr d e →
      Stopped s f.core .write ptr m d → (∀ j : Fin 16, d.getLsbD j.val = true → hasOrder (e j) ((e j).pa (laneVA ptr false 0 j.val)) = true) →
      ∃ t, exec (.storePerformed f.id) s = .next t ∧ t.flights = s.flights.filter (fun g => g.id != f.id) ∧ t.mem = s.mem ∧
        (∀ j : Fin 16, d.getLsbD j.val = true → ∃ l, Table.find? (wordKey f.asid (laneVA ptr false 0 j.val)) t.locs = some l ∧
          (l.latest >>> (8 * ((laneVA ptr false 0 j.val).toNat % 8))) &&& 0xFFFFFFFF = (x.get j).setWidth 64) ∧
        (∀ k, (∀ j : Fin 16, d.getLsbD j.val = true → k ≠ wordKey f.asid (laneVA ptr false 0 j.val)) →
          Table.find? k t.locs = Table.find? k s.locs) ∧
        ∀ n k, (s.ctx n k).SameRegs (t.ctx n k)) ∧
    ∀ i ptr sc idx m w r, (∃ v, f.kind = .vload v ptr sc idx m ∧ i = .loadAnswered f.id ∧ w = Kind.read ∧ r = some v) ∨
        (∃ x mode, f.kind = .vstore x ptr sc idx m mode ∧ i = .storePerformed f.id ∧ w = .write ∧ r = none) →
      let ls := if w = .write ∧ sc = true then (lanesOf ptr sc idx m).map (·.forStore (vfmt ptr).1) else lanesOf ptr sc idx m
      (∀ x, s.lanesStop f.core w ls = some (.inl x) →
        ∃ t, exec i s = .next t ∧ t.flights = s.flights.filter (fun g => g.id != f.id) ∧
          (t.ctx f.core f.ctx).fault = some ((s.core f.core).impFault ⟨x.cause, x.faddr, f.word.setWidth 64, f.seq⟩) ∧
          (∀ n k, (n, k) ≠ (f.core, f.ctx) → (s.ctx n k).SameRegs (t.ctx n k)) ∧
          let y := t.ctx f.core f.ctx
          y.g = c.g ∧ y.hg = c.hg ∧ y.p = c.p ∧ y.pend = c.pend ∧ (∀ q, r ≠ some q → y.vget q = c.vget q) ∧
            ∀ q j, r = some q → (∀ l ∈ ls, l.i = j → s.laneStop f.core w l ≠ none) ∨
              (∃ l ∈ ls, ∃ z, s.laneStop f.core w l = some (.inl z) ∧ z.cause = 0x08) → (y.vget q).get j = (c.vget q).get j) ∧
      ∀ va u, s.lanesStop f.core w ls = some (.inr (va, u)) →
        ∃ t, exec i s = .next t ∧ t = { s with flights := t.flights } ∧
          t.flights = s.flights.map fun g => if g.id = f.id then { g with stuck := true } else g

/-! ### Engines -/

/-- R138, R139, R181, R182, R194, R205, R247: an engine word issues its command, to start at TBASE + gc; in a rerun the commands that had started are
suppressed by position, and the sixty-fourth command of a cairn region takes cause 0x1A. R103, R186, R189–R193: the lease words go on where their core
holds the lease; `LEASEND` ends the run where no array or ladder command of the core is still to start; `LEASEQ` reads the status word; `MDIM` sets
the matrix shape, and `MSEQ` the ring registers of commands that start more than four cycles later. An arbitration chooses the next waiting core in
turn, which holds the lease once the engines are free, for 8,192 cycles. FADDR and FINFO of cause 0x01 for an operand value are the model's reading
(log entry 13). -/
def Obligations.EngineWordsAndLeases : Prop :=
  (∀ i s st u a b off, EngineWords i st u a b off → Ready i s →
    (¬ (s.me.cairnpc.getLsbD 63 = true ∧ 63 ≤ s.me.issued) → s.me.suppress = 0 → RingFree s → (s.coreUnstarted s.act.1).length < 16 →
      s.flightsOf s.act.1 s.act.2 = [] → ∃ t, exec i s = .next t ∧ Ends s t st ∧ Commands i s t (a s) (b s) (off s)) ∧
    (¬ (s.me.cairnpc.getLsbD 63 = true ∧ 63 ≤ s.me.issued) → 0 < s.me.suppress → ∃ t, exec i s = .next t ∧ Ends s t st ∧ OnlyMe s t ∧
      t.me.suppress = s.me.suppress - 1 ∧ t.me.issued = (if s.me.cairnpc.getLsbD 63 then s.me.issued + 1 else s.me.issued)) ∧
    (s.me.cairnpc.getLsbD 63 = true → 63 ≤ s.me.issued → Traps i s ⟨0x1A, 0, 0x8000000000000000⟩)) ∧
  ((∀ st s, Ready (.lease st) s → s.holdsLease s.act.1 = true → ∃ t, exec (.lease st) s = .next t ∧ GoesOnOnly s t st) ∧
  (∀ st a s, Ready (.leaseb st a) s → s.holdsLease s.act.1 = true → ∃ t, exec (.leaseb st a) s = .next t ∧ GoesOnOnly s t st) ∧
  (∀ st s, Ready (.leasend st) s →
    (∀ l, (s.rope (s.act.1 / 8)).lease = some l → l.core = s.act.1 →
      (∀ c ∈ s.cmds, c.core = s.act.1 → c.phase = .waiting → ¬ Leased c.instr) → ∃ t, exec (.leasend st) s = .next t ∧ Ends s t st ∧
      RunEnds s t (s.act.1 / 8) l ∧ t.mem = s.mem ∧ OthersSame s t) ∧
    (s.holdsLease s.act.1 = false → ∃ t, exec (.leasend st) s = .next t ∧ GoesOnOnly s t st)) ∧
  (∀ st d s, Ready (.leaseq st d) s →
    let x := s.rope (s.act.1 / 8)
    let wait := ((List.range 8).filter fun i => (x.waiting.any fun w => w.1 / 16 % 8 == i && w.2 ≤ s.now) && i != s.act.1 % 8).length
    ∃ t, exec (.leaseq st d) s = .next t ∧ KeepsSpecials s.now s.me t.me ∧ GoesOn s t st ∧ OnlyMe s t ∧
      GetsNow s t d (match x.lease with
        | none => w64 (2 ^ 27 + wait * 2 ^ 16 : Nat)
        | some l =>
          let run := if s.now < l.at' then l.before else (l.at', l.cmds)
          w64 ((if l.core = s.act.1 then 2 ^ 63 + min 64 run.2 * 2 ^ 56 + (run.1 + 8192 - s.now) % 2 ^ 14 else 0) +
            l.core % 8 * 2 ^ 24 + wait * 2 ^ 16 : Nat))) ∧
  (∀ st a s, Ready (.mdim st a) s →
    (s.g a &&& 0xFFFFFFFFE0008080 = 0 → ∃ t, exec (.mdim st a) s = .next t ∧ t.me.mshape = s.g a ∧ s.me.SameRegs t.me ∧
      GoesOn s t st ∧ OnlyMe s t ∧ t.me.rmode = s.me.rmode ∧ t.me.cairnpc = s.me.cairnpc ∧ t.me.image = s.me.image) ∧
    (s.g a &&& 0xFFFFFFFFE0008080 ≠ 0 → Traps (.mdim st a) s ⟨0x01, s.me.pc.setWidth 64, (wordOf (.mdim st a)).setWidth 64⟩)) ∧
  (∀ st a s, Ready (.mseq st a) s →
    let x := (s.g a).toNat
    let r : RingReg := ⟨x % 256, x / 2 ^ 8 % 256, x / 2 ^ 16 % 256⟩
    let ok := x / 2 ^ 24 = 0 ∧ (r.len = 0 ∨ r.step ≠ 0) ∧ r.base + r.step * r.len ≤ 144
    (ok → ∃ t, exec (.mseq st a) s = .next t ∧ Ends s t st ∧ t = { s with cores := t.cores } ∧ OthersSame s t ∧
      t.myCore.banks = s.myCore.banks ∧
      ∀ u, t.myCore.active.ringAt u = if s.now + 4 < u then r else s.myCore.active.ringAt u) ∧
    (¬ ok → Traps (.mseq st a) s ⟨0x01, s.me.pc.setWidth 64, (wordOf (.mseq st a)).setWidth 64⟩)) ∧
  (∀ r s, (s.rope r).lease = none →
    ∀ n, Wins (s.rope r) s.now n → (∀ w ∈ (s.rope r).waiting, w.1 / 128 = r) →
    (max (s.rope r).arrayBusy (s.rope r).ladderBusy ≤ s.now →
      ∃ t, exec (.leaseGrant r) s = .next t ∧ (t.rope r).lease = some ⟨n, s.now, 0, (s.now, 0)⟩ ∧ (t.rope r).last = n ∧
        (t.rope r).chosen = none ∧
        (∀ w, w ∈ (t.rope r).waiting ↔ w ∈ (s.rope r).waiting ∧ w.1 / 16 ≠ n) ∧ (s.now + 8192, Ev.leaseRunEnd r s.now) ∈ t.queue ∧
        t.mem = s.mem ∧ ∀ m k, (s.ctx m k).SameRegs (t.ctx m k)) ∧
    (s.now < max (s.rope r).arrayBusy (s.rope r).ladderBusy →
      ∃ t, exec (.leaseGrant r) s = .next t ∧ t = { s with ropes := t.ropes, queue := t.queue } ∧
        t.rope r = { s.rope r with chosen := some n } ∧ (∀ q, q ≠ r → t.rope q = s.rope q) ∧
        (max (s.rope r).arrayBusy (s.rope r).ladderBusy, Ev.leaseGrant r) ∈ t.queue)) ∧
  ∀ r g s, ∃ t, exec (.leaseRunEnd r g) s = .next t ∧ t.mem = s.mem ∧ t.cores = s.cores ∧
    (∀ l, (s.rope r).lease = some l → if l.at' = g then RunEnds s t r l else t = s) ∧ ((s.rope r).lease = none → t = s))
/-- R103, R139–R141, R181, R183: an array or ladder command whose core does not hold the lease at its start faults with cause 0x19, imprecisely; a
command that is too early or out of turn is a timing fault: within a valid cairn whose retries are not used up the context returns to its cairn with
its commands withdrawn, and without a cairn it traps with cause 0x0B. Nothing is written. R139, R140, R190: the retry's resume puts the context back
into the round: at once, or, where the cairn held the lease, when its core has it again. -/
def Obligations.TimingFaultsAndRetries : Prop :=
  (∀ s c, Waiting s c → CmdLive s c →
    (Leased c.instr → s.holdsLease c.core = false → ∃ t, exec (.engineCommandStart c.core c.id) s = .next t ∧
      t.cmds = s.cmds.filter (fun d => d.id != c.id) ∧ (t.ctx c.core c.ctx).fault = some ((s.core c.core).impFault ⟨0x19, 0, c.word.setWidth 64, c.seq⟩) ∧
      t.mem = s.mem ∧ (∀ n k, (s.ctx n k).SameRegs (t.ctx n k)) ∧
      ∀ n, (t.core n).banks = (s.core n).banks ∧ (t.core n).active = (s.core n).active) ∧
    ((∃ st u a b off, EngineWords c.instr st u a b off) → (Leased c.instr → s.holdsLease c.core = true) → TooEarly s c →
      (∀ img, (s.ctx c.core c.ctx).cairnV = true → (s.ctx c.core c.ctx).image = some img →
        (s.ctx c.core c.ctx).rcnt < (s.core c.core).check.toNat / 2 ^ 4 % 4 → s.running c.core c.ctx = [] →
        ∃ t, exec (.engineCommandStart c.core c.id) s = .next t ∧
          (∀ d ∈ t.cmds, d.core = c.core → d.ctx = c.ctx → d.phase ≠ .waiting) ∧ t.mem = s.mem ∧
          (s.now + 16, Ev.retryResume c.core c.ctx) ∈ t.queue ∧
          (let x := s.ctx c.core c.ctx
           let y := t.ctx c.core c.ctx
           y.g = img.g ∧ y.v = img.v ∧ y.p = img.p ∧ y.mshape = img.mshape ∧ y.pend = [] ∧
             y.pc = x.cairnpc.setWidth 56 &&& 0xFFFFFFFFFFFFFC ∧ y.rcnt = x.rcnt + 1 ∧ y.nfx = x.nfx ∧ y.suppress = x.nfx ∧
             y.issued = 0 ∧ y.park = .retry (s.now + 16) false ∧ y.hg = x.hg ∧ y.rmode = x.rmode)) ∧
      ((s.ctx c.core c.ctx).cairnV = false → (s.ctx c.core c.ctx).hm = false → ∃ u : State,
        exec (.engineCommandStart c.core c.id) s =
          .next (u.takeTrap c.core c.ctx ⟨0x0B, 0, 0⟩ (s.ctx c.core c.ctx).pc false false true) ∧
        u.cmds = s.cmds.filter (fun d => d.id != c.id) ∧ u.mem = s.mem ∧ ∀ n k, (s.ctx n k).SameRegs (u.ctx n k)))) ∧
  (∀ s n k c, (s.ctx n k).park = .retry c false → c ≠ 0 → c ≤ s.now →
    ((s.ctx n k).cairnpc.getLsbD 62 = false ∨ s.holdsLease n = true → ∃ t, exec (.retryResume n k) s = .next t ∧
      t = { s with cores := t.cores } ∧ (∀ m j, (m, j) ≠ (n, k) → t.ctx m j = s.ctx m j) ∧
      t.ctx n k = { s.ctx n k with park := .no, readyAt := s.now, anchor := true, dly := false }) ∧
    ((s.ctx n k).cairnpc.getLsbD 62 = true → s.holdsLease n = false → ∃ t, exec (.retryResume n k) s = .next t ∧
      (∃ w ∈ (t.rope (n / 8)).waiting, w.1 = 16 * n + k) ∧ (t.ctx n k).park = .retry c true ∧ t.mem = s.mem ∧
      ∀ m j, (s.ctx m j).SameRegs (t.ctx m j)))
/-- R195–R204, R187, R188: what the array's commands do at their start, with the lease, in time and with the array free, once their checks pass: `MZERO`
puts the start values into the tile, `MPROG` stores the micro-operations, `MMUL` adds to each element of the tile the chunk sums of its row and its
column, `MMAC` those of its row and the product of the node's factors, `MRUN` runs the program over them, `MREAD` encodes the tile's rows for its
destination and may clear the tile, `MLOAD` takes rows into the tile, and `MCOMB` merges triples into it; every other element is as before. R205–R209: so
the ladder: `LCFG` makes a configuration, `LWGT` sets its weights, `LSTEP` carries a rung up, `LREAD` and `LRUNG` deliver the blend and a rung, and `LCLR`
ends it. R247–R254, R99: so the copies, which keep what they have read, and whose data and bump come when they complete. Operands are read with the
rope-net stores that their core has made (R188, DESIGN CHOICE: log entry 86). R183, R187, R188, R99: a command that completes performs its scratch write,
with the tag that its descriptor names and a stamp on every granule written whole, marks its ring entry and is gone. -/
def Obligations.ArrayCommandsRun : Prop :=
  (∀ s c, ArrayReady s c →
    let M := c.mshape.toNat % 128 + 1
    let N := c.mshape.toNat / 2 ^ 8 % 128 + 1
    let K := c.mshape.toNat / 2 ^ 16 % 2 ^ 13 + 1
    let goes := fun (P : State → Prop) => ∃ u, exec (.engineCommandStart c.core c.id) s = .next u ∧ P u
    let old := fun (t : Tile) => s.tile c.core t
    let la := M * rowBytesOf (descFmt c.a) (descBlog c.a) K
    let lb := N * rowBytesOf (descFmt c.b) (descBlog c.b) K
    let oa := opnd c.a la true (arrayFmt (descFmt c.a))
    let ob := opnd c.b lb true (arrayFmt (descFmt c.b))
    (∀ st t r, c.instr = .mzero st t r → (old t).settled ≤ s.now → goes fun u => Begins s u c false 16 16 [] ∧
      IntoTile s u c t 16 (fun _ _ => 0) ∧ Sides s u c t M (fun _ => 0xFF800000) fun _ => 0) ∧
    (∀ st a r, c.instr = .mprog st a r → microBad (microOps c.a) = false → goes fun u =>
      Begins s u c false 4 4 [] ∧ (u.core c.core).active = { (s.core c.core).active with
        prog := ([0, 1, 2, 3].map fun k => c.a.extractLsb' (16 * k) 16).takeWhile fun m => m.extractLsb' 12 4 != 0 }) ∧
    (∀ st t a b r, c.instr = .mmul st t a b r →
      let F := feedOf K (descFmt c.a) (descFmt c.b)
      s.opndStops c.core c.asid [oa, ob] (8192 < F) = none → goes fun u => Begins s u c false F (max F (F + 160)) [] ∧ SameSides s u c t ∧
        IntoTile s u c t (F + 160) fun i j => chunkedSum ((old t).at' i j) (List.zipWith (fun x y => (mulExact x y).1)
          (operandRow s c.core c.a la K i) (operandRow s c.core c.b lb K j))) ∧
    (∀ st t a b r, c.instr = .mmac st t a b r →
      let k := c.core / 8 * 8 + c.b.toNat / 2 ^ 45 % 8
      let off := c.b.toNat / 2 ^ 24 % 2 ^ 19
      let h := c.b.toNat % 2 ^ 24
      let nd := s.seenNode (16 * c.core + c.ctx) c.asid h
      let len := 16 * ((2 * K * nd.rank + 15) / 16) + 2 * nd.rank * N
      let F := 4 * K * ((nd.rank + 15) / 16)
      s.opndStops c.core c.asid [oa] false = none → off % 16 = 0 → s.sameSpace k c.asid = true → s.handleOk c.asid h = true →
      nd.live = true → nd.enc = 3 → c.b.toNat / 2 ^ 43 % 4 = 0 → nd.rows = K → nd.cols = N → F ≤ 8192 → s.inScratch k off len = true →
      s.readStops [s.opndRange c.core oa, (k, off, len, BitVec.ofNat 16 (c.b.toNat / 2 ^ 48))] = none →
      let L := lowRankCodes K nd.rank N ((s.banksAhead c.core k).readBytes off len)
      goes fun u => Begins s u c false F (max F (F + 160)) [] ∧ SameSides s u c t ∧
        IntoTile s u c t (F + 160) fun i j => chunkedSum ((old t).at' i j) (List.zipWith (fun x y => (mulExact x y).1)
          (operandRow s c.core c.a la K i) ((List.range K).map fun a => chunkSum ((List.range nd.rank).map fun q =>
            (mulExact (bf16At L.1 (a * nd.rank + q)) (bf16At L.2 (q * N + j))).1)))) ∧
    (∀ st t a b r, c.instr = .mrun st t a b r →
      let prog := (s.core c.core).active.prog
      s.opndStops c.core c.asid [oa, ob] (8192 < 4 * K || prog.isEmpty) = none → goes fun u =>
        Begins s u c false (4 * K) (max (4 * K) (4 * K + 160)) [] ∧ SameSides s u c t ∧
        IntoTile s u c t (4 * K + 160) fun i j => (List.zip (operandRow s c.core c.a la K i) (operandRow s c.core c.b lb K j)).foldl
          (fun x e => (prog.foldl microStep (x, ne32 e.1, ne32 e.2, 0)).1) ((old t).at' i j)) ∧
    (∀ st t a b r, c.instr = .mread st t a b r →
      let triple := c.b.getLsbD 1
      let W := if triple then N + 2 else N
      let F := 32 + (M * W + 127) / 128
      (old t).settled ≤ s.now →
      s.opndStops c.core c.asid [opnd c.a (M * rowBytesOf (descFmt c.a) (descBlog c.a) W) false (converts c.a)]
        (c.b.extractLsb' 2 62 ≠ 0 || (triple && !plainF32 c.a)) = none →
      let data := (List.range M).flatMap fun i => encodeRow ((descFmt c.a).getD .raw) (descBlog c.a)
        (((if triple then [(old t).mxAt i, (old t).smAt i] else []) ++ (List.range N).map ((old t).at' i)).map f32)
      goes fun u => Begins s u c false F F [destWrite s c.core c.a data] ∧
        if c.b.getLsbD 0 then IntoTile s u c t F (fun _ _ => 0) ∧ Sides s u c t M (fun _ => 0xFF800000) fun _ => 0 else SameTiles s u c) ∧
    (∀ st t a b r, c.instr = .mload st t a b r →
      let triple := c.b.getLsbD 1
      let W := if triple then N + 2 else N
      let F := 32 + (M * W + 127) / 128
      let len := M * rowBytesOf (descFmt c.a) (descBlog c.a) W
      let x := fun (i j : Nat) => ((operandRow s c.core c.a len W i).map ne32).getD j 0
      (old t).settled ≤ s.now → s.opndStops c.core c.asid [opnd c.a len true (converts c.a)]
        (c.b.extractLsb' 2 62 ≠ 0 || c.b.getLsbD 0 || (triple && !plainF32 c.a)) = none →
      goes fun u => Begins s u c false F F [] ∧ IntoTile s u c t F (fun i j => x i (if triple then j + 2 else j)) ∧
        if triple then Sides s u c t M (fun i => x i 0) fun i => x i 1 else SameSides s u c t) ∧
    ∀ st t a r, c.instr = .mcomb st t a r →
      let F := 32 + (M * (N + 2) + 63) / 64
      let len := M * rowBytesOf (descFmt c.a) (descBlog c.a) (N + 2)
      let x := fun (i j : Nat) => BitVec.ofNat 32 ((groupsLE 4 (N + 2) ((opndData s c.core c.a len).drop (i * rowBytes .fp32 0 (N + 2)))).getD j 0)
      let z := fun (i : Nat) => rescaleCombine ⟨(old t).mxAt i, (old t).smAt i, (List.range N).map ((old t).at' i)⟩
        ⟨x i 0, x i 1, (List.range N).map fun j => x i (j + 2)⟩
      (old t).settled ≤ s.now → s.opndStops c.core c.asid [opnd c.a len true (plainF32 c.a)] false = none →
      goes fun u => Begins s u c false F F [] ∧ IntoTile s u c t F (fun i j => (z i).v.getD j 0) ∧
        Sides s u c t M (fun i => (z i).m) fun i => (z i).s) ∧
  (∀ s c, LadderReady s c →
    let goes := fun (D : Nat) (ws : List CmdWrite) (P : State → Prop) =>
      ∃ u, exec (.engineCommandStart c.core c.id) s = .next u ∧ Begins s u c true D D ws ∧ SameTiles s u c ∧ P u
    let word := fun (len k : Nat) => BitVec.ofNat 32 ((groupsLE 4 (len / 4) (opndData s c.core c.a len)).getD k 0)
    let size := fun (l : Ladder) => l.rows * rowBytes .fp32 0 l.cols
    let merge := fun (l : Ladder) => (l.rows * l.cols + 255) / 256
    (∀ st a r, c.instr = .lcfg st a r →
      let w0 := BitVec.ofNat 64 (leOf ((opndData s c.core c.a 80).take 8))
      let rows := 16 * (w0.toNat % 8 + 1)
      let cols := 16 * (w0.toNat / 2 ^ 4 % 8 + 1)
      s.opndStops c.core c.asid [opnd c.a 80 true (descFmt c.a = some .raw)]
        (w0 &&& 0xFFFFFFFFFFFFFC88 ≠ 0 || 262144 < s.ladderUsed c.core + 16 * rows * cols) = none →
      goes 32 [] fun u => u.ladder c.core = some ⟨rows, cols, w0.extractLsb' 8 2, word 80 2, word 80 3,
        (List.range 16).map fun k => word 80 (k + 4), [], 0, 0⟩) ∧
    (∀ st a r l, c.instr = .lwgt st a r → s.ladder c.core = some l →
      s.opndStops c.core c.asid [opnd c.a 64 true (plainF32 c.a)] false = none →
      goes 32 [] fun u => u.ladder c.core = some { l with w := (List.range 16).map (word 64) }) ∧
    (∀ st src a r l, c.instr = .lstep st src a r → s.ladder c.core = some l →
      let len := size l
      let from' := fun (xs : List W32) => goes (32 + merge l * (l.step xs).2) [] fun u => u.ladder c.core = some (l.step xs).1
      let tile := fun (t : Tile) => (List.range l.rows).flatMap fun i => (List.range l.cols).map ((s.tile c.core t).at' i)
      (src = .scr → s.opndStops c.core c.asid [opnd c.a len true (plainF32 c.a)] false = none →
        from' ((groupsLE 4 len (opndData s c.core c.a len)).map (BitVec.ofNat 32))) ∧
      (src = .t0 → (s.tile c.core .t0).settled ≤ s.now → from' (tile .t0)) ∧
      (src = .t1 → (s.tile c.core .t1).settled ≤ s.now → from' (tile .t1))) ∧
    (∀ st a r l, c.instr = .lread st a r → s.ladder c.core = some l →
      s.opndStops c.core c.asid [opnd c.a (size l) false (plainF32 c.a)] false = none →
      goes (32 + merge l * ((List.range 16).filter fun k => l.occ.getLsbD k).length)
        [destWrite s c.core c.a (l.blend.flatMap fun x => leBytes 4 x.toNat)] fun u => u.ladder c.core = some l) ∧
    (∀ st a b r l, c.instr = .lrung st a b r → s.ladder c.core = some l →
      s.opndStops c.core c.asid [opnd c.a (size l) false (plainF32 c.a)] (c.b.extractLsb' 4 60 ≠ 0) = none →
      goes (32 + merge l) [destWrite s c.core c.a ((l.rung (c.b.toNat % 16)).flatMap fun x => leBytes 4 x.toNat)]
        fun u => u.ladder c.core = some l) ∧
    ∀ st r, c.instr = .lclr st r → goes 4 [] fun u => u.ladder c.core = none) ∧
  (∀ (l : Ladder) (xs : List W32) (k : Nat), k < 16 → (∀ j, j < k → l.occ.getLsbD j = true) → l.occ.getLsbD k = false ∨ k = 15 →
    let up := (List.range k).foldl (fun acc j => l.mergeOf (l.rung j) acc) xs
    let m := (l.step xs).1
    (l.step xs).2 = k ∧ m.count = min (l.count + 1) (2 ^ 32 - 1) ∧ (∀ j, j < 16 → m.occ.getLsbD j = (if j < k then false else if j = k then true else l.occ.getLsbD j)) ∧
      m.rung k = (if l.occ.getLsbD k then l.mergeOf (l.rung 15) up else up) ∧ ∀ j, k < j → m.rung j = l.rung j) ∧
  (∀ s c, CopyReady s c →
    let goes := fun (P : State → Prop) => ∃ u, exec (.engineCommandStart c.core c.id) s = .next u ∧ P u
    let r := s.withRecord c
    let o := scratchOpnd r c.a (r.dir = 1)
    let fm := (descFmt c.a).getD .raw
    let bm := descBlog c.a
    let kept := fun (d x : Cmd) (f : Table Nat) (bad : Bool) (ws : List CmdWrite) =>
      { d with recWords := x.recWords, src := x.src, chain := x.chain, floors := f, comp := x.compOf, poison := bad || x.poison, writes := ws }
    (∀ st a b g, c.instr = .copy st a b g → s.copyFirst c (some c.a) = none → memFirst r = none → s.descIn c.core c.asid o = true →
      (s.recordStop r || s.descBad c.core o || r.scr ≠ 0 || rawMismatch c.a r.mem || strideBad r) = false →
      s.rangeStops true (s.opndRange c.core (recordOpnd c) :: if r.dir = 1 then [s.opndRange c.core o] else []) = none →
      let mlen := memRowBytes (memFmt r) (descBlog r.mem) r.elems
      let drow := rowBytes fm bm r.elems
      s.rowsStop r (if r.dir = 0 then .read else .write) mlen = none → s.compStop r = none →
      (r.dir = 0 →
        let L := s.loadRows r c.floors mlen r.rows 0
        let data := L.1.flatMap (carry (memFmt r) (descBlog r.mem) fm bm r.elems drow)
        goes fun u => CopyBegins s u c (s.lat.copy + data.length / 256) (.copyComplete c.core c.id) fun d =>
          kept d r L.2.1 L.2.2.1 [destWrite s c.core c.a data]) ∧
      (r.dir = 1 →
        let x := s.withSource r o
        goes fun u => u.mem = s.mem ∧ u.locs = s.locs ∧
          CopyBegins s u c (s.lat.copy + r.rows * mlen / 256) (.copyComplete c.core c.id) fun d =>
            kept d x c.floors false ((List.zip (List.range r.rows) (pieces drow r.rows x.src)).map fun e =>
              CmdWrite.mem (r.rowVA e.1) (carry fm bm (memFmt r) (descBlog r.mem) r.elems mlen e.2)))) ∧
    (∀ st a b g, c.instr = .copyApnd st a b g → s.copyFirst c none = none →
      let prow := rowBytes fm bm r.elems
      let mlen := memRowBytes (memFmt r) (descBlog r.mem) r.elems
      let src := scratchOpnd r r.scr true
      let lands := fun (x : Cmd) (fa : Fmt) (ba : Nat) (rows : List (List Byte)) (f : Table Nat) (bad : Bool) =>
        s.copyStop .vitWrite c.asid c.pageVA 1 = none → s.compStop r = none →
        ∀ v e at' v1, s.vrec c.asid c.pageVA = some v → s.entry c.asid c.pageVA = some e →
          v.claim c.id (r.rows * prow) 16 (e.pa c.pageVA) = .inr (at', v1) →
          let data := List.replicate (at' - v.rtail) 0 ++ rows.flatMap (carry fa ba fm bm r.elems prow)
          goes fun u => u.vrec c.asid c.pageVA = some v1 ∧
            (s.now + (s.lat.copy + data.length / 256), Ev.vitrineDataWritten c.asid (c.pageVA.toNat / 2 ^ 16) c.id) ∈ u.queue ∧
            CopyBegins s u c (s.lat.copy + data.length / 256) (.copyComplete c.core c.id) fun d =>
              { kept d x f bad [.mem (c.pageVA + BitVec.ofNat 56 v.rtail) data,
                  .scratch (descOwner c.core c.b) ((s.descAt c.core c.b).getD 0 + 0x28) (leBytes 8 (2 ^ 63 + at')) none false] with
                claim := some (c.pageVA.toNat / 2 ^ 16, c.id) }
      (r.dir = 0 → memFirst r = none → (s.recordStop r || r.scr ≠ 0 || rawMismatch c.a r.mem || strideBad r) = false →
        s.rangeStops true [s.opndRange c.core (recordOpnd c)] = none → s.rowsStop r .read mlen = none →
        let L := s.loadRows r c.floors mlen r.rows 0
        lands r (memFmt r) (descBlog r.mem) L.1 L.2.1 L.2.2.1) ∧
      (r.dir = 1 → tagBad r.scr = false → descOff r.scr % 16 = 0 → s.descIn c.core c.asid src = true →
        (s.recordStop r || s.descBad c.core src || rawMismatch c.a r.scr) = false →
        s.rangeStops true [s.opndRange c.core (recordOpnd c), s.opndRange c.core src] = none →
        let x := s.withSource r src
        lands x ((descFmt r.scr).getD .raw) (descBlog r.scr) (pieces (rowBytesOf (descFmt r.scr) (descBlog r.scr) r.elems) r.rows x.src) c.floors false)) ∧
    (∀ st a b g, c.instr = .copyl st a b g → s.copyFirst c (some c.a) = none →
      let h := r.mem.toNat % 2 ^ 24
      let w := 16 * c.core + c.ctx
      let chain := s.snapshot w c.asid h
      let nd := leafOf chain
      let row0 := (r.w 2).toNat % 2 ^ 32
      let col0 := (r.w 2).toNat / 2 ^ 32
      s.descIn c.core c.asid { scratchOpnd r c.a false with ok := converts c.a } = true →
      (s.recordStop r || s.descBad c.core { scratchOpnd r c.a false with ok := converts c.a } || r.mem.extractLsb' 24 40 ≠ 0 ||
        r.scr ≠ 0 || r.dir ≠ 0) = false →
      s.handleOk c.asid h = true → s.chainGap (s.seenNode w c.asid) c.asid 8 h = none → nd.live = true →
      row0 + r.rows ≤ nd.rows → col0 + r.elems ≤ nd.cols → col0 % 2 ^ nd.blog = 0 →
      s.rangeStops true [s.opndRange c.core (recordOpnd c)] = none → s.chainStop true c.asid chain = none →
      s.compStop { r with chain := chain } = none →
      let drow := rowBytes fm bm r.elems
      let rows := (List.range r.rows).map fun i =>
        let part := sliceBlks ((row0 + i) * nd.cols + col0) r.elems (s.resolve c.asid chain)
        if nd.format = fm && nd.blog = bm then fitLen drow (blockBytesOf fm bm (if nd.ndim = 0 then regroup fm bm part else part))
        else encodeRow fm bm (valsOf nd.format nd.blog part)
      goes fun u => u.mem = s.mem ∧ u.locs = s.locs ∧
        CopyBegins s u c (s.lat.copy + r.rows * drow / 256) (.copyComplete c.core c.id) fun d =>
          kept d { r with chain := chain } c.floors (s.chainPoison c.asid chain) [destWrite s c.core c.a rows.flatten]) ∧
    (∀ st a b g, c.instr = .copyz st a b g → c.b.toNat % 64 = 0 → 64 ≤ c.b.toNat → c.b.toNat ≤ 294912 →
      s.opndStops c.core c.asid [opnd c.a c.b.toNat false true] false = none → goes fun u => u.mem = s.mem ∧ u.locs = s.locs ∧
        CopyBegins s u c (16 + (c.b.toNat + 1023) / 1024) (.engineCommandComplete c.core c.id) fun d =>
          { d with writes := [destWrite s c.core c.a (List.replicate c.b.toNat 0)] }) ∧
    ∀ st a b g, c.instr = .cbump st a b g → s.bumpStop c.core c.asid (c.a.setWidth 56) = none → goes fun u => u.mem = s.mem ∧ u.locs = s.locs ∧
      CopyBegins s u c 0 (.copyComplete c.core c.id) fun d => { d with comp := some (c.a, c.b), writes := [] }) ∧
  (∀ s c k off data tag, s.cmds.find? (fun d => d.id == c.id && d.core == c.core && d.phase == .running) = some c →
    c.writes = [.scratch k off data (some tag) true] → (s.core k).on ≠ none → (s.core k).asid = c.asid →
    off + data.length ≤ (s.core k).banks.slen → (∀ n l, (s.ctx c.core c.ctx).park ≠ .retry n l) →
    let done := fun (t : State) => t.cmds = s.cmds.filter (fun d => d.id != c.id) ∧
      (∀ j, (h : j < data.length) → cellGet (t.core k).banks.bytes (off + j) = data[j]) ∧
      (∀ a, a < off ∨ off + data.length ≤ a → cellGet (t.core k).banks.bytes a = cellGet (s.core k).banks.bytes a) ∧
      (∀ j, (∃ a, off ≤ a ∧ a < off + data.length ∧ a / 2048 = j) → (t.core k).banks.tagAt j = tag) ∧
      (∀ g, off ≤ 512 * g → 512 * g + 512 ≤ off + data.length → (t.core k).banks.granAt g = ⟨s.tick, false, false⟩) ∧
      (∀ e ∈ (t.core c.core).ring, e.seq = c.seq → e.cp = true) ∧ ∀ n j, (s.ctx n j).SameRegs (t.ctx n j)
    (∃ t, exec (.engineCommandComplete c.core c.id) s = .next t ∧ done t ∧ t.mem = s.mem) ∧
    ((∀ st a b r, c.instr ≠ .cbump st a b r) → c.poison = false → c.comp = none →
      ∃ t, exec (.copyComplete c.core c.id) s = .next t ∧ done t ∧ t.mem = s.mem))

/-! ### Vitrine pages and lineage -/

/-- R224, R225, R261, R262, R137: `VCLAIM` makes the record with the issuer as HOLDER and records a cairn; `APND` writes gb at the tail, delivers its
offset and publishes it where nothing before it is in flight, a poisoned line at the tail taking 0x13 (R216); `TAILSET` moves both tails; `SEAL` seals; `VFREE` frees a page that nobody holds, and
otherwise recalls it; `VTAIL` reads the status word. What the record's state forbids takes 0x10 or 0x11. R225, R226, R253: a claim whose data is
written publishes its range where nothing before it is in flight, filled with zeros where the data does not come; a holder that acknowledges a recall has dropped its lines of the page, and the last
one frees the record. -/
def Obligations.VitrinePages : Prop :=
  ((∀ st a s e, Ready (.vclaim st a) s → Fresh s → VitOk s a true e →
    (s.vrec s.asid (vitPage s a) = none → s.unstarted s.act.1 s.act.2 = [] → s.flightsOf s.act.1 s.act.2 = [] → ∃ t, exec (.vclaim st a) s = .next t ∧
      s.me.SameRegs t.me ∧ CairnAt s t ∧ GoesOn s t st ∧ OthersSame s t ∧ t.mem = s.mem ∧
      VitBecomes s t (vitPage s a) (some ⟨.open', 0, 0, [], some ⟨s.act.1, s.act.2, s.myCore.task.bind⟩, []⟩)) ∧
    (∀ r, s.vrec s.asid (vitPage s a) = some r → ∃ u : State, exec (.vclaim st a) s = .next (u.trap ⟨0x10, (vitPage s a).setWidth 64, 0⟩) ∧
      u.vit = s.vit ∧ u.mem = s.mem)) ∧
  (∀ st d a b s e r, Ready (.apnd st d a b) s → VitOk s a true e → s.vrec s.asid (vitPage s a) = some r → r.state = .open' →
    let o := (r.rtail + 7) / 8 * 8
    let pa := e.pa (vitPage s a) + o
    (o + 8 ≤ 65536 → s.poisoned pa = false → ∃ t r', exec (.apnd st d a b) s = .next t ∧ GetsNow s t d (w64 o) ∧ KeepsSpecials s.now s.me t.me ∧ HomeWord s t ∧
      t.phys64 pa = s.g b ∧ (∀ x, x < pa ∨ pa + 8 ≤ x → t.byte x = s.byte x) ∧ VitBecomes s t (vitPage s a) (some r') ∧
      r'.state = .open' ∧ r'.rtail = o + 8 ∧ r'.holder = r.holder ∧ r'.pres = r.pres ∧ (r.claims = [] → r'.ptail = o + 8 ∧ r'.claims = []) ∧
      (∀ c cs, r.claims = c :: cs → c.done = false → c.id ≠ s.next → r'.ptail = r.ptail)) ∧
    (o + 8 ≤ 65536 → s.poisoned pa = true → ∃ u : State, exec (.apnd st d a b) s = .next (u.trap ⟨0x13, (vitPage s a).setWidth 64, 0⟩) ∧
      u.vit = s.vit ∧ u.mem = s.mem) ∧
    (65536 < o + 8 → ∃ u : State, exec (.apnd st d a b) s = .next (u.trap ⟨0x11, (vitPage s a).setWidth 64, 0⟩) ∧
      u.vit = s.vit ∧ u.mem = s.mem)) ∧
  (∀ st a b s e r, Ready (.tailset st a b) s → VitOk s a true e → s.vrec s.asid (vitPage s a) = some r →
    let x := (s.g b).toNat
    let ok := x < 2 ^ 17 ∧ x % 8 = 0 ∧ r.state = .open' ∧ r.holder = some ⟨s.act.1, s.act.2, s.myCore.task.bind⟩ ∧
      (∀ c ∈ r.claims, c.done = true) ∧ x ≤ r.ptail
    (ok → ∃ t, exec (.tailset st a b) s = .next t ∧ s.me.SameRegs t.me ∧ KeepsSpecials s.now s.me t.me ∧ HomeWord s t ∧ t.mem = s.mem ∧
      VitBecomes s t (vitPage s a) (some { r with rtail := x, ptail := x })) ∧
    (¬ ok → ∃ u : State, exec (.tailset st a b) s = .next (u.trap ⟨0x10, (vitPage s a).setWidth 64, 0⟩) ∧ u.vit = s.vit ∧ u.mem = s.mem)) ∧
  (∀ st a s e r, Ready (.seal st a) s → VitOk s a true e → s.vrec s.asid (vitPage s a) = some r → NoAppend s →
    (r.state = .open' → r.claims = [] → ∃ t, exec (.seal st a) s = .next t ∧ s.me.SameRegs t.me ∧ KeepsSpecials s.now s.me t.me ∧
      HomeWord s t ∧ t.mem = s.mem ∧ VitBecomes s t (vitPage s a) (some { r with state := .sealed })) ∧
    (r.state = .sealed → ∃ t, exec (.seal st a) s = .next t ∧ s.me.SameRegs t.me ∧ HomeWord s t ∧ t.mem = s.mem ∧ t.vit = s.vit) ∧
    (r.state = .recalling → ∃ u : State, exec (.seal st a) s = .next (u.trap ⟨0x10, (vitPage s a).setWidth 64, 0⟩) ∧ u.vit = s.vit)) ∧
  (∀ st a s, Ready (.vfree st a) s →
    (∀ e r, VitOk s a true e → s.me.answer = none → s.vrec s.asid (vitPage s a) = some r → NoAppend s → r.claims = [] →
      (r.state ≠ .recalling → r.pres = [] → ∃ t, exec (.vfree st a) s = .next t ∧ s.me.SameRegs t.me ∧ KeepsSpecials s.now s.me t.me ∧
        HomeWord s t ∧ t.mem = s.mem ∧ VitBecomes s t (vitPage s a) none) ∧
      (r.state ≠ .recalling → r.pres ≠ [] → ∃ t, exec (.vfree st a) s = .next t ∧ s.me.SameRegs t.me ∧ t.me.pc = s.me.pc ∧
        t.me.park = .drain ∧ t.me.answer ≠ none ∧ VitBecomes s t (vitPage s a) (some { r with state := .recalling }) ∧
        ∀ h ∈ r.pres, (s.now + s.lat.recallWait, Ev.recallAck s.asid ((vitPage s a).toNat / 2 ^ 16) h) ∈ t.queue)) ∧
    (s.me.answer ≠ none → ∃ t, exec (.vfree st a) s = .next t ∧ s.me.SameRegs t.me ∧ HomeWord s t ∧ t.vit = s.vit)) ∧
  (∀ st d a s e, Ready (.vtail st d a) s → VitOk s a false e → ∃ t, exec (.vtail st d a) s = .next t ∧
    KeepsSpecials s.now s.me t.me ∧ HomeWord s t ∧ t.mem = s.mem ∧ t.vit = s.vit ∧
    GetsNow s t d (match s.vrec s.asid (vitPage s a) with
      | none => 0
      | some r => w64 ((match r.state with | .open' => 1 | .sealed => 2 | .recalling => 3) * 2 ^ 62 +
          (if r.holder = some ⟨s.act.1, s.act.2, s.myCore.task.bind⟩ then 2 ^ 61 else 0) + r.rtail * 2 ^ 32 +
          min 4095 (r.claims.filter fun c => !c.done).length * 2 ^ 20 + r.ptail : Nat))) ∧
  ∀ i a w s, VitWords i a w → Ready i s → Fresh s → (∀ e, s.xlate s.asid (vitPage s a) = some e → e.cls ≠ .vitrine) →
    s.xlate s.asid (vitPage s a) ≠ none → Traps i s ⟨0x06, (vitPage s a).setWidth 64, 0⟩) ∧
  ((∀ asid page id s r, s.vrec asid (BitVec.ofNat 56 (page * 2 ^ 16)) = some r → page < 2 ^ 40 →
    (∀ c ∈ s.cmds, c.claim ≠ some (page, id)) → ∃ t r', exec (.vitrineDataWritten asid page id) s = .next t ∧
      t.vrec asid (BitVec.ofNat 56 (page * 2 ^ 16)) = some r' ∧ t.cores = s.cores ∧ r'.rtail = r.rtail ∧
      (match r.claims.find? fun c => c.id == id && !c.done with
        | none => (∀ c ∈ r.claims, c.id = id → c.done = true) → t.mem = s.mem
        | some c => (∀ d ∈ r.claims, d.id = id → d = c) → (∀ a, c.pa + c.start ≤ a → a < c.pa + c.stop → t.byte a = 0) ∧
            ∀ a, a < c.pa + c.start ∨ c.pa + c.stop ≤ a → t.byte a = s.byte a) ∧
      r'.state = r.state ∧ (∀ c cs, r.claims = c :: cs → c.id = id → (∀ d ∈ cs, d.done = false ∧ d.id ≠ id) →
        r'.ptail = c.stop ∧ r'.claims = cs) ∧
      (∀ c cs, r.claims = c :: cs → c.done = false → c.id ≠ id → r'.ptail = r.ptail)) ∧
  (∀ asid page h s r, s.vrec asid (BitVec.ofNat 56 (page * 2 ^ 16)) = some r → r.state = .recalling → page < 2 ^ 40 →
    ∃ t, exec (.recallAck asid page h) s = .next t ∧ t.mem = s.mem ∧ t.queue = s.queue ∧
      ((∀ k ∈ r.pres, k = h) → t.vrec asid (BitVec.ofNat 56 (page * 2 ^ 16)) = none) ∧
      ((∃ k ∈ r.pres, k ≠ h) → t.vrec asid (BitVec.ofNat 56 (page * 2 ^ 16)) = some { r with pres := r.pres.filter fun k => k != h }) ∧
      (∀ n, n / 384 = h → ∀ l ∈ (t.core n).lines, ¬ (l.asid = asid ∧ l.line / 512 = page)) ∧
      (∀ n, n / 384 ≠ h → t.core n = s.core n) ∧ ∀ n k, t.ctx n k = s.ctx n k) ∧
  ∀ asid page h s, (∀ r, s.vrec asid (BitVec.ofNat 56 (page * 2 ^ 16)) = some r → r.state ≠ .recalling) →
    exec (.recallAck asid page h) s = .next s)
/-- R51, R53, R256–R260, R62: what the lineage words do: `LROOT` writes the record of its descriptor, `FORK` the child's and its parent's; `LDROP`
frees a record without children and retires one with them; `LINFO` reads a word of the record and `LDL` an element; `FLATTEN` and `REBASE` deliver the
size of the new delta, write its bytes to the run, the node's record, and the DEPTH of every descendant, and release the old range. A bad handle takes
code 1, and a state that forbids the event code 2. R333, R334, R335: an entry of the reclamation ring waits for the resolutions of before, and the
entries behind it wait with it in their order; then, where the ring has room, four words at its slot and the producer's count one up; where the ring is
full, the count of lost entries one up. The model's choices are log entries 79 (a bad handle of `LROOT` and `FORK` before the descriptor's place), 42, 85
and 89 (what the new delta is, and so its size and its bytes), 69 (a claim filled up to 8 bytes), 90 (the steps are one moment at issue), 102 (what the
device's reads of the ring count) and 84 (R55: records are read here where no die holds an old copy). -/
def Obligations.Lineage : Prop :=
  ((∀ st d a s w pa, Ready (.lroot st d a) s → ((s.g a).setWidth 56).toNat % 64 = 0 → Handle s (s.g d) pa → s.flightsOf s.act.1 s.act.2 = [] →
    Words8 s ((s.g a).setWidth 56) w →
    let n := { Node.ofWords w with parent := 0, kids := 0, sealed := false, depth := 0, state := 1 }
    descriptorBad w = false → n.enc = 0 → n.rank = 0 → n.count = 0 → (w 1).extractLsb' 0 8 = (0 : BitVec 8) → 1 ≤ n.fmt → n.fmt ≤ 10 →
    (n.blog = 0 ∨ n.format.scalable = true) → n.dimsBad = false →
    (∀ p ∈ pagesOf (BitVec.ofNat 56 n.dbase) n.dsize, s.walk s.asid p.1 ≠ none) → s.deltaCode s.asid n = none →
    ((s.phys64 (pa + 8)).extractLsb' 0 2 = (0 : BitVec 2) → ∃ t, exec (.lroot st d a) s = .next t ∧ s.me.SameRegs t.me ∧
      KeepsSpecials s.now s.me t.me ∧ AwaitsHome s t s.lat.lineage ∧ HoldsNode t pa n ∧
      (∀ x, x < pa ∨ pa + 64 ≤ x → t.byte x = s.byte x) ∧ OthersSame s t ∧ t.vit = s.vit) ∧
    ((s.phys64 (pa + 8)).extractLsb' 0 2 ≠ (0 : BitVec 2) → LineageFaults (.lroot st d a) s 2)) ∧
  (∀ st d a b s w pc pp, Ready (.fork st d a b) s → ((s.g b).setWidth 56).toNat % 64 = 0 → Handle s (s.g d) pc → Handle s (s.g a) pp →
    s.flightsOf s.act.1 s.act.2 = [] → Words8 s ((s.g b).setWidth 56) w → forkBad w = false →
    let np := s.node s.asid ((s.g a).toNat % 2 ^ 32)
    let n := childOf ((s.g a).toNat % 2 ^ 32) np w
    (∀ p ∈ pagesOf (BitVec.ofNat 56 n.dbase) n.dsize, s.walk s.asid p.1 ≠ none) → np.state = 1 →
    (np.sealed = true ∨ s.deltaSealed s.asid (BitVec.ofNat 56 np.dbase) np.dsize = true) →
    (7 ≤ np.depth → LineageFaults (.fork st d a b) s 11) ∧
    (np.depth < 7 → s.deltaCode s.asid n = none → (pc + 64 ≤ pp ∨ pp + 64 ≤ pc) →
      let s1 := s.setNode s.asid ((s.g a).toNat % 2 ^ 32) { np with sealed := true, kids := np.kids + 1 }
      s.indexStop s.asid n = none → s.indexBad s.asid n = false → s1.recPA s.asid ((s.g d).toNat % 2 ^ 32) = some pc → (s.phys64 (pc + 8)).extractLsb' 0 2 = (0 : BitVec 2) →
      ∃ t, exec (.fork st d a b) s = .next t ∧ s.me.SameRegs t.me ∧ KeepsSpecials s.now s.me t.me ∧ AwaitsHome s t s.lat.lineage ∧
        HoldsNode t pc n ∧ HoldsNode t pp { np with sealed := true, kids := np.kids + 1 } ∧
        (∀ x, (x < pc ∨ pc + 64 ≤ x) → (x < pp ∨ pp + 64 ≤ x) → t.byte x = s.byte x) ∧ OthersSame s t ∧ t.vit = s.vit)) ∧
  (∀ st a s pa, Ready (.ldrop st a) s → Handle s (s.g a) pa →
    let n := s.node s.asid ((s.g a).toNat % 2 ^ 32)
    (n.state ≠ 1 → LineageFaults (.ldrop st a) s 2) ∧
    (n.state = 1 → n.kids ≠ 0 → ∃ t, exec (.ldrop st a) s = .next t ∧ s.me.SameRegs t.me ∧ KeepsSpecials s.now s.me t.me ∧
      AwaitsHome s t s.lat.lineage ∧ HoldsNode t pa { n with state := 2 } ∧ (∀ x, x < pa ∨ pa + 64 ≤ x → t.byte x = s.byte x) ∧
      OthersSame s t ∧ t.queue = s.queue) ∧
    (n.state = 1 → n.kids = 0 → n.parent = 0 → ∃ t, exec (.ldrop st a) s = .next t ∧ s.me.SameRegs t.me ∧
      KeepsSpecials s.now s.me t.me ∧ AwaitsHome s t s.lat.lineage ∧ (∀ x, pa ≤ x → x < pa + 64 → t.byte x = 0) ∧
      (∀ x, x < pa ∨ pa + 64 ≤ x → t.byte x = s.byte x) ∧ OthersSame s t ∧
      (s.now + s.lat.home, Ev.reclamationEntryWrite s.asid 0 (BitVec.ofNat 24 ((s.g a).toNat % 2 ^ 32)) ⟨w64 n.dbase, w64 n.dsize⟩ s.now) ∈ t.queue)) ∧
  (∀ st d a b s pa, Ready (.linfo st d a b) s → Handle s (s.g a) pa → ∃ t, exec (.linfo st d a b) s = .next t ∧
    GetsNow s t d (s.phys64 (pa + 8 * ((s.g b).toNat % 8))) ∧ KeepsSpecials s.now s.me t.me ∧ HomeWord s t ∧ t.mem = s.mem) ∧
  (∀ st d a b s pa, Ready (.ldl st d a b) s → Handle s (s.g a) pa → NoOldRecords s →
    s.chainGap (s.node s.asid) s.asid 8 ((s.g a).toNat % 2 ^ 32) = none →
    let h := (s.g a).toNat % 2 ^ 32
    let n := s.node s.asid h
    (n.state ≠ 1 → LineageFaults (.ldl st d a b) s 2) ∧
    (n.state = 1 → n.elems ≤ (s.g b).toNat → LineageFaults (.ldl st d a b) s 10) ∧
    (n.state = 1 → (s.g b).toNat < n.elems → s.chainStop false s.asid (s.chain s.asid h) = none → ∀ blk bs,
      sliceBlks (s.g b).toNat 1 (s.resolve s.asid (s.chain s.asid h)) = blk :: bs → ∃ t, exec (.ldl st d a b) s = .next t ∧
        GetsNow s t d (ldlValue n blk 0) ∧ KeepsSpecials s.now s.me t.me ∧ AwaitsHome s t s.lat.lineage ∧ t.mem = s.mem ∧
        OthersSame s t)) ∧
  (∀ i st d a s (tgt : Option Nat) pa, (i = .flatten st d a ∧ tgt = none) ∨ (∃ b pb, i = .rebase st d a b ∧ tgt = some ((s.g b).toNat % 2 ^ 32) ∧
      Handle s (s.g b) pb) → Ready i s → ((s.g d).setWidth 56).toNat % 65536 = 0 → Handle s (s.g a) pa →
    let h := (s.g a).toNat % 2 ^ 32
    let n := s.node s.asid h
    let c := s.chain s.asid h
    let desc := s.descendants s.asid h (s.nrec s.asid)
    n.state = 1 → s.chainGap (s.node s.asid) s.asid 8 h = none → (∀ k, tgt = some k → k ≠ n.parent ∧ k ≠ h ∧ k ∈ c.map (·.1)) →
    s.tableGap s.asid = none → s.chainStop false s.asid c = none →
    let dl := s.newDelta s.asid c tgt n
    let depth := if dl.parent = 0 then 0 else (s.node s.asid dl.parent).depth + 1
    let pages := runPages ((s.g d).setWidth 56) dl.bytes
    ((∃ k ∈ desc, (s.node s.asid k).depth + depth < n.depth ∨ n.depth + 7 < (s.node s.asid k).depth + depth) → LineageFaults i s 11) ∧
    ((∀ k ∈ desc, n.depth ≤ (s.node s.asid k).depth + depth ∧ (s.node s.asid k).depth + depth ≤ n.depth + 7) →
      (∀ p ∈ pages, untranslated p.1.1 = false ∧ ∃ e r, s.walk s.asid p.1.1 = some e ∧ e.malformed = false ∧
        s.physOk (e.pa p.1.1) = true ∧ e.cls = .vitrine ∧ e.wr = true ∧ s.vrec s.asid p.1.1 = some r ∧ r.state = .open' ∧ r.rtail = 0) →
      (s.claimRun s.asid pages).2 = none →
      ∃ t, exec i s = .next t ∧ GetsNow s t d (w64 dl.bytes.length) ∧ KeepsSpecials s.now s.me t.me ∧ AwaitsHome s t s.lat.lineage ∧
        OthersSame s t ∧ t.flights = s.flights ∧ t.cmds = s.cmds ∧
        (s.now + s.lat.home, Ev.reclamationEntryWrite s.asid 1 (BitVec.ofNat 24 h) ⟨w64 n.dbase, w64 n.dsize⟩ s.now) ∈ t.queue ∧
        (RewriteApart s s.asid (pages.map (·.1.1)) (c.map (·.1) ++ desc) → (c.map (·.1) ++ desc).Nodup → (∀ x ∈ c.head?, x.2.parent = 0) →
          (∀ p ∈ pages, ∀ e, s.walk s.asid p.1.1 = some e → ∀ k, (hk : k < p.2.length) → t.byte (e.pa p.1.1 + k) = p.2[k]) ∧
          HoldsNode t pa (n.rewritten dl depth ((s.g d).setWidth 56 : VA).toNat) ∧
          ∀ k ∈ desc, (t.node s.asid k).depth = (s.node s.asid k).depth + depth - n.depth))) ∧
  ∀ i hs s, LineageWords i hs → Ready i s → (∀ st d a, i = .lroot st d a → ((s.g a).setWidth 56).toNat % 64 = 0) →
    (∀ st d a b, i = .fork st d a b → ((s.g b).setWidth 56).toNat % 64 = 0) →
    (∀ st d a, i = .flatten st d a → ((s.g d).setWidth 56).toNat % 65536 = 0) →
    (∀ st d a b, i = .rebase st d a b → ((s.g d).setWidth 56).toNat % 65536 = 0) →
    (∃ x ∈ hs s, let h := x.toNat % 2 ^ 32; h = 0 ∨ 2 ^ 24 ≤ h ∨ s.nrec s.asid ≤ h) → LineageFaults i s 1) ∧
  (∀ asid kind h base size since s, s.resolving asid base size since = true →
    let e := Ev.reclamationEntryWrite asid kind h ⟨base, size⟩ since
    ∃ t, exec (.reclamationEntryWrite asid kind h ⟨base, size⟩ since) s = .next t ∧ t = { s with queue := t.queue } ∧
      (t.queue.filter fun q => ofRing asid q.2) = (e :: (s.queue.map (·.2)).filter (ofRing asid)).map (fun q => (s.now + 1, q)) ∧
      (t.queue.filter fun q => !ofRing asid q.2) = s.queue.filter fun q => !ofRing asid q.2) ∧
  (∀ asid kind h base size since s pa, s.resolving asid base size since = false → s.recPA asid 0 = some pa →
    let ring : VA := (s.phys64 pa).setWidth 56
    let log := (s.phys64 (pa + 8)).toNat % 16
    ((s.phys64 pa = 0 ∨ log < 4) → exec (.reclamationEntryWrite asid kind h ⟨base, size⟩ since) s = .next s) ∧
    (s.phys64 pa ≠ 0 → 4 ≤ log → ∀ prod cons, s.devGet asid ring 8 = some prod → s.devGet asid (ring + 8) 8 = some cons →
      let u := s.devSeen asid ring
      ((prod - cons).toNat = 2 ^ log → ∀ v s1, u.devGet asid (ring + 16) 8 = some v → u.devPut asid (ring + 16) 8 (v + 1) = some s1 →
        exec (.reclamationEntryWrite asid kind h ⟨base, size⟩ since) s = .next s1) ∧
      ((prod - cons).toNat ≠ 2 ^ log → ∀ s1 s2 s3 s4 s5,
        let at' := ring + BitVec.ofNat 56 (64 + 32 * (prod.toNat % 2 ^ log))
        u.devPut asid at' 8 (w64 (kind.toNat * 2 ^ 62 + h.toNat : Nat)) = some s1 → s1.devPut asid (at' + 8) 8 base = some s2 →
        s2.devPut asid (at' + 8 + 8) 8 size = some s3 → s3.devPut asid (at' + 8 + 8 + 8) 8 prod = some s4 →
        s4.devPut asid ring 8 (prod + 1) = some s5 → exec (.reclamationEntryWrite asid kind h ⟨base, size⟩ since) s = .next s5)))

/-! ### The fabric -/

/-- R301, R302: a transfer releases at system scope, takes its record and goes on; the transfer completes after it. A malformed record takes cause
0x0D and moves nothing. `FSYNC` goes on with an acquire of system scope once no transfer and no contribution of its context is left. A transfer that
completes writes its bytes, as a source in scratch held them at issue, to the parent and the children of the group's tree for `FMCAST`, and adds 1 to
COMP. R342, R285: an access to another package that has no answer behaves as a poisoned line: a load takes cause 0x13; a store, a transfer or an atomic
is dropped and reported later, and what the atomic delivers is free (log entry 27). A link's register shows its state, and a flit of an `FMCAST` of
another package goes on in the tree and lands in the zone of its group (R302, R341). The reading of R302's release and source is log entry 44's. -/
def Obligations.FabricTransfersAndLinks : Prop :=
  ((∀ i s st a m, XferWords i st a m → Ready i s →
    let va : VA := (s.g a).setWidth 56
    (va.toNat % 8 ≠ 0 → Traps i s ⟨0x03, va.setWidth 64, 0⟩) ∧
    (va.toNat % 8 = 0 → Quiet s → ∀ w, RecordIn s va 4 w →
      let src : VA := (w 0).setWidth 56
      let dst : VA := (w 1).setWidth 56
      let len := (w 2).toNat
      (¬ XferOk s m w → ∃ u : State, exec i s = .next (u.trap0 0x0D) ∧ u.mem = s.mem ∧ u.locs = s.locs ∧ u.xfers = s.xfers ∧
        u.queue = s.queue ∧ Released s u .system ∧ s.me.SameRegs u.me ∧ OthersSame s u ∧ u.myCore.banks = s.myCore.banks) ∧
      (XferOk s m w → s.spaceStop s.act.1 .read true false src len = none →
        (m = false → s.spaceStop s.act.1 .write true false dst len = none) →
        (w 3 ≠ 0 → s.bumpStop s.act.1 s.asid ((w 3).setWidth 56) = none) →
        ∃ t x, exec i s = .next t ∧ Ends s t st ∧ Released s t .system ∧ OthersSame s t ∧ t.mem = s.mem ∧ t.locs = s.locs ∧
          t.flights = s.flights ∧ t.cmds = s.cmds ∧ t.rounds = s.rounds ∧ t.myCore.banks = s.myCore.banks ∧
          t.xfers = s.xfers ++ [x] ∧ x.id = s.next ∧ x.core = s.act.1 ∧ x.ctx = s.act.2 ∧ x.bind = s.myCore.task.bind ∧
          x.asid = s.asid ∧ x.mcast = m ∧ x.src = src ∧ x.dst = w 1 ∧ x.len = len ∧ x.comp = w 3 ∧
          (∀ o, ScratchOf s s.act.1 s.asid src len o → x.data.length = len ∧ ∀ i, (h : i < x.data.length) →
            x.data[i] = if (s.myCore.banks.granAt ((o + i) / 512)).poison then 0 else cellGet s.myCore.banks.bytes (o + i)) ∧
          (s.now + (s.lat.fabric + len / 53), Ev.fabricTransferComplete s.next) ∈ t.queue ∧ ∀ e, e ∈ s.queue → e ∈ t.queue))) ∧
  (∀ st s, Ready (.fsync st) s → AtRest s → (∀ x ∈ s.xfers, x.bind = s.myCore.task.bind → x.ctx ≠ s.act.2) →
    (∀ r ∈ s.rounds, ∀ m ∈ r.members, m.bind = s.myCore.task.bind → m.ctx ≠ s.act.2) →
    ∃ t, exec (.fsync st) s = .next t ∧ Ends s t st ∧ Acquired s t .system ∧ OthersAfter .system s t ∧ t.mem = s.mem ∧ t.locs = s.locs ∧
      t.flights = s.flights ∧ t.cmds = s.cmds ∧ t.queue = s.queue ∧ t.myCore.banks = s.myCore.banks) ∧
  ∀ id s x, s.xfers.find? (fun y => y.id == id) = some x →
    let gone := fun (t : State) => t.xfers = s.xfers.filter (fun y => y.id != id) ∧ ∀ n k, (s.ctx n k).SameRegs (t.ctx n k)
    (inLocal x.src = true →
      (∀ w k, x.mcast = true → s.group (x.dst.toNat / 2 ^ 48) 0 = some w → s.group (x.dst.toNat / 2 ^ 48) 1 = some k →
        let kids := (List.range 64).filter fun p => k.getLsbD p
        let sent := fun (t : State) => t.fabricOut = (((if w.getLsbD 61 then kids else (w.toNat % 64) :: kids)).map fun p =>
          FabricOut.flit p (x.dst.toNat / 2 ^ 48) (x.dst.toNat % 2 ^ 32) x.data) ++ s.fabricOut
        (x.comp = 0 → ∃ t, exec (.fabricTransferComplete id) s = .next t ∧ gone t ∧ sent t ∧ t.mem = s.mem ∧ t.locs = s.locs ∧
          ∀ n, (t.core n).banks = (s.core n).banks) ∧
        (x.comp ≠ 0 → ∀ q, ScratchOf s x.core x.asid (x.comp.setWidth 56) 8 q → s.place x.core .read (x.comp.setWidth 56) 8 = .scratch q →
        ∃ t, exec (.fabricTransferComplete id) s = .next t ∧ gone t ∧ sent t ∧ t.mem = s.mem ∧ t.locs = s.locs ∧
          BitVec.ofNat 64 (cellsLE (t.core x.core).banks.bytes q 8) = BitVec.ofNat 64 (cellsLE (s.core x.core).banks.bytes q 8) + 1 ∧
          ∀ a, a < q ∨ q + 8 ≤ a → cellGet (t.core x.core).banks.bytes a = cellGet (s.core x.core).banks.bytes a)) ∧
      (x.mcast = false → x.comp = 0 → x.data.length = x.len → ∀ e, Settled x.core e → OnePage s x.asid (x.dst.setWidth 56) x.len e →
        inLocal (x.dst.setWidth 56) = false → inRope (x.dst.setWidth 56) = false →
        (∀ i, i < x.len → hasOrder e (e.pa (x.dst.setWidth 56) + i) = false) →
        ∃ t, exec (.fabricTransferComplete id) s = .next t ∧ gone t ∧
          (∀ i, (h : i < x.data.length) → t.byte (e.pa (x.dst.setWidth 56) + i) = x.data[i]) ∧
          ∀ a, a < e.pa (x.dst.setWidth 56) ∨ e.pa (x.dst.setWidth 56) + x.len ≤ a → t.byte a = s.byte a)) ∧
    (x.mcast = false → x.comp = 0 → (s.core x.core).task.bind = x.bind → ∀ o, ScratchOf s x.core x.asid (x.dst.setWidth 56) x.len o →
      ∀ e, Settled x.core e → OnePage s x.asid x.src x.len e → inLocal x.src = false → (∀ i, i < x.len → hasOrder e (e.pa x.src + i) = false ∧
        NoDirty s x.asid (x.src + BitVec.ofNat 56 i) e) →
      ∃ t, exec (.fabricTransferComplete id) s = .next t ∧ gone t ∧ t.mem = s.mem ∧
        (∀ i, i < x.len → cellGet (t.core x.core).banks.bytes (o + i) = s.byte (e.pa x.src + i)) ∧
        ∀ a, a < o ∨ o + x.len ≤ a → cellGet (t.core x.core).banks.bytes a = cellGet (s.core x.core).banks.bytes a)) ∧
  ((∀ id s f e, s.flights.find? (fun g => g.id == id) = some f → s.entry f.asid f.acc.va = some e → isRemote (e.pa f.acc.va) = true →
    let u : State := { s with flights := s.flights.filter fun g => g.id != id }
    ((∃ fr d, f.kind = .load fr d) → exec (.remoteAccessTimeout id) s =
      .next (u.takeTrap f.core f.ctx ⟨0x13, f.acc.va.setWidth 64, 0⟩ f.pc false false false)) ∧
    (f.kind = .store ∨ (∃ op ty c, f.kind = .atomic op ty c none) → ∃ t, exec (.remoteAccessTimeout id) s = .next t ∧
      t = { u with cores := t.cores } ∧ (∀ n k, (n, k) ≠ (f.core, f.ctx) → t.ctx n k = s.ctx n k) ∧
      t.ctx f.core f.ctx = { s.ctx f.core f.ctx with defer := deferred (s.ctx f.core f.ctx) f.acc.va }) ∧
    (∀ op ty c r, f.kind = .atomic op ty c (some r) → ∃ t x, exec (.remoteAccessTimeout id) s = .next t ∧ t.flights = u.flights ∧
      t.mem = s.mem ∧ t.locs = s.locs ∧ t.queue = s.queue ∧ (∀ n k, (n, k) ≠ (f.core, f.ctx) → t.ctx n k = s.ctx n k) ∧
      Lands f (s.ctx f.core f.ctx) (t.ctx f.core f.ctx) (some (r, x)) ∧ (t.ctx f.core f.ctx).defer = deferred (s.ctx f.core f.ctx) f.acc.va)) ∧
  (∀ id s x, s.flights.find? (fun g => g.id == id) = none → s.xfers.find? (fun y => y.id == id) = some x → x.comp = 0 →
    (s.core x.core).on ≠ none → (s.core x.core).task.bind = x.bind → (s.core x.core).stopped = none →
    ∃ t, exec (.remoteAccessTimeout id) s = .next t ∧
      t.xfers = s.xfers.filter (fun y => y.id != id) ∧ t.mem = s.mem ∧ t.locs = s.locs ∧ t.queue = s.queue ∧
      (∀ n k, (n, k) ≠ (x.core, x.ctx) → t.ctx n k = s.ctx n k) ∧
      t.ctx x.core x.ctx = { s.ctx x.core x.ctx with
        defer := deferred (s.ctx x.core x.ctx) (if x.mcast then x.src else x.dst.setWidth 56) }) ∧
  (∀ id s c, s.flights.find? (fun g => g.id == id) = none → s.xfers.find? (fun y => y.id == id) = none →
    s.cmds.find? (fun d => d.id == id && isCopy d.instr && d.phase == .running) = some c → ∃ t, exec (.remoteAccessTimeout id) s = .next t ∧
      t = { s with cmds := t.cmds } ∧ (∀ d ∈ t.cmds, d.id = id → d.poison = true) ∧ ∀ d ∈ s.cmds, d.id ≠ id → d ∈ t.cmds) ∧
  (∀ port up pkg s, ∃ t, exec (.fabricLinkChange port up pkg) s = .next t ∧
    t = { s with regs := { s.regs with link := t.regs.link } } ∧
    Table.find? port t.regs.link = some (w64 ((if up then 2 ^ 63 else 0) + pkg.toNat)) ∧
    ∀ p, p ≠ port → Table.find? p t.regs.link = Table.find? p s.regs.link) ∧
  ∀ port g off data s w base z kids, s.group g 0 = some w → s.group g 1 = some kids → s.group g 2 = some base → s.group g 3 = some z → s.group g 4 = some 0 → w.getLsbD 62 = true →
    off + data.length ≤ z.toNat / 2 ^ 32 →
    let va : VA := base.setWidth 56 + BitVec.ofNat 56 off
    ∀ e, OnePage s (z.setWidth 13) va data.length e → e.malformed = false → e.wr = true → e.cls = .normal →
    (∀ i, i < data.length → s.physOk (e.pa va + i) = true ∧
      ∀ l, Table.find? (wordKey (z.setWidth 13) (va + BitVec.ofNat 56 i)) s.locs = some l → l.pa = (e.pa va + i) / 8 * 8) →
    ∃ t, exec (.fabricLanding ⟨port, g⟩ off data) s = .next t ∧ (∀ i, (h : i < data.length) → t.byte (e.pa va + i) = data[i]) ∧
      (∀ a, ¬ InWords (e.pa va) data.length a → t.byte a = s.byte a) ∧
      (let kids' := (List.range 64).filter fun p => kids.getLsbD p
       t.fabricOut = (((if w.getLsbD 61 then kids' else (w.toNat % 64) :: kids').filter fun p => p != port).map fun p =>
         FabricOut.flit p g off data) ++ s.fabricOut) ∧
      t = { s with mem := t.mem, locs := t.locs, pubs := t.pubs, heat := t.heat, fabricOut := t.fabricOut })
/-- R303, R304: `FRED` releases at system scope, takes its source and goes on: its round holds the contribution and the member that waits. A malformed
descriptor takes cause 0x0D and contributes nothing. A partial that arrives joins its round, and the round whose last part it is sends its outcome:
the parts folded in the order own, then ascending ports, or nothing where two of them differ; below the root the folded parts go to the parent's port
(R341). The outcome writes STATUS, DEST and COMP of each member, here of members on different cores whose three lie in their own scratch, and leaves on
the ports of the children; a rope reduction's stamps the granules that it writes whole (R99). The wait of a round for the rounds before it is the model's
reading (log entry 36), as are what counts as malformed beside R303's list (log entry 43), and both alignments checked before the descriptor is read (log
entry 79). -/
def Obligations.FabricReductions : Prop :=
  (∀ st op a b s, Ready (.fred st op a b) s →
    let va : VA := (s.g a).setWidth 56
    let src : VA := (s.g b).setWidth 56
    (va.toNat % 8 ≠ 0 → Traps (.fred st op a b) s ⟨0x03, va.setWidth 64, 0⟩) ∧
    (va.toNat % 8 = 0 → src.toNat % 16 ≠ 0 → Traps (.fred st op a b) s ⟨0x03, src.setWidth 64, 0⟩) ∧
    (va.toNat % 8 = 0 → src.toNat % 16 = 0 → Quiet s → ∀ w, RecordIn s va 8 w → s.spaceStop s.act.1 .write false false (va + 32) 8 = none →
      (¬ RedOk s op w → ∃ u : State, exec (.fred st op a b) s = .next (u.trap0 0x0D) ∧ u.mem = s.mem ∧ u.locs = s.locs ∧
        u.rounds = s.rounds ∧ u.queue = s.queue ∧ Released s u .system ∧ s.me.SameRegs u.me ∧ OthersSame s u ∧ u.myCore.banks = s.myCore.banks) ∧
      (RedOk s op w →
        let elems := (w 0).toNat % 2 ^ 13
        let count := if op = .rsc then elems + 2 else elems
        let all := (w 0).getLsbD 63
        let root := if (w 0).toNat / 2 ^ 62 % 2 = 1 then decide (s.act.1 % 8 = (w 0).toNat / 2 ^ 40 % 8) else s.groupRoot ((w 0).toNat / 2 ^ 32 % 2 ^ 16)
        ∀ o, ScratchOf s s.act.1 s.asid src (4 * count) o → s.spaceStop s.act.1 .read false false src (4 * count) = none →
        (all = true ∨ root = true →
          s.spaceStop s.act.1 .write false (decide ((w 0).toNat / 2 ^ 62 % 2 = 1)) ((w 2).setWidth 56) (4 * count) = none) →
        (w 3 ≠ 0 → s.bumpStop s.act.1 s.asid ((w 3).setWidth 56) = none) →
        ∃ t, exec (.fred st op a b) s = .next t ∧ Ends s t st ∧ Released s t .system ∧ OthersSame s t ∧ t.mem = s.mem ∧ t.locs = s.locs ∧
          t.flights = s.flights ∧ t.cmds = s.cmds ∧ t.xfers = s.xfers ∧ t.myCore.banks = s.myCore.banks ∧
          ∃ r ∈ t.rounds, r.key = (redNames s.act.1 (w 0)).1 ∧ r.seq = (w 1).setWidth 32 ∧
            ⟨(redNames s.act.1 (w 0)).2, op, elems,
              (List.range count).map fun j => BitVec.ofNat 32 (cellsLE s.myCore.banks.bytes (o + 4 * j) 4), false⟩ ∈ r.parts ∧
            ⟨s.act.1, s.act.2, s.myCore.task.bind, s.asid, va, w 2, w 3, all⟩ ∈ r.members))) ∧
  (∀ key seq port op elems vals bad s, ∃ t, exec (.reductionPartialArrival key seq port op elems vals bad) s = .next t ∧
    t = { s with rounds := t.rounds, queue := t.queue, fabricOut := t.fabricOut } ∧ (∀ e, e ∈ s.queue → e ∈ t.queue) ∧
    (∃ r ∈ t.rounds, r.key = key ∧ r.seq = seq ∧ ⟨some port, op, elems, vals, bad⟩ ∈ r.parts) ∧
    ∀ q ∈ s.rounds, q.key ≠ key → q ∈ t.rounds) ∧
  (∀ g seq port op elems vals bad s r w0 w before after own, s.rounds.filter (fun q => q.key == .group g) = [r] → r.seq = seq → r.sent = false →
    s.group g 0 = some w0 → w0.getLsbD 62 = true → s.group g 1 = some w → r.parts = own :: (before ++ after) → own.port = none →
    let all := before ++ ⟨some port, op, elems, vals, bad⟩ :: after
    all.map (·.port) = ((List.range 64).filter fun i => w.getLsbD i).map some →
    let m := own.bad || all.any fun q => q.bad || q.op != own.op || q.elems != own.elems
    let folded := all.foldl (fun acc q => redFold own.op acc q.vals) own.vals
    ∃ t, exec (.reductionPartialArrival (.group g) seq port op elems vals bad) s = .next t ∧
      if w0.getLsbD 61 then
        (s.now + s.lat.fabric, Ev.reductionOutcomeArrival (.group g) seq m (if m then none else some folded)) ∈ t.queue
      else FabricOut.partial' (w0.toNat % 64) g seq own.op own.elems folded m ∈ t.fabricOut) ∧
  (∀ op xs ys, op ≠ .rsc → redFold op xs ys = List.zipWith (redOp op) xs ys) ∧
  ∀ key seq bad res s r, s.rounds.find? (fun q => q.key == key && q.seq == seq) = some r → (r.members.map (·.core)).Nodup →
    let root := fun (m : Member) => match key with | .rope _ _ k => decide (m.core % 8 = k) | .group g => s.groupRoot g
    let gets := fun (m : Member) (vals : List W32) => bad = false ∧ (m.all = true ∨ root m = true) ∧ res = some vals
    ∀ o q d : Member → Nat, (∀ m ∈ r.members, (s.core m.core).task.bind = m.bind ∧ ScratchOf s m.core m.asid (m.desc + 0x20) 8 (o m) ∧
      (m.comp ≠ 0 → ScratchOf s m.core m.asid (m.comp.setWidth 56) 8 (q m) ∧ s.place m.core .read (m.comp.setWidth 56) 8 = .scratch (q m) ∧
        Apart (o m) 8 (q m) 8) ∧
      ∀ vals, gets m vals → ScratchOf s m.core m.asid (m.dest.setWidth 56) (4 * vals.length) (d m) ∧ Apart (o m) 8 (d m) (4 * vals.length) ∧
        (m.comp ≠ 0 → Apart (q m) 8 (d m) (4 * vals.length))) →
    ∃ t, exec (.reductionOutcomeArrival key seq bad res) s = .next t ∧ t.mem = s.mem ∧ (∀ n k, (s.ctx n k).SameRegs (t.ctx n k)) ∧
      (∀ x ∈ t.rounds, ¬ (x.key = key ∧ x.seq = seq)) ∧
      (∀ g w p, key = .group g → s.group g 1 = some w → p < 64 → w.getLsbD p = true →
        FabricOut.outcome p g seq bad (if bad = true ∨ (s.groupRoot g = true ∧ ∀ m ∈ r.members, m.all = false) then none else res) ∈ t.fabricOut) ∧
      (∀ n, (∀ m ∈ r.members, m.core ≠ n) → (t.core n).banks = (s.core n).banks) ∧
      ∀ m ∈ r.members, let old := (s.core m.core).banks; let new := (t.core m.core).banks
        cellsLE new.bytes (o m) 8 = (if bad then 1 else 0) ∧
        (m.comp ≠ 0 → BitVec.ofNat 64 (cellsLE new.bytes (q m) 8) = BitVec.ofNat 64 (cellsLE old.bytes (q m) 8) + 1) ∧
        (∀ vals, gets m vals → (∀ j, (h : j < vals.length) → BitVec.ofNat 32 (cellsLE new.bytes (d m + 4 * j) 4) = vals[j]) ∧
          ∀ g, d m ≤ 512 * g → 512 * g + 512 ≤ d m + 4 * vals.length → new.granAt g = match key with
            | .rope _ _ _ => ⟨s.tick, false, false⟩ | .group _ => old.granAt g) ∧
        ∀ a, (a < o m ∨ o m + 8 ≤ a) → (m.comp ≠ 0 → a < q m ∨ q m + 8 ≤ a) →
          (∀ vals, gets m vals → a < d m ∨ d m + 4 * vals.length ≤ a) → cellGet new.bytes a = cellGet old.bytes a

/-! ### Tasks -/

/-- R155, R16, R17, R96: `TDONE` is the lead's; a guard touch, or the first check of the successor list that fails (with log entries 32, 37 and 83 for
what refuses a page and an aperture), stops it with the task BOUND; otherwise it releases at device scope, sends every decrement on its way to the
location that its checks translated, makes the task DONE, and the core is free. -/
def Obligations.FinishingTask : Prop :=
  ∀ st s, Ready (.tdone st) s →
    (s.act.2 ≠ 0 → Traps (.tdone st) s ⟨0x02, 0, 0⟩) ∧
    (s.act.2 = 0 → Quiet s → s.me.reportsBy ≤ s.now → (∀ k ∈ s.myCore.live, k = 0) → (∀ c ∈ s.cmds, c.core ≠ s.act.1) →
      (s.myCore.guardrec.getLsbD 63 = true → exec (.tdone st) s = .next (s.begin.deferred ⟨0x09, guardAddr s.myCore.guardrec, 0⟩)) ∧
      (s.myCore.guardrec.getLsbD 63 = false →
        (∀ x, s.begin.successors = .inl (.inl x) → Traps (.tdone st) s x) ∧
        (∀ va w, s.begin.successors = .inl (.inr (va, w)) → ParksAt (.tdone st) s va w) ∧
        (s.myCore.task.copy.succ = 0 → s.begin.successors = .inr ([], s.begin)) ∧
        ∀ xs u j, s.begin.successors = .inr (xs, u) → s.myCore.on = some j →
          let tcb : VA := s.myCore.task.tcb.setWidth 56
          ∃ t, exec (.tdone st) s = .next t ∧ Vacated t s.act.1 j ∧ (s.now + 1, Ev.dispatchSelect s.act.1) ∈ t.queue ∧ Released s t .device ∧ t.now = s.now ∧
            t.decs = u.decs ++ xs.map (fun p => (s.asid, p.1.toNat, p.2.pa p.1)) ∧
            (∀ p ∈ xs, (s.now + s.lat.home, Ev.predsDecrement s.asid p.1 (p.2.pa p.1)) ∈ t.queue) ∧
            ∀ e, u.walk s.asid tcb = some e → (∀ p ∈ xs, Settled s.act.1 p.2) → Settled s.act.1 e → InPlace u s.asid (tcb + 8) e → Uncounted u s.asid tcb →
              stateAt t s.asid tcb e = stateWord (stateAt u s.asid tcb e) 4))
/-- R156, R12, R16, R79: `TDEC` decrements PREDS at its home and `TCANCEL` makes the cancel's swap there, each after a release of device scope, and
each records a cairn; their checks come first, those of R216 on an atomic among them (the model's reading: log entry 78). R12, R16, R17, R19, R23,
R24, R79: what reaches a TCB at its home: a decrement on its way, where PREDS is poisoned a failure with REASON 0x13, and a cancel of the curator.
A record that is settled writes its counts, raises its vector and is gone. -/
def Obligations.TcbWordsAndEvents : Prop :=
  ((∀ i s st a, TcbWords i st a → Ready i s →
    let x := s.g a
    let va : VA := x.setWidth 56
    (x.toNat % 256 ≠ 0 → Traps i s ⟨0x03, x, 0⟩) ∧
    (x.toNat % 256 = 0 → x.toNat / 2 ^ 56 ≠ 0 → Traps i s ⟨0x07, x, 0⟩) ∧
    (x.toNat % 256 = 0 → x.toNat / 2 ^ 56 = 0 →
      (inLocal va = true ∨ inRope va = true → Traps i s ⟨0x06, x, 0⟩) ∧
      (inLocal va = false → inRope va = false → (s.xlate s.asid va = none → ParksAt i s (va.setWidth 64) true) ∧
        ∀ e, s.xlate s.asid va = some e →
          let low := e.malformed = true ∨ s.physOk (e.pa va) = false ∨ e.wr = false ∨ isRemote (e.pa va) = true
          (low → Traps i s ⟨0x06, x, 0⟩) ∧
          (¬ low → e.cls ≠ .normal → Traps i s ⟨if e.cls = .vitrine then 0x10 else 0x06, x, 0⟩)))) ∧
  (∀ st d a s e, Ready (.tcancel st d a) s → TcbOk s (s.g a) e → s.poisoned (e.pa ((s.g a).setWidth 56)) = true →
    Traps (.tcancel st d a) s ⟨0x13, s.g a, 0⟩) ∧
  (∀ st a s e, Ready (.tdec st a) s → Quiet s → AllStarted s → TcbOk s (s.g a) e →
    let tcb : VA := (s.g a).setWidth 56
    s.walk s.asid tcb = some e → Settled s.act.1 e → s.poisoned (e.pa tcb) = false → TcbAt s s.asid tcb e →
    ∃ t, exec (.tdec st a) s = .next t ∧ s.me.SameRegs t.me ∧ CairnAt s t ∧ Released s t .device ∧ AwaitsHome s t s.lat.home ∧
      OthersSame s t ∧ t.flights = s.flights ∧ t.cmds = s.cmds ∧ t.myCore.banks = s.myCore.banks ∧ Decremented s t s.asid tcb e) ∧
  ∀ st d a s e, Ready (.tcancel st d a) s → Quiet s → AllStarted s → NoneDue s → TcbOk s (s.g a) e → s.cores.ascending = true →
    let tcb : VA := (s.g a).setWidth 56
    s.walk s.asid tcb = some e → Settled s.act.1 e → s.poisoned (e.pa tcb) = false → TcbAt s s.asid tcb e → Uncounted s s.asid tcb →
    ∃ t r, exec (.tcancel st d a) s = .next t ∧ GetsNow s t d (BitVec.ofNat 64 r) ∧ CairnAt s t ∧ Released s t .device ∧
      AwaitsHome s t s.lat.home ∧ (∀ n k, (n, k) ≠ s.act → t.ctx n k = s.ctx n k) ∧ t.flights = s.flights ∧ t.cmds = s.cmds ∧
      t.myCore.banks = s.myCore.banks ∧ CancelSwap s t s.asid tcb e r) ∧
  ((∀ asid tcb pa s, (asid, tcb.toNat, pa) ∈ s.decs →
    let e := s.pteAt asid (tcb + 8) (pa + 8)
    s.pteAt asid (tcb + 16) (pa + 16) = e → TcbAt s asid tcb e →
    (s.poisoned pa = false → ∃ t, exec (.predsDecrement asid tcb pa) s = .next t ∧ Decremented s t asid tcb e ∧
      t.decs = s.decs.erase (asid, tcb.toNat, pa) ∧ t.cores = s.cores ∧ t.cmds = s.cmds ∧ t.flights = s.flights) ∧
    (s.poisoned pa = true →
      let x := stateAt s asid tcb e
      (x.toNat % 256 < 3 → Uncounted s asid tcb → ∃ t, exec (.predsDecrement asid tcb pa) s = .next t ∧
        stateAt t asid tcb e = failedWord x 0x13 ∧ predsAt t asid tcb e = predsAt s asid tcb e ∧ ∀ q, (asid, tcb.toNat) ∉ (t.queueOf q).ready) ∧
      (x.toNat % 256 = 3 → ∀ n j, s.slotWith asid tcb = some (n, j) → (s.core n).on = some j → (s.core n).failing = none →
        ∃ t, exec (.predsDecrement asid tcb pa) s = .next t ∧ FailsTask s t n 0x13 ∧ t.mem = s.mem) ∧
      (3 < x.toNat % 256 → exec (.predsDecrement asid tcb pa) s = .next { s with decs := s.decs.erase (asid, tcb.toNat, pa) }))) ∧
  (∀ asid tcb s e, NoneDue s → s.walk asid tcb = some e → TcbAt s asid tcb e → Uncounted s asid tcb → s.cores.ascending = true →
    ∃ t r, exec (.curatorCancel asid tcb) s = .next t ∧ CancelSwap s t asid tcb e r ∧ ∀ n k, t.ctx n k = s.ctx n k) ∧
  ∀ id s r, s.recs.find? (fun x => x.id == id) = some r → r.waiting = [] → (r.kind = 3 → s.recs.find? (fun x => x.queue == r.queue) = some r) →
    let f := (s.queueOf r.queue).func
    let gone := fun (t : State) => (∀ x, x ∈ t.recs ↔ x ∈ s.recs ∧ x.id ≠ id) ∧ t.cores = s.cores ∧
      (r.flags % 2 = 1 → r.vec < 64 → (s.func f).masked = false → f ∉ s.flr → (f, r.vec) ∈ t.msix) ∧ ∀ v, v ∈ s.msix → v ∈ t.msix
    (r.flags / 2 % 2 = 1 → r.kind ≠ 3 ∨ r.rcomp = 0 → r.bad = false → ∀ e, r.rstat ≠ 0 → ObjectOk s r.asid r.rstat e →
      ∃ t, exec (.recordSettle id) s = .next t ∧ gone t ∧ t.queues = s.queues ∧
        t.devRead r.asid (r.rstat.setWidth 56) 8 e =
          BitVec.ofNat 64 (r.done + r.failed * 2 ^ 16 + r.cancelled * 2 ^ 32 + r.rejected * 2 ^ 48)) ∧
    (r.flags / 2 % 2 = 0 → r.bad = false → (r.kind ≠ 3 → ∃ t, exec (.recordSettle id) s = .next t ∧ gone t ∧ t.mem = s.mem ∧ t.queues = s.queues) ∧
      (r.kind = 3 → r.rcomp ≠ 0 → ∀ e, ObjectOk s r.asid r.rcomp e → ∃ t, exec (.recordSettle id) s = .next t ∧ gone t ∧
        t.devRead r.asid (r.rcomp.setWidth 56) 8 e = s.devRead r.asid (r.rcomp.setWidth 56) 8 e + 1)) ∧
    (r.flags / 2 % 2 = 0 → r.kind ≠ 3 → r.bad = true → (s.queueOf r.queue).err = 0 → ∃ t, exec (.recordSettle id) s = .next t ∧ gone t ∧
      (t.queueOf r.queue).err = 7 ∧ t.mem = s.mem))

/-! ### Failure, the handler and the switch -/

/-- R118, R167, R308, R313, R315, R113–R115: a word that is no instruction takes cause 0x01; an imprecise fault is taken with IMP set and `FSEQ`
naming its ring entry, and enters the resident handler with ENT 1; a fetch brings the words of its line, or of its 16 bytes on an uncached page, as
its home holds them (here of a page that it does not classify anew, R219), or takes the fault that it meets; a word of the handler region that an uncorrectable error has hit halts the core. -/
def Obligations.FaultsWithoutAWord : Prop :=
  (∀ w s, TrapTaken (.illegalInstruction w) s ⟨0x01, s.me.pc.setWidth 64, w.setWidth 64⟩) ∧
  (∀ n k s f, (s.ctx n k).fault = some f → ∃ t, exec (.impreciseFaultTaken n k) s = .next t ∧
    let c := s.ctx n k
    let d := t.ctx n k
    c.SameRegs d ∧ d.fault = none ∧ d.fseq = 0x8000000000000000 ||| f.met.seq.setWidth 64 ∧ t.mem = s.mem ∧
      (∀ m j, (m, j) ≠ (n, k) → t.ctx m j = s.ctx m j) ∧
      (c.hm = true → HaltsOn s t n f.met.cause) ∧
      (c.hm = false → f.met.cause ≠ 0x20 → d.cause = w64 (f.met.cause + 512 : Nat) ∧ d.epc = c.pc.setWidth 64 &&& ~~~3 ∧ d.faddr = f.met.faddr ∧
        d.finfo = f.met.finfo ∧
        d.xstat = (c.xstat &&& 0x4000000000000000) ||| 0x8000000000000100 ∧ d.pc = 0xFFFFFFFFFF0100 ∧ d.readyAt = s.now + 12 ∧
        FailsOn s t n f.met.cause)) ∧
  ∀ n k s, (s.ctx n k).live = true ∨ (s.ctx n k).hm = true → s.fetched n k = none →
    let c := s.ctx n k
    let asid := (s.core n).asid
    (c.hm = true → inHandler c.pc = true → ∃ t, exec (.instructionFetch n k) s = .next t ∧ HaltsOn s t n 0x13) ∧
    (¬ (c.hm = true ∧ inHandler c.pc = true) →
      (inLocal c.pc = true ∨ inRope c.pc = true →
        exec (.instructionFetch n k) s = .next (s.takeTrap n k ⟨0x06, c.pc.setWidth 64, 0⟩ c.pc false false false)) ∧
      (inLocal c.pc = false → inRope c.pc = false →
        (∀ x, s.check .fetch asid c.pc 4 = .trap x →
          exec (.instructionFetch n k) s = .next (s.takeTrap n k ⟨x.cause, c.pc.setWidth 64, 0⟩ c.pc false false false)) ∧
        (∀ va w, s.check .fetch asid c.pc 4 = .page va w → ∃ t, exec (.instructionFetch n k) s = .next t ∧ t = { s with cores := t.cores } ∧
          (∀ m j, (m, j) ≠ (n, k) → t.ctx m j = s.ctx m j) ∧ t.ctx n k = { c with park := .pageFault asid (va.setWidth 64) w }) ∧
        (∀ e pa, s.check .fetch asid c.pc 4 = .ok e pa → ∃ t, exec (.instructionFetch n k) s = .next t ∧
          (∀ m j, (s.ctx m j).SameRegs (t.ctx m j)) ∧ (t.ctx n k).pc = c.pc ∧ (t.ctx n k).readyAt = s.now + s.lat.load ∧
          (Settled n e → t.mem = s.mem ∧ t.locs = s.locs) ∧
          (Settled n e → e.uc = false → ∀ j, j < 32 → let va : VA := (c.pc &&& 0xFFFFFFFFFFFF80) + BitVec.ofNat 56 (4 * j)
            Table.find? (byteKey asid va) (t.core n).icache = some ((s.devRead asid va 4 e).setWidth 32)) ∧
          (Settled n e → e.uc = true → Table.find? c.pc.toNat (t.ctx n k).fbuf = some ((s.devRead asid c.pc 4 e).setWidth 32)))))
/-- R329, R336, R324, R308: the post of a `TRAP` with a code of 32–63 reports to the host and resumes the task at EPC + 4, and a full ring holds it
until the host moves CRTAIL; the handler of a free core is entered with ENT 3 for a task that dispatch selected. -/
def Obligations.HandlerEntries : Prop :=
  (∀ n k s, (s.ctx n k).live = true → (s.ctx n k).hm = true → (s.ctx n k).cause.toNat % 256 = 0x20 → 32 ≤ (s.ctx n k).finfo.toNat % 64 →
    (s.core n).failing = none →
    let c := s.ctx n k
    let code := c.finfo.toNat % 64
    (RingFull s → ∃ t, exec (.handlerEntry n k 0) s = .next t ∧ t = { s with cores := t.cores } ∧ (t.core n).held = some (k, code) ∧
      ∀ m j, t.ctx m j = s.ctx m j) ∧
    (¬ RingFull s → ∃ t, exec (.handlerEntry n k 0) s = .next t ∧
      Reported s t 1 code (s.core n).task.queue.toNat (s.core n).task.taskid c.epc (placeOf s n) ∧ (t.core n).held = none ∧
      t.ctx n k = { c with xstat := c.xstat &&& 0x7FFFFFFFFFFFFFFF, pc := c.epc.setWidth 56 + 4, readyAt := s.now } ∧
      ∀ m j, (m, j) ≠ (n, k) → t.ctx m j = s.ctx m j)) ∧
  (∀ n k ent s, (s.ctx n k).live = false → ent ≠ 3 → exec (.handlerEntry n k ent) s = .next s) ∧
  (∀ n k j s, (s.core n).incoming = some j → (s.core n).free = true → ((s.core n).slot j).selectable = true → ((s.core n).slot j).ctxloc ≠ 3 →
    ∃ t, exec (.handlerEntry n k 3) s = .next t ∧ t = { s with cores := t.cores } ∧ (∀ m, m ≠ n → t.core m = s.core m) ∧ (t.core n).live = [0] ∧
      (t.ctx n 0).hm = true ∧ (t.ctx n 0).xstat.toNat / 2 ^ 8 % 8 = 3 ∧ (t.ctx n 0).pc = 0xFFFFFFFFFF0300 ∧ (t.ctx n 0).readyAt = s.now + 12) ∧
  ∀ v s, ∃ t, exec (.crtailWrite v) s = .next t ∧ t.regs = { s.regs with crtail := v } ∧ t.cores = s.cores ∧ t.mem = s.mem ∧
    (∀ e, e ∈ s.queue → e ∈ t.queue) ∧ ∀ e ∈ s.cores, ∀ k c, e.2.held = some (k, c) → (s.now + 1, Ev.handlerEntry e.1 k 0) ∈ t.queue
/-- R308, R310, R313, R316, R332, R336: where no trap brought a failing task into the handler, context 0 enters it with ENT 4 once no instruction is at
its home; started commands are waited for; then the task is FAILED with its REASON and has left its core, which is free, or, after a halted-fault, is
reported and recovered by the curator, with everything in it zero and the bivouac store's task spilled to HBM. When a failure drains is log entry 8. -/
def Obligations.FailingTask : Prop :=
  (∀ n s r, (s.core n).failing = some r → (∀ f ∈ s.flights, f.core ≠ n) →
    let again := fun (t : State) => (s.now + 1, Ev.taskFailure n) ∈ t.queue ∧ t.cores = s.cores ∧ t.mem = s.mem
    let drops := fun (t : State) => t.cmds = s.cmds.filter fun c => !(c.core == n && c.phase == .waiting)
    ((s.core n).on ≠ none → (s.core n).halted = none → (s.core n).inHM = false →
      ((∃ k ∈ (s.core n).live, ∃ T, (s.ctx n k).park = .home T ∧ s.now < T) → ∃ t, exec (.taskFailure n) s = .next t ∧ again t ∧ drops t) ∧
      ((∀ k ∈ (s.core n).live, ∀ T, (s.ctx n k).park = .home T → T ≤ s.now) → ∃ t, exec (.taskFailure n) s = .next t ∧ drops t ∧
        (t.core n).failing = some r ∧ (t.ctx n 0).live = true ∧ Ctx.SameRegs (s.ctx n 0) (t.ctx n 0) ∧
        (t.ctx n 0).hm = true ∧ (t.ctx n 0).xstat.toNat / 2 ^ 8 % 8 = 4 ∧ (t.ctx n 0).pc = 0xFFFFFFFFFF0400 ∧ (t.ctx n 0).readyAt = s.now + 12 ∧
        (s.now + s.lat.fail, Ev.taskFailure n) ∈ t.queue ∧ t.mem = s.mem ∧ ∀ m j, (m, j) ≠ (n, 0) → t.ctx m j = s.ctx m j)) ∧
    ((s.core n).halted ≠ none ∨ (s.core n).inHM = true → ∀ j, (s.core n).on = some j →
      let asid := (s.core n).asid
      let tcb : VA := (s.core n).task.tcb.setWidth 56
      ((∃ c ∈ s.cmds, c.core = n ∧ c.bind = (s.core n).task.bind ∧ c.phase ≠ .waiting) → ∃ t, exec (.taskFailure n) s = .next t ∧ again t ∧ drops t) ∧
      ((∀ c ∈ s.cmds, c.core = n → c.bind = (s.core n).task.bind → c.phase = .waiting) → Uncounted s asid tcb →
        ∃ t, exec (.taskFailure n) s = .next t ∧ Vacated t n j ∧ (∀ m, m ≠ n → (t.core m).on = (s.core m).on) ∧
        ((s.core n).halted = none → (s.now + 1, Ev.dispatchSelect n) ∈ t.queue ∧
          ∀ e, s.walk asid tcb = some e → InPlace s asid (tcb + 8) e → r < 256 → stateAt t asid tcb e = failedWord (stateAt s asid tcb e) r) ∧
        ((s.core n).halted ≠ none → (t.core n).halted = (s.core n).halted ∧ (s.now + s.lat.fail, Ev.haltedFaultRecovery n) ∈ t.queue ∧
          (¬ RingFull s → t.regs.crhead = s.regs.crhead + 1))))) ∧
  (∀ n s, (s.core n).failing = none → exec (.taskFailure n) s = .next s) ∧
  ∀ n s, (s.core n).failing = none → (s.core n).halted ≠ none → ∃ t, exec (.haltedFaultRecovery n) s = .next t ∧
    let c := t.core n
    c.check = 0 ∧ c.guardrec = 0 ∧ c.wstat = 0 ∧ c.utvec = 0 ∧ c.utmask = 0 ∧ c.spkeep = 0 ∧ c.resinfo = 0 ∧ (∀ k, c.wins.get k = (0, 0)) ∧
    (t.core n).halted = none ∧ (t.core n).ctxs = [] ∧ (t.core n).banks = Banks.init ∧ (t.core n).lines = [] ∧ (t.core n).active = Pair.init ∧
    (t.core n).biv = none ∧ (s.now + 1, Ev.dispatchSelect n) ∈ t.queue ∧ (∀ m, m ≠ n → t.core m = s.core m) ∧
    ((s.core n).biv = none → t.mem = s.mem) ∧ ∀ i, (s.core n).biv = some i → ((t.core n).slot i.slot).ctxloc = 2 ∧ ((t.core n).slot i.slot).hbm ≠ none ∧
      let p := ((s.core n).slot i.slot).spill.toNat
      ∀ a, a < p ∨ p + 32768 ≤ a → t.byte a = s.byte a
/-- R316, R317, R319, R318, R330: the pre-emption request stops every context as its state says and enters the handler with ENT 2; `CTXSV` writes the
register sets of its mask and the task area into the save bank, which stamps it (R101), `CTXLD` brings them back and makes exactly the mask live, each for
4 + ⌈B / 64⌉ cycles; a word that it reads and that is uncorrectable fails the task (R326). Outside handler mode the words of this kind take cause 0x02;
the FADDR of a refused mask is the model's reading (log entry 13), and the bytes of a control area and of the task area are free (log entry 10). -/
def Obligations.StoppingAndSaving : Prop :=
  (∀ i s, HandlerWords i → Ready i s → s.me.hm = false → Traps i s ⟨0x02, 0, 0⟩) ∧
  (∀ n s, (s.core n).preempt = true → (s.core n).on ≠ none → (s.core n).failing = none → (s.core n).halted = none →
    (s.core n).inHM = false → (s.core n).live.Nodup → (∀ f ∈ s.flights, f.core ≠ n) →
    ((∃ k ∈ (s.core n).live, (s.dropLease n).mustFinish n k = true) → ∃ t, exec (.preemptTake n) s = .next t ∧ t.cores = s.cores ∧
      (s.now + 1, Ev.preemptTake n) ∈ t.queue) ∧
    ((∀ k ∈ (s.core n).live, (s.dropLease n).mustFinish n k = false) → 0 ∈ (s.core n).live → ∃ t, exec (.preemptTake n) s = .next t ∧
      (t.core n).preempt = false ∧ (t.ctx n 0).hm = true ∧ (t.ctx n 0).xstat.toNat / 2 ^ 8 % 8 = 2 ∧ (t.ctx n 0).pc = 0xFFFFFFFFFF0200 ∧
      (t.ctx n 0).readyAt = s.now + 12 ∧ t.mem = s.mem ∧ (∀ m, m ≠ n → t.core m = s.core m) ∧
      (∀ c ∈ t.cmds, c.core = n → c.ctx ∈ (s.core n).live → c.phase ≠ .waiting) ∧
      ∀ k ∈ (s.core n).live,
        let c := s.ctx n k
        let d := if k = 0 then (t.core n).stopped.getD Ctx.init else t.ctx n k
        d.pc = c.pc ∧ d.cairnpc = c.cairnpc ∧ d.image = c.image ∧ d.pend = [] ∧
          (∀ T, (∀ p ∈ c.pend, p.time ≤ T) → ∀ h r, d.gIn h r = (c.landAll T).gIn h r) ∧
          (∀ a b g, c.park = .belay a b g → d.park = c.park) ∧ (∀ a va w, c.park = .pageFault a va w → d.park = c.park) ∧
          (∀ w l, c.park = .cond w → w.limit = some l → d.park = .no ∧ d.left = some (c.pc.toNat, l - (s.now - w.since))))) ∧
  (∀ st a s, Ready (.ctxsv st a) s → s.me.hm = true →
    let x := s.g a
    ((2 ^ 11 ≤ x.toNat ∨ ∃ k, 1 ≤ k ∧ k < 11 ∧ x.getLsbD k = true ∧ (s.ctx s.act.1 k).live = false) →
      Traps (.ctxsv st a) s ⟨0x01, s.me.pc.setWidth 64, (wordOf (.ctxsv st a)).setWidth 64⟩) ∧
    (x.toNat < 2 ^ 11 → (∀ k, 1 ≤ k → k < 11 → x.getLsbD k = true → (s.ctx s.act.1 k).live = true) → ∃ t i, exec (.ctxsv st a) s = .next t ∧
      s.me.SameRegs t.me ∧ t.me.pc = s.me.pc + 4 ∧ t.me.park = .home (s.now + (4 + (maskBytes x + 63) / 64)) ∧ t.mem = s.mem ∧ OthersSame s t ∧
      t.myCore.banks = { s.myCore.banks with base := t.myCore.banks.base, gran := t.myCore.banks.gran, bytes := t.myCore.banks.bytes } ∧
      (∀ a, a < 311296 ∨ 311296 + 0x3000 ≤ a → cellGet t.myCore.banks.bytes a = cellGet s.myCore.banks.bytes a) ∧
      (∀ h, t.myCore.banks.granAt h = if 608 ≤ h ∧ h < 640 then ⟨s.tick, false, false⟩ else s.myCore.banks.granAt h) ∧
      t.myCore.save = some i ∧ i.slot = s.myCore.on.getD 0 ∧ i.tsave = s.tick ∧ (∀ w ∈ i.bad, ¬ InSets x w) ∧
      i.area.wstat = s.myCore.wstat ∧ i.area.guardrec = s.myCore.guardrec ∧ i.area.check = s.myCore.check ∧ i.area.utvec = s.myCore.utvec ∧
      i.area.utmask = s.myCore.utmask ∧ i.area.spkeep = s.myCore.spkeep ∧ i.area.resinfo = s.myCore.resinfo ∧
      ∀ k, k < 11 → x.getLsbD k = true → (∃ e ∈ i.ctxs, e.idx = k) ∧ ∀ e ∈ i.ctxs, e.idx = k →
        SavedAs (if k = 0 then (s.ctx s.act.1 0).stoppedAs s.myCore.stopped else s.ctx s.act.1 k) e.ctx ∧
        SetStands t.myCore.banks.bytes k e.ctx)) ∧
  ∀ st a s i, Ready (.ctxld st a) s → s.me.hm = true → s.act.2 < 11 → s.myCore.save = some i →
    let x := s.g a
    (2 ^ 11 ≤ x.toNat → Traps (.ctxld st a) s ⟨0x01, s.me.pc.setWidth 64, (wordOf (.ctxld st a)).setWidth 64⟩) ∧
    (x.toNat < 2 ^ 11 → (∃ w ∈ i.bad, InSets x w) → ∃ t, exec (.ctxld st a) s = .next t ∧ Fails s t 0x13 ∧ s.me.SameRegs t.me) ∧
    (x.toNat < 2 ^ 11 → (∀ w ∈ i.bad, ¬ InSets x w) → ∃ t, exec (.ctxld st a) s = .next t ∧ t.me.pc = s.me.pc + 4 ∧ t.me.hm = true ∧ t.mem = s.mem ∧
      t.me.park = .home (s.now + (4 + (maskBytes x + 63) / 64)) ∧ (∀ m, m ≠ s.act.1 → t.core m = s.core m) ∧
      (∀ k, k < 11 → (t.ctx s.act.1 k).live = x.getLsbD k) ∧ (x.getLsbD s.act.2 = false → s.me.SameRegs t.me) ∧
      (∀ k, k < 11 → k ≠ s.act.2 → x.getLsbD k = true → t.ctx s.act.1 k = { i.ctxAt k with live := true }) ∧
      (x.getLsbD s.act.2 = true → t.me.g = (i.ctxAt s.act.2).g ∧ t.me.v = (i.ctxAt s.act.2).v ∧ t.me.p = (i.ctxAt s.act.2).p ∧ t.me.hg = s.me.hg) ∧
      t.myCore.wstat = i.area.wstat ∧ t.myCore.guardrec = i.area.guardrec ∧ t.myCore.check = i.area.check ∧ t.myCore.utvec = i.area.utvec ∧
      t.myCore.utmask = i.area.utmask ∧ t.myCore.spkeep = i.area.spkeep ∧ t.myCore.resinfo = i.area.resinfo)
/-- R320, R321, R323, R324, R325, R331, R317, R359: `BXCH` waits until the store is ready and no write into the core's scratch is due; it gives up the cache's
lines, and 1,536 cycles later, or once their write-backs are acknowledged and the tiles have settled, exchanges the core's image with the bivouac store,
and the pairs with it; the task is on the core until then. A third task in the store is spilled to HBM, which keeps what `SPKEEP` names (its bytes in the
spill area are free: log entry 10) and, as R359 has it and R321 does not, every slot tag (log entry 68); a spilled image comes back where the store is free. `CRESUME` ends handler mode: each context of a restored image resumes as its kind gives, or the core passes to dispatch. -/
def Obligations.ExchangeAndResume : Prop :=
  (∀ st s, Ready (.bxch st) s → s.me.hm = true →
    let n := s.act.1
    let c := s.myCore
    let kept := fun (t : State) => s.me.SameRegs t.me ∧ t.me.pc = s.me.pc ∧ t.myCore.banks = c.banks ∧ t.myCore.on = c.on ∧ t.myCore.biv = c.biv ∧
      t.myCore.active = c.active ∧ t.myCore.shadow = c.shadow ∧ (∀ m, m ≠ n → (t.core m).banks = (s.core m).banks ∧ ∀ k, t.ctx m k = s.ctx m k)
    let moved := fun (t : State) => s.me.SameRegs t.me ∧ GoesOn s t st ∧ t.mem = s.mem ∧ (∀ m, m ≠ n → t.core m = s.core m) ∧
      t.myCore.active = c.shadow ∧ t.myCore.shadow = c.active ∧
      (c.on = none → t.myCore.biv = none) ∧ ∀ j, c.on = some j → ∃ i, t.myCore.biv = some i ∧ i.slot = j ∧ i.tsave = s.tick ∧ i.hbm = false ∧
        i.lost = false ∧ Kept c.banks i.banks s.tick ∧ ∀ sv, c.save = some sv → i.ctxs = sv.ctxs ∧ i.area = sv.area
    (¬ ExchangeReady s n ∨ s.scratchDue n = true → ∃ t, exec (.bxch st) s = .next t ∧ kept t ∧ t.me.park = .drain ∧ t.mem = s.mem ∧
      (¬ ExchangeReady s n → (c.biv ≠ none → ∃ d, (d, Ev.bivouacSpill n) ∈ t.queue) ∧
        ∀ j x, c.biv = none → s.comingIn n = some (j, x) → ∃ d, (d, Ev.spillLoadBack n j) ∈ t.queue)) ∧
    (ExchangeReady s n → s.scratchDue n = false →
      (s.me.answer = none → ∃ t, exec (.bxch st) s = .next t ∧ kept t ∧ t.me.answer ≠ none ∧ t.myCore.lines = [] ∧
        t.me.park = .home (s.now + max 1536 (s.writeBackTime n fun _ => true))) ∧
      (s.me.answer ≠ none → s.tilesSettled n = false → ∃ t, exec (.bxch st) s = .next t ∧ kept t ∧ t.me.park = .drain) ∧
      (s.me.answer ≠ none → s.tilesSettled n = true →
        (s.comingIn n = none → c.on = none → ∃ t, exec (.bxch st) s = .next t ∧ s.me.SameRegs t.me ∧ GoesOn s t st ∧ t.mem = s.mem ∧
          (∀ m, m ≠ n → t.core m = s.core m) ∧ t.myCore.on = none ∧ t.myCore.restored = none ∧ t.myCore.biv = c.biv ∧ t.myCore.banks = c.banks) ∧
        ((s.comingIn n).isSome = true ∨ c.on ≠ none → (∀ j x, s.comingIn n = some (j, x) → x.ctxloc = 3) → ∃ t, exec (.bxch st) s = .next t ∧ moved t ∧
          t.myCore.on = none ∧ t.myCore.restored = none ∧ t.myCore.banks = Banks.init ∧ ∀ j, c.on = some j → (t.myCore.slot j).ctxloc = 1) ∧
        ∀ b x, c.biv = some b → s.comingIn n = some (b.slot, x) → x.ctxloc ≠ 3 → ∃ t, exec (.bxch st) s = .next t ∧ moved t ∧
          t.myCore.on = some b.slot ∧ t.myCore.restored = some b ∧ t.myCore.save = some b ∧ Restamped b.banks t.myCore.banks s.tick ∧
          (t.myCore.slot b.slot).ctxloc = 0 ∧ ∀ j, c.on = some j → j ≠ b.slot → (t.myCore.slot j).ctxloc = 1))) ∧
  (∀ n s, ((s.core n).biv = none → exec (.bivouacSpill n) s = .next s) ∧
    ∀ i, (s.core n).biv = some i → ∃ t img, exec (.bivouacSpill n) s = .next t ∧ t = { s with cores := t.cores, mem := t.mem, fresh := t.fresh } ∧
      (let p := ((s.core n).slot i.slot).spill.toNat
        ∀ a, a < p ∨ p + 32768 ≤ a → t.byte a = s.byte a) ∧ (∀ m, m ≠ n → t.core m = s.core m) ∧ (t.core n).biv = none ∧ (t.core n).shadow = Pair.init ∧ ((t.core n).slot i.slot).ctxloc = 2 ∧
      ((t.core n).slot i.slot).hbm = some img ∧ img.slot = i.slot ∧ img.hbm = true ∧ img.ctxs = i.ctxs ∧ img.area = i.area ∧
      img.pair = (s.core n).shadow ∧ img.banks.fifo = i.banks.fifo ∧ img.banks.spcfg = i.banks.spcfg ∧ img.banks.tags = i.banks.tags ∧
      (∀ g, (KeptGranule i g → img.banks.granAt g = i.banks.granAt g ∧
          ∀ a, 512 * g ≤ a → a < 512 * g + 512 → cellGet img.banks.bytes a = cellGet i.banks.bytes a) ∧
        (¬ KeptGranule i g → (if 608 ≤ g ∧ g < 640 then img.banks.granAt g = i.banks.granAt g else (img.banks.granAt g).exp = true) ∧
          ∀ a, 512 * g ≤ a → a < 512 * g + 512 → cellGet img.banks.bytes a = if 608 ≤ g then cellGet i.banks.bytes a else 0)) ∧
      (img.lost = true ↔ i.lost = true ∨ ∃ g, g < (i.banks.slen + 511) / 512 ∧ ¬ KeptGranule i g ∧ (i.banks.granAt g).exp = false)) ∧
  (∀ n j s i, ((s.core n).slot j).hbm = some i → ((s.core n).slot j).v = true → ((s.core n).slot j).ctxloc = 2 →
    ((s.core n).biv = none → s.ladderRoom n i = true → ∃ t, exec (.spillLoadBack n j) s = .next t ∧ t = { s with cores := t.cores } ∧
      (t.core n).biv = some i ∧ (t.core n).shadow = i.pair ∧ ((t.core n).slot j).hbm = some i ∧ ∀ m, m ≠ n → t.core m = s.core m) ∧
    ((∃ b, (s.core n).biv = some b ∧ b.slot ≠ j) ∨ (s.core n).biv = none ∧ s.ladderRoom n i = false → ∃ t, exec (.spillLoadBack n j) s = .next t ∧
      t.cores = s.cores ∧ (s.now + s.lat.fail, Ev.spillLoadBack n j) ∈ t.queue)) ∧
  ∀ st s, Ready (.cresume st) s → s.me.hm = true →
    let n := s.act.1
    (s.myCore.restored = none → ∃ t, exec (.cresume st) s = .next t ∧ (s.now + 1, Ev.dispatchSelect n) ∈ t.queue ∧ t.mem = s.mem ∧
      (∀ m, m ≠ n → t.core m = s.core m) ∧ ∀ k, (t.ctx n k).live = false ∧ (t.ctx n k).hm = false) ∧
    ∀ i, s.myCore.restored = some i → s.myCore.live.Nodup → (∀ k ∈ s.myCore.live, (s.ctx n k).replay = []) →
      (∀ x, s.myCore.stopped = some x → x.replay = []) → ∃ t, exec (.cresume st) s = .next t ∧ t.mem = s.mem ∧ t.myCore.restored = none ∧
      (∀ m, m ≠ n → t.core m = s.core m) ∧
      t.myCore.resinfo = w64 (min 0xFFFF (s.myCore.resinfo.toNat / 2 ^ 48 + 1) * 2 ^ 48 + (if i.hbm then 2 ^ 39 else 0) + (if i.lost then 2 ^ 38 else 0) +
        i.tsave.toNat * 2 ^ 16 + s.tick.toNat : Nat) ∧
      ∀ k ∈ s.myCore.live,
        let c := if k = s.act.2 then (s.ctx n k).behind s.myCore.stopped else s.ctx n k
        let d := t.ctx n k
        d.live = true ∧ d.hm = false ∧ d.anchor = true ∧ d.readyAt = s.now + 1 + (if k = s.act.2 then st.toNat else 0) ∧
          (∀ a b g, c.park = .belay a b g → c.SameRegs d ∧ d.pc = c.pc ∧ d.park = c.park) ∧
          ((∃ a va w, c.park = .pageFault a va w) ∨ (c.cairnV = false ∧ ∀ a b g, c.park ≠ .belay a b g) → c.SameRegs d ∧ d.pc = c.pc ∧ d.park = .no) ∧
          (c.cairnV = true → (∀ a va w, c.park ≠ .pageFault a va w) → (∀ a b g, c.park ≠ .belay a b g) → ∀ img, c.image = some img →
            d.g = img.g ∧ d.v = img.v ∧ d.p = img.p ∧ d.mshape = img.mshape ∧ d.pend = [] ∧ d.pc = c.cairnpc.setWidth 56 &&& 0xFFFFFFFFFFFFFC ∧
              d.suppress = c.nfx ∧ d.issued = 0 ∧
              (c.cairnpc.getLsbD 62 = true → s.holdsLease n = false → d.park = .retry s.now true ∧ ∃ w ∈ (t.rope (n / 8)).waiting, w.1 = 16 * n + k) ∧
              (c.cairnpc.getLsbD 62 = false ∨ s.holdsLease n = true → d.park = .no))

/-! ### Launch -/

/-- R70–R72: a write of QTAIL makes records eligible or is error 0x02; EN is error 0x06 on an invalid configuration and otherwise sets the queue
reading; CLR clears ERR and reading goes on. R12, R21–R24, R71, R72: a record that is malformed, or that cannot be read, stops its queue with nothing
changed; otherwise QHEAD passes it, a SUBMIT makes each NEW TCB READY, or WAITING on its predecessors, a CANCEL makes the swap of R79, a MARKER
settles after the records before it, and what they reject is counted. The model's choices: a tail written while the queue could not read stays unread
(log entry 93), an empty identifier range is invalid (log entry 94); the field checks read with log entry 48. -/
def Obligations.QueuesAndRecords : Prop :=
  ((∀ q v s, ∃ t, exec (.qtailWrite q v) s = .next t ∧ (t.queueOf q).qtail = v ∧ (t.queueOf q).qhead = (s.queueOf q).qhead ∧ t.mem = s.mem ∧
    t.cores = s.cores ∧ (∀ p, p ≠ q → t.queueOf p = s.queueOf p) ∧
    let b := s.queueOf q
    (2 ^ cfgField b 0 5 < (v - b.qhead).toNat → TakesError s t q 2 ∧ (t.queueOf q).seen = b.seen ∧ t.queue = s.queue) ∧
      ((v - b.qhead).toNat ≤ 2 ^ cfgField b 0 5 →
        (b.en = true → b.err = 0 → (t.queueOf q).seen = v ∧ (v ≠ b.qhead → Polls s t q) ∧ (v = b.qhead → t.queue = s.queue)) ∧
        (b.en = false ∨ b.err ≠ 0 → (t.queueOf q).seen = b.seen ∧ t.queue = s.queue))) ∧
  (∀ q en s, ∃ t, exec (.queueEnable q en) s = .next t ∧ (t.queueOf q).en = en ∧ t.mem = s.mem ∧ t.cores = s.cores ∧
    (∀ p, p ≠ q → t.queueOf p = s.queueOf p) ∧ let b := s.queueOf q
    (en = false → t.queue = s.queue ∧ (t.queueOf q).err = b.err) ∧ (en = true → ConfigBad s b → TakesError s t q 6) ∧
      (en = true → ¬ ConfigBad s b → (t.queueOf q).err = b.err ∧ (b.err = 0 → b.qhead ≠ b.seen → Polls s t q))) ∧
  ∀ q s, ∃ t, exec (.queueClear q) s = .next t ∧ (t.queueOf q).err = 0 ∧ t.mem = s.mem ∧ t.cores = s.cores ∧
    (∀ p, p ≠ q → t.queueOf p = s.queueOf p) ∧
    ((s.queueOf q).en = true → (s.queueOf q).qhead ≠ (s.queueOf q).seen → Polls s t q)) ∧
  ((∀ i s q w, i = .submitRecord q ∨ i = .cancelRecord q ∨ i = .markerRecord q → NextRecord s q w → ¬ RecOk (s.queueOf q) w →
    ∃ t, exec i s = .next t ∧ TakesError s t q 1 ∧ (t.queueOf q).qhead = (s.queueOf q).qhead ∧ t.mem = s.mem ∧ t.recs = s.recs ∧ t.cores = s.cores) ∧
  (∀ i s q w, i = .submitRecord q ∧ (w 0).toNat % 256 = 1 ∨ i = .cancelRecord q ∧ (w 0).toNat % 256 = 2 → NextRecord s q w → RecOk (s.queueOf q) w →
    (∃ k, k < (w 0).toNat / 2 ^ 16 % 2 ^ 16 ∧ s.tcbReadable ((w 2).setWidth 13) ((w 1).setWidth 56 + BitVec.ofNat 56 (256 * k)) = false) →
    ∃ t, exec i s = .next t ∧ TakesError s t q 3 ∧ (t.queueOf q).qhead = (s.queueOf q).qhead ∧ t.mem = s.mem ∧ t.recs = s.recs ∧ t.cores = s.cores) ∧
  (∀ q s w, q < 64 → NextRecord s q w → RecOk (s.queueOf q) w → (w 0).toNat % 256 = 1 → (w 0).toNat / 2 ^ 16 % 2 ^ 16 = 1 → (∀ r ∈ s.recs, r.id ≠ s.next) →
    let asid : Asid := (w 2).setWidth 13
    let tcb : VA := (w 1).setWidth 56
    s.tcbReadable asid tcb = true → ∀ e, s.walk asid tcb = some e → TcbAt s asid tcb e →
      s.walk asid (tcb + 8) = some e → s.walk asid (tcb + 16) = some e →
      let x := stateAt s asid tcb e
      ∃ t r, exec (.submitRecord q) s = .next t ∧ (t.queueOf q).qhead = (s.queueOf q).qhead + 1 ∧ r ∈ t.recs ∧ r.id = s.next ∧ r.queue = q ∧
        r.kind = 1 ∧ r.asid = asid ∧ r.rcomp = w 3 ∧ r.rstat = w 4 ∧ r.done = 0 ∧ r.failed = 0 ∧ r.cancelled = 0 ∧ (∀ y ∈ s.recs, y ∈ t.recs) ∧
        (x.toNat % 256 = 0 → stateAt t asid tcb e = (x &&& 0x000007FFFF010000) ||| w64 ((if predsAt s asid tcb e = 0 then 2 else 1) + q * 2 ^ 8 : Nat) ∧
          r.waiting = [tcb.toNat] ∧ r.rejected = 0 ∧ (predsAt s asid tcb e = 0 → (asid, tcb.toNat) ∈ (t.queueOf q).ready)) ∧
        (x.toNat % 256 ≠ 0 → w 3 = 0 → t.mem = s.mem ∧ r.waiting = [] ∧ r.rejected = 1 ∧ (s.now + 1, Ev.recordSettle s.next) ∈ t.queue)) ∧
  (∀ q s w, NextRecord s q w → RecOk (s.queueOf q) w → (w 0).toNat % 256 = 2 → (w 0).toNat / 2 ^ 16 % 2 ^ 16 = 1 → w 3 = 0 →
    (∀ r ∈ s.recs, r.id ≠ s.next) → NoneDue s → s.cores.ascending = true →
    let asid : Asid := (w 2).setWidth 13
    let tcb : VA := (w 1).setWidth 56
    s.tcbReadable asid tcb = true → Uncounted s asid tcb → ∀ e, s.walk asid tcb = some e → TcbAt s asid tcb e →
      ∃ t k r, exec (.cancelRecord q) s = .next t ∧ CancelSwap s t asid tcb e k ∧ (t.queueOf q).qhead = (s.queueOf q).qhead + 1 ∧ r ∈ t.recs ∧
        r.id = s.next ∧ r.queue = q ∧ r.kind = 2 ∧ r.waiting = (if k = 2 then [tcb.toNat] else []) ∧ r.cancelled = (if k = 1 then 1 else 0) ∧
        r.rejected = (if k = 0 then 1 else 0) ∧ (k ≠ 2 → (s.now + 1, Ev.recordSettle s.next) ∈ t.queue)) ∧
  ∀ q s w, NextRecord s q w → RecOk (s.queueOf q) w → (w 0).toNat % 256 = 3 → (∀ r ∈ s.recs, r.id ≠ s.next) →
    ∃ t r, exec (.markerRecord q) s = .next t ∧ (t.queueOf q).qhead = (s.queueOf q).qhead + 1 ∧ t.recs = s.recs ++ [r] ∧ r.id = s.next ∧ r.kind = 3 ∧
      r.queue = q ∧ r.waiting = [] ∧ t.mem = s.mem ∧ t.cores = s.cores ∧
      ((∀ y ∈ s.recs, y.queue ≠ q) → (s.now + 1, Ev.recordSettle s.next) ∈ t.queue))
/-- R20, R73–R75, R72: the curator binds the ready TCB of highest PRIO of the queue with the highest EPRIO, round robin among equals; the first check
of R20 that fails makes the task FAILED with its reason, and one that cannot be read leaves the list with ERR 0x08; otherwise the slot that the
curator chose holds the task's copy, with PE as PRIO compares with the core's task (R76), and dispatch's swap makes the task BOUND, and asks the core to save a
task of lower PRIO, or clears the slot. The model's choices: a TCB whose page is unmapped counts as denied (log entry 53), a ready TCB that cannot be read
has PRIO 0 (log entry 50), a task's identifier is its TCB's (log entry 106), and a queue whose TCB is refused counts as served (log entry 107). -/
def Obligations.Binding : Prop :=
  (∀ s q, s.nextQueue = some q → q < 64 ∧ Servable s q ∧ ∀ p, p < 64 → Servable s p →
    (s.queueOf p).eprio < (s.queueOf q).eprio ∨ (s.queueOf p).eprio = (s.queueOf q).eprio ∧ turnOf s q ≤ turnOf s p) ∧
  (∀ s q, s.nextQueue = none → q < 64 → ¬ Servable s q) ∧
  (∀ (s : State) q x, s.nextReady q = some x → ∃ a b, (s.queueOf q).ready = a ++ x :: b ∧ (∀ y ∈ a, s.tcbPrio y < s.tcbPrio x) ∧ ∀ y ∈ b, s.tcbPrio y ≤ s.tcbPrio x) ∧
  (∀ n j start delay spill s q asid a, s.mayBind = true → s.nextQueue = some q → s.nextReady q = some (asid, a) → a < 2 ^ 56 →
    let tcb : VA := BitVec.ofNat 56 a
    let b := s.queueOf q
    (s.tcbReadable asid tcb = false → Uncounted s asid tcb → ∃ t, exec (.curatorBind n j start delay spill) s = .next t ∧ TakesError s t q 8 ∧
      (∀ p, (asid, a) ∉ (t.queueOf p).ready) ∧ t.mem = s.mem ∧ t.cores = s.cores) ∧
    (s.tcbReadable asid tcb = true →
      (∀ k, k < 8 → (∀ i, i < k → LaunchCheck s b asid tcb i) → ¬ LaunchCheck s b asid tcb k → Uncounted s asid tcb →
        ∀ e, s.walk asid tcb = some e → InPlace s asid (tcb + 8) e → ∃ t, exec (.curatorBind n j start delay spill) s = .next t ∧
          stateAt t asid tcb e = failedWord (stateAt s asid tcb e) (0xE0 + k) ∧ (∀ p, (asid, a) ∉ (t.queueOf p).ready) ∧ t.cores = s.cores) ∧
      ((∀ k, k < 8 → LaunchCheck s b asid tcb k) → MayTake s (b.qmask &&& s.tcbRopes asid tcb) n → j < 11 → ((s.core n).slot j).v = false →
        ∃ t, exec (.curatorBind n j start delay spill) s = .next t ∧ t.mem = s.mem ∧ (s.now + s.lat.home, Ev.dispatchBind n j) ∈ t.queue ∧
          t.served = q ∧ t.binds = s.binds + 1 ∧ (∀ p, (asid, a) ∉ (t.queueOf p).ready) ∧ (∀ m, m ≠ n → t.core m = s.core m) ∧
          (∀ i, i ≠ j → (t.core n).slot i = (s.core n).slot i) ∧
          let w := s.tcbWord asid tcb
          let u := (t.core n).slot j
          u.v = true ∧ u.bound = false ∧ (u.pe = true ↔ (s.core n).on ≠ none ∧ (s.core n).task.prio < b.eprio) ∧ u.prio = b.eprio ∧ u.ctxloc = 3 ∧
            u.queue = BitVec.ofNat 6 q ∧ u.tcb = tcb.setWidth 64 ∧ u.start = start + delay ∧ u.spill = spill &&& 0xFFFFFFFFFFFF0000 ∧
            u.bind = s.binds + 1 ∧ u.asid = BitVec.ofNat 13 ((w 0x38).toNat / 2 ^ 32) ∧ u.pitch = BitVec.ofNat 4 ((w 0x38).toNat / 2 ^ 57) ∧
            u.taskid = BitVec.ofNat 32 ((w 0x10).toNat / 2 ^ 32) ∧ u.copy.entry = w 0 ∧ u.copy.succ = w 0x18 ∧ u.copy.scratch = (w 0x38).toNat % 2 ^ 32 ∧
            ∀ k : Fin 8, u.copy.wins.get k = (w (0x40 + 16 * k.val), w (0x48 + 16 * k.val))))) ∧
  ∀ n j s, let u := (s.core n).slot j
    let tcb : VA := u.tcb.setWidth 56
    u.v = true → u.bound = false → u.ctxloc = 3 → ∀ e, s.walk u.asid tcb = some e → InPlace s u.asid (tcb + 8) e →
      ((stateAt s u.asid tcb e).toNat % 256 = 2 → ∃ t, exec (.dispatchBind n j) s = .next t ∧
        stateAt t u.asid tcb e = boundWord (stateAt s u.asid tcb e) n ∧ ((t.core n).slot j).bound = true ∧ ((t.core n).slot j).v = true ∧
        (∀ p, (u.asid, tcb.toNat) ∉ (t.queueOf p).ready) ∧ (t.queueOf u.queue.toNat).age = 0 ∧ (s.now + 1, Ev.dispatchSelect n) ∈ t.queue ∧
        ∀ i, (s.core n).on = some i → u.pe = true → ((s.core n).slot i).prio < u.prio → (s.core n).preempt = false → (s.core n).failing = none →
          (s.core n).halted = none → (s.core n).restored = none → (t.core n).preempt = true ∧ (s.now, Ev.preemptTake n) ∈ t.queue) ∧
      ((stateAt s u.asid tcb e).toNat % 256 ≠ 2 → ∃ t, exec (.dispatchBind n j) s = .next t ∧ ((t.core n).slot j).v = false ∧ t.mem = s.mem ∧ t.locs = s.locs)
/-- R75–R78, R90, R93, R18: a free core's dispatch selects the slot of R77, starts a fresh task at its START and enters the handler for a saved one; a
first start gives the banks, the registers and the lead their start values, the save bank left as it was, and makes the acquire; every interval ages the
queues that wait (a task whose slot is written waits no longer: log entry 108). -/
def Obligations.Dispatching : Prop :=
  (∀ c : Core, Table.ascending c.slots = true → (∀ j t, c.best none = some (j, t) → (j, t) ∈ c.slots ∧ t.selectable = true ∧
      ∀ e ∈ c.slots, e.2.selectable = true → Preferred j t e.1 e.2) ∧ (c.best none = none → ∀ e ∈ c.slots, e.2.selectable = false)) ∧
  (∀ n s, ((s.core n).free = false ∨ s.thermal = 2 ∨ (s.core n).best none = none → exec (.dispatchSelect n) s = .next s) ∧
    ((s.core n).free = true → s.thermal ≠ 2 → ∀ j u, (s.core n).best none = some (j, u) →
      (u.ctxloc = 3 → ∃ t, exec (.dispatchSelect n) s = .next t ∧ t = { s with queue := t.queue } ∧
        (max u.start.toNat (s.now + 1), Ev.dispatchStart n j) ∈ t.queue) ∧
      (u.ctxloc ≠ 3 → ∃ t, exec (.dispatchSelect n) s = .next t ∧ t = { s with cores := t.cores, queue := t.queue } ∧
        t.core n = { s.core n with incoming := some j } ∧ (∀ m, m ≠ n → t.core m = s.core m) ∧ (s.now + 1, Ev.handlerEntry n 0 3) ∈ t.queue ∧
        (u.ctxloc = 2 → (s.now + s.lat.fail, Ev.spillLoadBack n j) ∈ t.queue)))) ∧
  (∀ n j s u, (s.core n).free = true → (s.core n).best none = some (j, u) → u.ctxloc = 3 → u.start.toNat ≤ s.now → s.thermal ≠ 2 → u.copy.scratch ≤ 294912 →
    (s.core n).slot j = u → ∃ t, exec (.dispatchStart n j) s = .next t ∧
      let c := t.core n
      let d := t.ctx n 0
      c.on = some j ∧ c.live = [0] ∧ (c.slot j).ctxloc = 0 ∧ (c.slot j).wd = 0 ∧ c.check = 0x30 ∧ c.guardrec = 0 ∧ c.pitch = u.pitch.setWidth 64 ∧
        c.wins = u.copy.wins ∧ c.wstat = 0 ∧ c.utvec = 0 ∧ c.utmask = 0 ∧ c.spkeep = 0 ∧ c.resinfo = 0 ∧ c.active = Pair.init ∧
        LaidOut c.banks ((u.copy.scratch + 63) / 64 * 64) 0 ∧ (∀ a, a < 311296 → cellGet c.banks.bytes a = 0) ∧ (∀ k, c.banks.tagAt k = 0) ∧
        (∀ g, g < 608 → c.banks.granAt g = ⟨s.tickIn (d.readyAt - s.now), false, false⟩) ∧
        (∀ g, 608 ≤ g → g < 640 → c.banks.granAt g = (s.core n).banks.granAt g) ∧
        (∀ a, 311296 ≤ a → cellGet c.banks.bytes a = cellGet (s.core n).banks.bytes a) ∧ c.zeroAt = d.readyAt ∧
        (∀ l, l ∈ c.lines ↔ l ∈ (s.core n).lines ∧ c.banks.role l.way = 0 ∧ l.home = n / 384) ∧
        d.pc = u.copy.entry.setWidth 56 ∧ s.now + 256 ≤ d.readyAt ∧ ((∀ l ∈ (s.core n).lines, l.dirty = false) → d.readyAt = s.now + 256) ∧
        d.anchor = true ∧ d.park = .no ∧ (∀ h r, d.gIn h r = 0) ∧ (∀ r, d.vget r = Lanes.fill 0) ∧
        d.rmode = 0 ∧ d.cairnpc = 0 ∧ d.xstat = 0 ∧ d.mshape = 0x007F7F7F ∧ d.fault = none ∧ (∀ m, m ≠ n → (t.core m).ctxs = (s.core m).ctxs) ∧
        ∀ b ∈ s.pubs, within b.scope b.agent n = true → ∀ k, (Table.find? k b.seen).getD 0 ≤ (Table.find? k d.floors).getD 0) ∧
  ∀ s, ∃ t, exec .ageInterval s = .next t ∧ t = { s with queues := t.queues, queue := t.queue } ∧ (s.now + 30000, Ev.ageInterval) ∈ t.queue ∧
    ∀ q b, Table.find? q s.queues = some b →
      let age := if b.ready ≠ [] ∧ b.bound = false ∧ b.age ≠ 0xFFFFFF then b.age.toNat + 1 else b.age.toNat
      (t.queueOf q).age.toNat = age ∧ (t.queueOf q).eprio.toNat = eprioOf b age ∧ (t.queueOf q).bound = false ∧ (t.queueOf q).ready = b.ready

/-! ### Time and upkeep -/

/-- R80, R93, R98, R99, R101, R227, R343: a tick raises TICK, expires granules over 60 ticks of age but while a bind zeroes, counts for each task on its
core, and makes due the watchdog, the sweeps, the expiry of lines, the spill of FIFO entries, the
halving and writing of heat counts and TELEM; and what each of these does but the watchdog. The model's readings: the array is written each 1,024 ticks, and
the halving is not gated by EN (log entry 67), the array is written only while EN is set (log entry 72), and TICK is the cycle count over 3,000 (log entry
5). -/
def Obligations.TimePasses : Prop :=
  (∀ s, ∃ t, exec .tick s = .next t ∧ t = { s with tick := s.tick + 1, fresh := s.fresh + 1, cores := t.cores, queue := t.queue } ∧
    (s.now + 3000, Ev.tick) ∈ t.queue ∧ (∀ e, e ∈ s.queue → e ∈ t.queue) ∧
    (∀ n c, Table.find? n s.cores = some c → let d := t.core n
      d = { c with slots := d.slots, banks := d.banks } ∧ d.banks = { c.banks with base := d.banks.base, gran := d.banks.gran } ∧
      (∀ g, d.banks.granAt g = if c.zeroAt ≤ s.now ∧ ((c.banks.granAt g).exp = true ∨ 60 < (s.tick + 1 - (c.banks.granAt g).stamp).toNat) then { c.banks.granAt g with exp := true }
        else c.banks.granAt g) ∧
      (∀ j, d.slot j = if c.on = some j then { c.slot j with wd := (c.slot j).wd + 1 } else c.slot j) ∧
      (∀ l ∈ c.lines, (l.dirty = true → 48 ≤ (s.tick + 1 - l.stamp).toNat → (s.now, Ev.cacheLineSweep n l.asid l.line) ∈ t.queue) ∧
        (l.dirty = false → 60 < (s.tick + 1 - l.stamp).toNat → (s.now, Ev.cacheLineExpire n l.asid l.line) ∈ t.queue)) ∧
      (∀ b ∈ c.banks.fifo, (∃ e ∈ b.2, 48 ≤ (s.tick + 1 - e.stamp).toNat) → (s.now, Ev.fifoEntrySpill n b.1) ∈ t.queue) ∧
      ∀ j, c.on = some j → (s.queueOf (c.slot j).queue.toNat).slice.toNat % 2 ^ 32 ≠ 0 →
        (s.queueOf (c.slot j).queue.toNat).slice.toNat % 2 ^ 32 ≤ (c.slot j).wd → (s.now, Ev.watchdogExpiry n j) ∈ t.queue) ∧
    (s.now / 3000 % 2 ^ (if 10 ≤ s.regs.heatctl.toNat % 32 ∧ s.regs.heatctl.toNat % 32 ≤ 20 then s.regs.heatctl.toNat % 32 else 20) = 0 →
      (s.now, Ev.heatHalve) ∈ t.queue) ∧
    (s.now / 3000 % 1024 = 0 → ∀ d, d < 4 → (s.now, Ev.heatArrayWrite d) ∈ t.queue) ∧
    (s.now / 3000 % 100 = 0 → ∃ w c, (s.now, Ev.telemUpdate w c) ∈ t.queue)) ∧
  (∀ n g s, ∃ t, exec (.granuleCheckerVisit n g) s = .next t ∧ t = { s with cores := t.cores } ∧ (∀ m, m ≠ n → t.core m = s.core m) ∧
    let b := (s.core n).banks
    let d := (t.core n).banks
    t.core n = { s.core n with banks := d } ∧ d = { b with gran := d.gran } ∧ (∀ h, h ≠ g → d.granAt h = b.granAt h) ∧
      let kept := 512 * g < b.slen ∨ b.role (g / 32) = 2 ∨ b.role (g / 32) = 3
      (¬ (kept ∧ (s.core n).zeroAt ≤ s.now) → d.granAt g = b.granAt g) ∧
      (kept → (s.core n).zeroAt ≤ s.now → d.granAt g = if (b.granAt g).exp ∨ 60 < (s.tick - (b.granAt g).stamp).toNat then { b.granAt g with exp := true } else b.granAt g)) ∧
  (∀ n asid line s l, (s.core n).lineAt asid line = some l → s.locs.ascending = true →
    (l.dirty = true → 48 ≤ (s.tick - l.stamp).toNat → ∃ t, exec (.cacheLineSweep n asid line) s = .next t ∧ CarriedHome s t (InLine asid line) ∧
      t = { s with mem := t.mem, locs := t.locs, cores := t.cores, heat := t.heat } ∧ (∀ m, m ≠ n → t.core m = s.core m) ∧
      t.core n = { s.core n with
        lines := (s.core n).lines.map fun x => if x.asid = asid ∧ x.line = line then { x with dirty := false } else x }) ∧
    (l.dirty = false ∨ (s.tick - l.stamp).toNat < 48 → exec (.cacheLineSweep n asid line) s = .next s) ∧
    (l.dirty = false → 60 < (s.tick - l.stamp).toNat → ∃ t, exec (.cacheLineExpire n asid line) s = .next t ∧ t = { s with cores := t.cores } ∧
      (∀ m, m ≠ n → t.core m = s.core m) ∧
      t.core n = { s.core n with lines := (s.core n).lines.filter fun x => !(x.asid == asid && x.line == line) }) ∧
    (l.dirty = true ∨ (s.tick - l.stamp).toNat ≤ 60 → exec (.cacheLineExpire n asid line) s = .next s)) ∧
  (∀ n bank j s, (s.core n).banks.role bank = 2 → bank ≤ 18 → (s.core n).on = some j →
    let c := s.core n
    let all := c.banks.fifoAt bank
    let old := (all.takeWhile fun e => decide (48 ≤ (s.tick - e.stamp).toNat)).length
    ∃ t k, exec (.fifoEntrySpill n bank) s = .next t ∧ t = { s with cores := t.cores } ∧ (∀ m, m ≠ n → t.core m = s.core m) ∧
      k = (if bank = 18 then min old (2048 - (c.slot j).msgs.length) else old) ∧ (t.core n).banks.fifoAt bank = all.drop k ∧
      (∀ b, b ≠ bank → (t.core n).banks.fifoAt b = c.banks.fifoAt b) ∧
      (bank = 18 → ((t.core n).slot j).msgs.Perm ((c.slot j).msgs ++ all.take k) ∧
        ((c.slot j).msgs.Pairwise (fun x y => x.n ≤ y.n) → ((t.core n).slot j).msgs.Pairwise fun x y => x.n ≤ y.n)) ∧
      (bank ≠ 18 → (Table.find? (17 - bank) ((t.core n).slot j).spilled).getD [] =
        (Table.find? (17 - bank) (c.slot j).spilled).getD [] ++ all.take k)) ∧
  (∀ w c s, ∃ t, exec (.telemUpdate w c) s = .next t ∧ t = { s with regs := { s.regs with telem := t.regs.telem } } ∧
    t.regs.telem.toNat = w.toNat + c.toNat * 2 ^ 16) ∧
  (∀ s, ∃ t, exec .heatHalve s = .next t ∧ t = { s with heat := t.heat } ∧
    ∀ i, Table.find? i t.heat = (Table.find? i s.heat).map fun e => (e.1 / 2, e.2 / 2)) ∧
  ∀ d s, (s.regs.heatctl.getLsbD 63 = false → exec (.heatArrayWrite d) s = .next s) ∧
    (s.regs.heatctl.getLsbD 63 = true → s.heat.ascending = true → (∀ e ∈ s.heat, e.1 < 75497472 ∧ e.2.1 < 2 ^ 16 ∧ e.2.2 < 2 ^ 16) →
      ∃ t, exec (.heatArrayWrite d) s = .next t ∧ t = { s with mem := t.mem } ∧
        (∀ i, i < 75497472 → homeDie (heatPage i) = d →
          let c := (Table.find? i s.heat).getD (0, 0)
          t.phys (s.regs.heatbase.toNat + 4 * i) 4 = c.1 * 2 ^ 16 + c.2) ∧
        ∀ a, (a < s.regs.heatbase.toNat ∨ 75497472 ≤ (a - s.regs.heatbase.toNat) / 4 ∨ homeDie (heatPage ((a - s.regs.heatbase.toNat) / 4)) ≠ d) →
          t.byte a = s.byte a)
/-- R180, R216, R219, R220, R251, R314: the curator's answer to a page fault writes the entry, and the context goes on at its word, its held vector
access or the held copy as if it met the entry now; a denial is cause 0x04 or 0x05. A page that becomes SHARED has SH set at its entry, its owner's
dirty bytes at home and no cached translation left. That the answer writes the entry also where no context waits is log entry 65. -/
def Obligations.PageFaults : Prop :=
  (∀ n k pte w0 w8 s, (∀ f ∈ s.flights, ¬ (f.core = n ∧ f.ctx = k)) → ∃ t, exec (.pageFaultAnswer (.ctx n k) pte w0 w8) s = .next t ∧
    PairWritten s t pte w0 w8 ∧ t = { s with mem := t.mem, cores := t.cores } ∧ (∀ m j, (m, j) ≠ (n, k) → t.ctx m j = s.ctx m j) ∧
    ((∃ a va w, (s.ctx n k).park = .pageFault a va w) → t.ctx n k = { s.ctx n k with park := .no, readyAt := max (s.ctx n k).readyAt s.now }) ∧
    ((∀ a va w, (s.ctx n k).park ≠ .pageFault a va w) → t.ctx n k = s.ctx n k)) ∧
  (∀ pte w0 w8 s f, s.flights = [f] → f.stuck = true → (∀ a va w, (s.ctx f.core f.ctx).park ≠ .pageFault a va w) → ∃ u : State, PairWritten s u pte w0 w8 ∧
      u.flights = [{ f with stuck := false }] ∧ (∀ n k, u.ctx n k = s.ctx n k) ∧ ∀ i,
        (∃ v ptr sc idx m, f.kind = .vload v ptr sc idx m ∧ i = .loadAnswered f.id) ∨
          (∃ x ptr sc idx m mode, f.kind = .vstore x ptr sc idx m mode ∧ i = .storePerformed f.id) →
        exec (.pageFaultAnswer (.ctx f.core f.ctx) pte w0 w8) s = exec i u) ∧
  (∀ pte w0 w8 s c, s.cmds.find? (fun d => d.id == c.id && d.core == c.core && d.phase == .held) = some c →
    (s.core c.core).on ≠ none → (s.core c.core).task.bind = c.bind → (s.core c.core).stopped = none → (s.ctx c.core c.ctx).fault = none →
    ∃ u, PairWritten s u pte w0 w8 ∧ u = { s with mem := u.mem } ∧
      (∀ b st x y off, EngineWords c.instr st .copy x y off → (u.bodyOf c).2 = .go b → ∃ t e, exec (.pageFaultAnswer (.cmd c.core c.id) pte w0 w8) s = .next t ∧
        t.cmds = b.s.cmds.map (fun d => if d.id = c.id then { d with phase := .running, writes := b.writes, fedBy := s.now + b.busy } else d) ∧
        (e = Ev.copyComplete c.core c.id ∨ e = .engineCommandComplete c.core c.id) ∧ (s.now + b.stop, e) ∈ t.queue) ∧
      (∀ va w, (u.bodyOf c).2 = .hold va w → ∃ t, exec (.pageFaultAnswer (.cmd c.core c.id) pte w0 w8) s = .next t ∧
        t = { u with cmds := t.cmds } ∧ ∃ d ∈ t.cmds, d.id = c.id ∧ d.phase = .held) ∧
      ∀ x, (u.bodyOf c).2 = .trap x → x.cause ≠ 0x0B → x.cause ≠ 0x0C → ∃ t, exec (.pageFaultAnswer (.cmd c.core c.id) pte w0 w8) s = .next t ∧
        (∀ d ∈ t.cmds, d.id ≠ c.id) ∧ (t.ctx c.core c.ctx).fault = some ((s.core c.core).impFault ⟨x.cause, x.faddr, c.word.setWidth 64, c.seq⟩)) ∧
  (∀ n k s, (∀ a va w, (s.ctx n k).park = .pageFault a va w → exec (.pageFaultDenial (.ctx n k)) s =
      .next (s.takeTrap n k ⟨if w then 0x05 else 0x04, va, 0⟩ (s.ctx n k).pc false false false)) ∧
    ((∀ a va w, (s.ctx n k).park ≠ .pageFault a va w) → (∀ f ∈ s.flights, f.core = n → f.ctx = k → f.stuck = false) →
      exec (.pageFaultDenial (.ctx n k)) s = .next s)) ∧
  (∀ s f va w, s.flights = [f] → f.stuck = true → (∀ a v x, (s.ctx f.core f.ctx).park ≠ .pageFault a v x) → (s.ctx f.core f.ctx).fault = none →
    (∃ v ptr sc idx m, f.kind = .vload v ptr sc idx m ∧ w = false ∧ s.lanesStop f.core .read (lanesOf ptr sc idx m) = some (.inr (va, w))) ∨
      (∃ x ptr sc idx m mode, f.kind = .vstore x ptr sc idx m mode ∧ w = true ∧ s.lanesStop f.core .write
        ((lanesOf ptr sc idx m).map fun l => if sc then l.forStore (vfmt ptr).1 else l) = some (.inr (va, w))) →
    ∃ t, exec (.pageFaultDenial (.ctx f.core f.ctx)) s = .next t ∧ t.flights = [] ∧ t.mem = s.mem ∧
      (t.ctx f.core f.ctx).fault = some ((s.core f.core).impFault ⟨if w then 0x05 else 0x04, va.setWidth 64, f.word.setWidth 64, f.seq⟩) ∧
      ∀ n j, (s.ctx n j).SameRegs (t.ctx n j)) ∧
  (∀ s c va w, s.cmds.find? (fun d => d.id == c.id && d.core == c.core && d.phase == .held) = some c → (s.bodyOf c).2 = .hold va w →
    (s.core c.core).on ≠ none → (s.core c.core).task.bind = c.bind → (s.core c.core).stopped = none → (s.ctx c.core c.ctx).fault = none →
    ∃ t, exec (.pageFaultDenial (.cmd c.core c.id)) s = .next t ∧ (∀ d ∈ t.cmds, d.id ≠ c.id) ∧ t.mem = s.mem ∧
      (t.ctx c.core c.ctx).fault = some ((s.core c.core).impFault ⟨if w then 0x05 else 0x04, va.setWidth 64, c.word.setWidth 64, c.seq⟩)) ∧
  ∀ asid va s, ((∀ e, s.walk asid va = some e → e.cls ≠ .normal ∨ e.uc = true ∨ isRemote (e.pa va) = true ∨ e.sh = true) →
      exec (.pageReclassify asid va) s = .next s) ∧
    ∀ e, s.walk asid va = some e → e.cls = .normal → e.uc = false → isRemote (e.pa va) = false → e.sh = false → s.locs.ascending = true →
      NoneCachedAt s e.at' 16 → ∃ t, exec (.pageReclassify asid va) s = .next t ∧
        t = { s with mem := t.mem, locs := t.locs, tlb := t.tlb, cores := t.cores, heat := t.heat } ∧
        CarriedHome s t (InPage asid va (szBits e.sz)) ∧ t.phys64 (e.at' + 8) = e.w8 ||| 0x0020000000000000 ∧ t.cached asid va = none ∧
        (∀ x ∈ t.tlb, x ∈ s.tlb) ∧ (∀ n k, t.ctx n k = s.ctx n k) ∧ ∀ n, (t.core n).banks = (s.core n).banks ∧
          ∀ l ∈ (t.core n).lines, l ∈ (s.core n).lines ∧
            (e.owner < 2047 → ¬ (l.asid = asid ∧ l.line / 2 ^ (9 + szBits e.sz) = va.toNat / 2 ^ (16 + szBits e.sz)))
/-- R17, R215: a write of GO starts an invalidation of the page or the identifier, unless one is under way or the identifier is not the function's;
when it completes, the dirty bytes of the page are at home, no cache and no slice holds anything of it, the decrements that its translation waits on
are performed, and GO reads 0. That there is one register pair, whose writes are ignored while GO reads 1, is log entry 38. -/
def Obligations.Invalidations : Prop :=
  (∀ i all func s, i = .xlatInvalidatePage func ∧ all = false ∨ i = .xlatInvalidateAll func ∧ all = true →
    (s.regs.xreg.getLsbD 63 = true ∨ NotItsRange s func → exec i s = .next s) ∧
    (s.regs.xreg.getLsbD 63 = false → ¬ NotItsRange s func → ∃ t, exec i s = .next t ∧
      t = { s with regs := { s.regs with xreg := t.regs.xreg }, queue := t.queue } ∧
      t.regs.xreg = (s.regs.xreg &&& 0x1FFF) ||| (if all then 0xC000000000000000 else 0x8000000000000000) ∧
      (s.now + s.lat.xlat, Ev.xlatInvalidateComplete) ∈ t.queue)) ∧
  (∀ s, s.regs.xreg.getLsbD 63 = false → exec .xlatInvalidateComplete s = .next s) ∧
  ∀ s z, s.regs.xreg.getLsbD 63 = true → let asid : Asid := s.regs.xreg.setWidth 13
    let va : VA := s.regs.xva.setWidth 56
    let all := s.regs.xreg.getLsbD 62
    (all = false → SizeAt s asid va z) → (∀ f ∈ s.flights, f.asid ≠ asid) →
      (∀ c ∈ s.cmds, c.asid = asid → c.phase = .running → ∀ w ∈ c.writes, w.toMem = false) → s.locs.ascending = true →
      let inPage := fun (a : Nat) => all = true ∨ a / 2 ^ (16 + szBits z) = va.toNat / 2 ^ (16 + szBits z)
      let gone := fun (t : State) => t.regs = { s.regs with xreg := s.regs.xreg &&& 0x7FFFFFFFFFFFFFFF } ∧ (∀ n k, (s.ctx n k).SameRegs (t.ctx n k)) ∧
        (∀ x ∈ t.tlb, x ∈ s.tlb ∧ ¬ (x.asid = asid ∧ (all = true ∨ (Pte.mk x.pte x.w0 x.w8).covers va = true))) ∧
        ∀ n, ∀ l ∈ (t.core n).lines, l ∈ (s.core n).lines ∧ ¬ (l.asid = asid ∧ inPage (128 * l.line))
      ((∀ d ∈ s.decs, ¬ (d.1 = asid ∧ inPage d.2.1)) → ∃ t, exec .xlatInvalidateComplete s = .next t ∧ gone t ∧
        CarriedHome s t (fun key => key / 2 ^ 53 = asid.toNat ∧ inPage (key % 2 ^ 53 * 8)) ∧ t.decs = s.decs ∧
        ∀ e ∈ t.locs, ¬ (e.1 / 2 ^ 53 = asid.toNat ∧ inPage (e.1 % 2 ^ 53 * 8))) ∧
      ∀ tcb pa, s.decs = [(asid, tcb.toNat, pa)] → inPage tcb.toNat → s.locs = [] → s.poisoned pa = false →
        let e := s.pteAt asid (tcb + 8) (pa + 8)
        s.pteAt asid (tcb + 16) (pa + 16) = e → TcbAt s asid tcb e → ∃ t, exec .xlatInvalidateComplete s = .next t ∧ gone t ∧ Decremented s t asid tcb e ∧ t.decs = []
/-- R228, R229, R17, R41, R203, R263: the migration engine takes the next request of its ring: one that fails is answered with its MSTAT and moves
nothing; otherwise the page's bytes, copied or decoded and encoded again, stand at NEWPA, the entry names it with MIG 0, no translation or cached line of
the page is left, each word keeps its home order, a decrement on its way goes to the new page, and poison moves with a copy (log entry 87). That the
steps of R229 are one moment is log entry 31. -/
def Obligations.Migration : Prop :=
  (∀ s, s.regs.migctl.getLsbD 63 = false ∨ s.regs.mighead = s.regs.migtail → exec .migrationRequest s = .next s) ∧
  ∀ s pa va w new, NextRequest s pa va w new → (∀ e ∈ s.locs, e.2.dirty = 0) → let asid : Asid := BitVec.ofNat 13 (w.toNat / 2 ^ 16)
    let mode := w.toNat / 2 ^ 62
    let fails := fun stat => ∃ t, exec .migrationRequest s = .next t ∧ Answered s t pa stat ∧ t.tlb = s.tlb ∧ t.cores = s.cores ∧
      ∀ a, a < pa + 24 ∨ pa + 32 ≤ a → t.byte a = s.byte a
    let moves := fun (e : Pte) (bs : List Byte) => Apart pa 32 new 65536 → Apart new 65536 e.at' 16 → Apart pa 32 e.at' 16 →
      ∃ t, exec .migrationRequest s = .next t ∧ Answered s t pa 1 ∧ (∀ i, i < 65536 → t.byte (new + i) = bs.getD i 0) ∧
        t.phys64 (e.at' + 8) = (e.w8 &&& 0xFF3FFFF000000000) ||| w64 (new / 2 ^ 16 % 2 ^ 36 : Nat) ∧
        (∀ a, a < pa + 24 ∨ pa + 32 ≤ a → a < new ∨ new + 65536 ≤ a → a < e.at' + 8 ∨ e.at' + 16 ≤ a → t.byte a = s.byte a) ∧
        t.cached asid va = none ∧
        (∀ key l, Table.find? key s.locs = some l → InPage asid va 0 key → ∃ m, Table.find? key t.locs = some m ∧ l.vers <:+ m.vers ∧
          (l.pa / 65536 = e.pa va / 65536 → m.pa = new / 65536 * 65536 + l.pa % 65536)) ∧
        (∀ d ∈ s.decs, d.1 = asid → d.2.1 / 65536 = va.toNat / 65536 → d.2.2 / 65536 = e.pa va / 65536 →
          (d.1, d.2.1, new / 65536 * 65536 + d.2.2 % 65536) ∈ t.decs) ∧
        (mode = 1 → ∀ i, i < 512 → e.pa va / 65536 * 512 + i ∈ s.poison → new / 128 + i ∈ t.poison) ∧ (∀ n k, (s.ctx n k).SameRegs (t.ctx n k)) ∧
        ∀ n, ∀ l ∈ (t.core n).lines, ¬ (l.asid = asid ∧ l.line / 512 = va.toNat / 65536)
    (mode % 3 = 0 → ∃ stat, fails stat) ∧
    (mode % 3 ≠ 0 → ∀ stat, MigFails w (s.walk asid va) stat → fails stat) ∧
    ∀ e, s.walk asid va = some e → Moves e → e.mig = 0 →
      let old := s.physBytes (e.pa va / 65536 * 65536) 65536
      (mode = 1 → moves e old) ∧
      (mode = 2 → e.wr = false → ∀ f g, tagged (w64 (w.toNat / 2 ^ 8 % 256 * 2 ^ 56 : Nat)) = some f → tagged (w64 (w.toNat % 256 * 2 ^ 56 : Nat)) = some g →
        let n := if f.blog = 0 then 65536 * 8 / f.fmt.bits else 65536 / blockBytes f.fmt f.blog * 2 ^ f.blog
        let out := encodeRow g.fmt g.blog (decodeRow f.fmt f.blog n old)
        (65536 < out.length → fails 6) ∧ (out.length ≤ 65536 → moves e out))
/-- R115, R230–R232, R326: the handover of the retirement list, its loading, rows that are retired at run time, and errors that cannot be corrected,
each at its site. The model's readings: the window of corrected errors is at most 1,000 ticks (log entry 61), a FIFO granule is 64 entries by their place
(log entry 62), the index of a CXL page counts within its port (log entry 73), and the rows and page entries of HBM are free (log entry 29). -/
def Obligations.Retirement : Prop :=
  (∀ s, (s.regs.fwstat ≠ 2 ∨ s.regs.rlctl.getLsbD 63 = true → exec .rlctlGo s = .next s) ∧
    (s.regs.fwstat = 2 → s.regs.rlctl.getLsbD 63 = false → ∃ t, exec .rlctlGo s = .next t ∧
      t = { s with regs := { s.regs with rlctl := 0x8000000000000000 }, queue := t.queue } ∧ (s.now + s.lat.xlat, Ev.retirementListLoad) ∈ t.queue)) ∧
  (∀ s, (s.regs.rlctl.getLsbD 63 = false → exec .retirementListLoad s = .next s) ∧
    (s.regs.rlctl.getLsbD 63 = true → let with' := fun (c : W64) => { s.regs with rlctl := c }
      (BaseBad s.regs.rlbase ∨ BaseBad s.regs.plbase → exec .retirementListLoad s = .next { s with regs := with' 0x4000000000000001 }) ∧
      (¬ BaseBad s.regs.rlbase → ¬ BaseBad s.regs.plbase → ∃ pages : List Nat, pages.Nodup ∧
        (∀ p, p ∈ pages ↔ ∃ i, i < s.regs.rlcount.toNat ∧ EntryPage (s.phys64 (s.regs.rlbase.toNat + 8 * i)) p) ∧
        (s.regs.plcap.toNat % 2 ^ 32 < pages.length → exec .retirementListLoad s = .next { s with regs := with' 0x4000000000000002 }) ∧
        (pages.length ≤ s.regs.plcap.toNat % 2 ^ 32 → ∃ t, exec .retirementListLoad s = .next t ∧
          t.regs = { s.regs with rlctl := 0x4000000000000000, plcount := w64 pages.length, rlist := t.regs.rlist } ∧ t.cores = s.cores ∧
          t.regs.rlist.length = s.regs.rlcount.toNat ∧
          (∀ i, i < s.regs.rlcount.toNat → t.regs.rlist[i]? = some (s.phys64 (s.regs.rlbase.toNat + 8 * i))) ∧
          (∀ i, (h : i < pages.length) → t.phys64 (s.regs.plbase.toNat + 8 * i) = Config.pageEntry pages[i]) ∧
          (∀ p, p ∈ t.retired ↔ p ∈ pages ∨ p ∈ s.retired) ∧
          ∀ a, a < s.regs.plbase.toNat ∨ s.regs.plbase.toNat + 8 * pages.length ≤ a → t.byte a = s.byte a)))) ∧
  (∀ pa un s, (∀ e ls, ¬ RowAt pa e ls) → exec (.memoryEccError pa un) s = .next s) ∧
  (∀ pa un s e ls, RowAt pa e ls →
    let times := ((Table.find? e.toNat s.ecc).getD []).filter fun u => s.now / 3000 ≤ u + 1000
    (un = true ∨ 15 ≤ times.length → ∃ u t, exec (.memoryEccError pa un) s = .next t ∧ RowRetired s u e ls ∧
      Reported u t 4 0 0 0 (w64 (pa / 65536 * 65536 : Nat)) 0 ∧ t.poison = u.poison ∧ t.cores = s.cores ∧ t.regs.plcount = u.regs.plcount) ∧
    (un = false → times.length < 15 → ∃ t, exec (.memoryEccError pa un) s = .next t ∧ t = { s with ecc := t.ecc } ∧
      Table.find? e.toNat t.ecc = some (s.now / 3000 :: times) ∧ ∀ k, k ≠ e.toNat → Table.find? k t.ecc = Table.find? k s.ecc)) ∧
  (∀ n asid line s, ((∀ l, (s.core n).lineAt asid line = some l → l.dirty = false) → exec (.uncorrectableError (.dirtyLine n asid line)) s = .next s) ∧
    ∀ l, (s.core n).lineAt asid line = some l → l.dirty = true → ∃ t, exec (.uncorrectableError (.dirtyLine n asid line)) s = .next t ∧
      t = { s with cores := t.cores, poison := t.poison } ∧ (t.core n).lineAt asid line = none ∧ (∀ m, m ≠ n → t.core m = s.core m) ∧
      ∀ e, s.walk asid (BitVec.ofNat 56 (128 * line)) = some e → ∀ p, p ∈ t.poison ↔ p = e.pa (BitVec.ofNat 56 (128 * line)) / 128 ∨ p ∈ s.poison) ∧
  (∀ n g s, ∃ t, exec (.uncorrectableError (.granule n g)) s = .next t ∧ t = { s with cores := t.cores } ∧
    t.core n = { s.core n with banks := (t.core n).banks, save := (t.core n).save } ∧ GranuleBad (s.core n).banks (t.core n).banks g ∧
    Spoilt (s.core n).save (t.core n).save (GranuleWord g) ∧ ∀ m, m ≠ n → t.core m = s.core m) ∧
  (∀ n g s, ∃ t, exec (.uncorrectableError (.bivouacGranule n g)) s = .next t ∧ t = { s with cores := t.cores } ∧
    t.core n = { s.core n with biv := (t.core n).biv } ∧ (∀ m, m ≠ n → t.core m = s.core m) ∧ ((s.core n).biv = none → (t.core n).biv = none) ∧
    ∀ i, (s.core n).biv = some i → ∃ j, (t.core n).biv = some j ∧ j = { i with banks := j.banks, bad := j.bad } ∧ GranuleBad i.banks j.banks g ∧
      ∀ w, w ∈ j.bad ↔ w ∈ i.bad ∨ GranuleWord g w) ∧
  (∀ n k s, ((s.ctx n k).live = true → (s.core n).on ≠ none → ∃ t, exec (.uncorrectableError (.register n k)) s = .next t ∧ FailsTask s t n 0x13 ∧
      ∀ m j, (s.ctx m j).SameRegs (t.ctx m j)) ∧
    ((s.ctx n k).live = false ∨ (s.core n).on = none → exec (.uncorrectableError (.register n k)) s = .next s)) ∧
  (∀ n w s, ∃ t, exec (.uncorrectableError (.handlerWord n w)) s = .next t ∧ t = { s with cores := t.cores } ∧ (∀ m, m ≠ n → t.core m = s.core m) ∧
    t.core n = { s.core n with badWords := w :: (s.core n).badWords }) ∧
  (∀ n w s, ∃ t, exec (.uncorrectableError (.saveBank n w)) s = .next t ∧ t = { s with cores := t.cores } ∧ (∀ m, m ≠ n → t.core m = s.core m) ∧
    t.core n = { s.core n with save := (t.core n).save } ∧ Spoilt (s.core n).save (t.core n).save (· = w)) ∧
  ∀ n asid line s, ∃ t, exec (.uncorrectableError (.icacheLine n asid line)) s = .next t ∧ t = { s with cores := t.cores } ∧ (∀ m, m ≠ n → t.core m = s.core m) ∧
    t.core n = { s.core n with icache := (t.core n).icache } ∧
    ∀ w, w ∈ (t.core n).icache ↔ w ∈ (s.core n).icache ∧ w.1 / 128 ≠ asid.toNat * 2 ^ 49 + line

/-! ### Firmware, temperature, resets and the host -/

/-- R338–R340, R337, R117: firmware is verified once at a time and, where the header and both signatures hold, runs, its handler image standing in the
handler region; a GO after a failure returns FWSTAT to 0x00; a report of attestation stands after its nonce, with digests of the image and of the loaded
list (SHA3-384 as FIPS 202 has it, the signatures free: log entry 17); the link trains once. A misaligned FWBASE counts as a malformed header by log entry
64, and 0x81 stands where both signatures fail by log entry 105. -/
def Obligations.FirmwareAndAttestation : Prop :=
  (∀ s, (s.regs.fwstat = 1 ∨ s.regs.fwstat = 2 → exec .fwGo s = .next s) ∧
    (s.regs.fwstat ≠ 0 → s.regs.fwstat ≠ 1 → s.regs.fwstat ≠ 2 → exec .fwGo s = .next { s with regs := { s.regs with fwstat := 0 } }) ∧
    (s.regs.fwstat = 0 → ∃ t ed ml, exec .fwGo s = .next t ∧
      t = { s with regs := { s.regs with fwstat := 1 }, fresh := t.fresh, queue := t.queue } ∧ (s.now + s.lat.xlat, Ev.fwVerifyComplete ed ml) ∈ t.queue)) ∧
  (∀ ed ml s, (s.regs.fwstat ≠ 1 → exec (.fwVerifyComplete ed ml) s = .next s) ∧
    (s.regs.fwstat = 1 → let is := fun (x : BitVec 8) => exec (.fwVerifyComplete ed ml) s = .next { s with regs := { s.regs with fwstat := x } }
      (HeaderBad s → is 0x80) ∧ (¬ HeaderBad s → ed = false → is 0x81) ∧ (¬ HeaderBad s → ed = true → ml = false → is 0x82) ∧
      (¬ HeaderBad s → ed = true → ml = true → ∃ t, exec (.fwVerifyComplete ed ml) s = .next t ∧
        t = { s with cores := t.cores, regs := { s.regs with
          fwstat := 2, version := BitVec.ofNat 32 (s.phys (s.regs.fwbase.toNat + 4) 4), himage := t.regs.himage, fwImage := t.regs.fwImage,
          fwLen := 64 + s.phys (s.regs.fwbase.toNat + 8) 4 } } ∧
        (∀ n c, Table.find? n s.cores = some c → t.core n = { c with badWords := [] }) ∧
        (∀ i, i < t.regs.fwLen → cellGet t.regs.fwImage i = s.byte (s.regs.fwbase.toNat + i)) ∧
        ∀ i, i < 8192 → cellGet t.regs.himage i = s.byte (s.regs.fwbase.toNat + 64 + s.phys (s.regs.fwbase.toNat + 16) 4 + i)))) ∧
  (∀ s, (s.regs.attctl.getLsbD 63 = true → exec .attestGo s = .next s) ∧
    (s.regs.attctl.getLsbD 63 = false → ∃ t, exec .attestGo s = .next t ∧
      t = { s with regs := { s.regs with attctl := 0x8000000000000000 }, queue := t.queue } ∧ (s.now + s.lat.xlat, Ev.attestReportComplete) ∈ t.queue)) ∧
  (∀ s, (s.regs.attctl.getLsbD 63 = false → exec .attestReportComplete s = .next s) ∧
    (s.regs.attctl.getLsbD 63 = true → let r := s.regs.attbuf.toNat + 64
      ∃ t, exec .attestReportComplete s = .next t ∧ t = { s with mem := t.mem, fresh := t.fresh, regs := { s.regs with attctl := 0 } } ∧
        (∀ i, i < 32 → t.byte (r + i) = s.byte (s.regs.attbuf.toNat + i)) ∧ t.phys (r + 32) 4 = s.regs.version.toNat ∧
        (∀ i, i < 48 → t.byte (r + 36 + i) = (sha3 ((List.range s.regs.fwLen).map (cellGet s.regs.fwImage))).getD i 0 ∧
          t.byte (r + 84 + i) = (sha3 (s.regs.rlist.flatMap fun x => (List.range 8).map fun b => x.extractLsb' (8 * b) 8)).getD i 0) ∧
        t.phys (r + 132) 4 = s.regs.resets % 2 ^ 32 ∧ t.phys (r + 136) 4 = s.regs.flrs % 2 ^ 32 ∧
        ∀ a, a < r ∨ r + 3513 ≤ a → t.byte a = s.byte a)) ∧
  ∀ x s, exec (.hostLinkTraining x) s = .next { s with linkCxl := some (s.linkCxl.getD x) }
/-- R80, R81, R343, R290: a watchdog that expires, and a core at 110 °C, halt cores: the task is FAILED with REASON 0x1B, its queue takes ERR 0x04,
and the core is empty and free (for the temperature log entry 66); for the watchdog every core of the queue's ropes, and their belay counters, and
the expired task is FAILED, here where the partition has no other. R343, R316, R336: a thermal step is taken
at 100, 104 and 95 °C and reported; at 104 every core with a task is asked to save it, at 95 dispatch goes on. -/
def Obligations.HaltsAndThermalLevels : Prop :=
  ((∀ n j s, (s.core n).on = some j → ((s.core n).slot j).v = true → ((s.core n).slot j).bound = true → ((s.core n).slot j).ctxloc = 0 →
    (∀ e ∈ (s.core n).slots, e.1 ≠ j → e.2.ctxloc = 2 ∨ e.2.ctxloc = 3) → Table.ascending (s.core n).slots = true →
    let u := (s.core n).slot j
    let tcb : VA := u.tcb.setWidth 56
    Uncounted s u.asid tcb → ∀ e, s.walk u.asid tcb = some e → InPlace s u.asid (tcb + 8) e →
      ∃ t, exec (.coreOvertempHalt n) s = .next t ∧ Wiped t n ∧ (∀ d ∈ t.cmds, d.core = n → d.bind ≠ u.bind) ∧ (t.core n).biv = none ∧
        ((t.core n).slot j).v = false ∧
        stateAt t u.asid tcb e = failedWord (stateAt s u.asid tcb e) 0x1B ∧ (t.queueOf u.queue.toNat).err = 4 ∧
        (s.now + 1, Ev.dispatchSelect n) ∈ t.queue ∧ (∀ i, i ≠ j → (t.core n).slot i = (s.core n).slot i) ∧ ∀ m, m ≠ n → t.core m = s.core m) ∧
  (∀ n s, (s.core n).on = none → (∀ e ∈ (s.core n).slots, e.2.v = false) → ∃ t, exec (.coreOvertempHalt n) s = .next t ∧ Wiped t n ∧ t.mem = s.mem) ∧
  ∀ n j s, let b := s.queueOf ((s.core n).slot j).queue.toNat
    let sl := b.slice.toNat % 2 ^ 32
    ((s.core n).on ≠ some j ∨ sl = 0 ∨ ((s.core n).slot j).wd ≤ sl → exec (.watchdogExpiry n j) s = .next s) ∧
    ((s.core n).on = some j → sl ≠ 0 → sl < ((s.core n).slot j).wd → ∃ t, exec (.watchdogExpiry n j) s = .next t ∧
      (∀ m c, Table.find? m s.cores = some c → b.qmask.getLsbD (m / 8) = true → Wiped t m ∧ (t.core m).biv = none ∧
        ∀ i, (c.slot i).v = true → (c.slot i).bound = true → (c.slot i).ctxloc.toNat < 2 →
          ((t.core m).slot i).v = false ∧ (t.queueOf (c.slot i).queue.toNat).err = 4 ∧ ∀ d ∈ t.cmds, d.core = m → d.bind ≠ (c.slot i).bind) ∧
      (let u := (s.core n).slot j
        let tcb : VA := u.tcb.setWidth 56
        u.v = true → u.bound = true → u.ctxloc.toNat < 2 → b.qmask.getLsbD (n / 8) = true → s.recs = [] →
        (∀ m c, (m, c) ∈ s.cores → b.qmask.getLsbD (m / 8) = true → ∀ x ∈ c.slots, x.2.v = true → x.2.bound = true → x.2.ctxloc.toNat < 2 → (m, x.1) = (n, j)) →
        ∀ e, s.walk u.asid tcb = some e → InPlace s u.asid (tcb + 8) e → stateAt t u.asid tcb e = failedWord (stateAt s u.asid tcb e) 0x1B) ∧
      (∀ m, b.qmask.getLsbD (m / 8) = false → t.core m = s.core m) ∧
      ∀ e ∈ t.belays, e.1.level = 0 → e.1.node < 192 → b.qmask.getLsbD e.1.node = true → e.2.count = 0)) ∧
  (∀ temp s, let l := if 104 ≤ temp then 2 else if 100 ≤ temp then max s.thermal 1 else if temp ≤ 95 then 0 else s.thermal
    (l = s.thermal → exec (.thermalLevelStep temp) s = .next s) ∧
    (l ≠ s.thermal → ∃ t code, exec (.thermalLevelStep temp) s = .next t ∧ t.thermal = l ∧ Reported s t 3 code 0 0 0 0 ∧
      (∀ n k, t.ctx n k = s.ctx n k) ∧ (∀ e, e ∈ s.queue → e ∈ t.queue) ∧
      (l = 2 → ∀ n c, Table.find? n s.cores = some c → c.on ≠ none → c.failing = none → c.halted = none → c.restored = none → c.preempt = false →
        (t.core n).preempt = true ∧ (s.now, Ev.preemptTake n) ∈ t.queue) ∧
      (l = 0 → ∀ n c, Table.find? n s.cores = some c → (s.now + 1, Ev.dispatchSelect n) ∈ t.queue)))
/-- R82–R84, R98, R136: a package reset leaves memory and starts the rest again; a function-level reset stops the function's queues with ERR 0x05,
cancels or fails its tasks (here one that a record waits for, or one that is bound), clears their slots, empties the cores they ran on and stops what was
to bring one in, and masks its vectors until its driver unmasks them (log entry 58); what a package reset keeps is log entry 56; until it completes, writes of the physical function to its blocks and entries are held, and then they take effect (the
function's own are not: log entry 97). -/
def Obligations.Resets : Prop :=
  (∀ s, ∃ t, exec .packageReset s = .next t ∧ t.mem = s.mem ∧ t.regs = { HostRegs.init with resets := s.regs.resets + 1, flrs := s.regs.flrs } ∧
    t.now = 0 ∧ t.tick = 0 ∧ t.cores = [] ∧ t.ropes = [] ∧ t.queues = [] ∧ t.funcs = [] ∧ t.flights = [] ∧ t.cmds = [] ∧ t.locs = [] ∧ t.vit = [] ∧
    t.queue = State.reset.queue) ∧
  (∀ f s, f.toNat ∈ s.flr → exec (.functionLevelReset f) s = .next s) ∧
  (∀ f s, f.toNat ∉ s.flr → let mine := fun (a : Asid) => (s.func f.toNat).w18.toNat / 2 ^ 38 % 2 ^ 13 ≤ a.toNat ∧ a.toNat ≤ (s.func f.toNat).w18.toNat / 2 ^ 51
    ∃ t, exec (.functionLevelReset f) s = .next t ∧ f.toNat ∈ t.flr ∧ (t.func f.toNat).masked = true ∧ t.regs.flrs = s.regs.flrs + 1 ∧
      (s.now + s.lat.xlat, Ev.flrComplete f) ∈ t.queue ∧
      (∀ q, q < 64 → cfgField (s.queueOf q) 32 6 = f.toNat → (t.queueOf q).en = false ∧ (t.queueOf q).err = 5) ∧
      (∀ q, q < 64 → cfgField (s.queueOf q) 32 6 ≠ f.toNat → (t.queueOf q).en = (s.queueOf q).en ∧ (t.queueOf q).err = (s.queueOf q).err) ∧
      (∀ n c, Table.find? n s.cores = some c → (∀ j, (c.slot j).v = true → mine (c.slot j).asid → ((t.core n).slot j).v = false) ∧
        (∀ j, ¬ mine (c.slot j).asid → (t.core n).slot j = c.slot j) ∧
        (∀ j, c.on = some j → (c.slot j).v = true → mine (c.slot j).asid → Wiped t n) ∧
        (∀ j, c.incoming = some j → (c.slot j).v = true → mine (c.slot j).asid → (t.core n).incoming = none) ∧
        (∀ i, c.biv = some i → ((c.slot i.slot).v = true → mine (c.slot i.slot).asid → (c.slot i.slot).bound = true → (t.core n).biv = none) ∧
          (¬ mine (c.slot i.slot).asid → (t.core n).biv = some i)) ∧
        (∀ j, (c.slot j).v = true → mine (c.slot j).asid → (c.slot j).bound = true → ∀ d ∈ t.cmds, d.core = n → d.bind ≠ (c.slot j).bind) ∧
        ((∀ j, c.on = some j → ¬ mine (c.slot j).asid) → (t.core n).on = c.on ∧ (t.core n).ctxs = c.ctxs ∧ (t.core n).banks = c.banks)) ∧
      (∀ n j, let u := (s.core n).slot j
        let tcb : VA := u.tcb.setWidth 56
        u.v = true → mine u.asid → u.bound = true → s.recs = [] →
        (∀ m c, (m, c) ∈ s.cores → ∀ x ∈ c.slots, x.2.v = true → mine x.2.asid → (m, x.1) = (n, j)) →
        ∀ e, s.walk u.asid tcb = some e → InPlace s u.asid (tcb + 8) e → stateAt t u.asid tcb e = failedWord (stateAt s u.asid tcb e) 0x1B) ∧
      ∀ r tcb e, s.recs = [r] → mine r.asid → r.waiting = [tcb.toNat] → r.rcomp = 0 → s.walk r.asid tcb = some e → InPlace s r.asid (tcb + 8) e →
        ((stateAt s r.asid tcb e).toNat % 256 = 1 ∨ (stateAt s r.asid tcb e).toNat % 256 = 2) →
        (∀ n c, Table.find? n s.cores = some c → ∀ x ∈ c.slots, x.2.v = true → ¬ mine x.2.asid) →
          stateAt t r.asid tcb e = stateWord (stateAt s r.asid tcb e) 5 ∧ ∃ x ∈ t.recs, x.id = r.id ∧ x.cancelled = r.cancelled + 1 ∧ x.waiting = []) ∧
  (∀ f s, f.toNat ∉ s.flr → exec (.flrComplete f) s = .next s) ∧
  (∀ f s, f.toNat ∈ s.flr → (∀ w ∈ s.flrWrites, w.1 ≠ f.toNat) → ∃ t, exec (.flrComplete f) s = .next t ∧ t = { s with flr := t.flr, queues := t.queues, flrWrites := t.flrWrites } ∧
    (∀ g, g ∈ t.flr ↔ g ∈ s.flr ∧ g ≠ f.toNat) ∧ t.flrWrites = s.flrWrites ∧
    ∀ q b, Table.find? q s.queues = some b → t.queueOf q = if cfgField b 32 6 = f.toNat ∧ b.err = 5 then { b with err := 0 } else b) ∧
  ∀ f s off size val, s.flr = [f.toNat] → s.flrWrites = [(f.toNat, .bar none off, size, val)] → s.queues = [] →
    exec (.flrComplete f) s = exec (.hostRegisterWrite (.bar none off) size val) { s with flr := [], flrWrites := [] }
/-- R67, R69–R72, R84, R215, R228, R230, R231, R336, R339–R343: what the host writes: the plain registers of the physical function, tables and queue
blocks, registers whose write starts something, a function's vectors unmasked (log entry 58), and memory; and what it reads of a queue's block, zero in a
block that is not its own (R70). The pair of R215 ignores a write while GO reads 1 (log entry 38). A write that a reset holds back waits; a write of CODE of a task that is WAITING, READY or
BOUND has no meaning (R12). -/
def Obligations.HostWrites : Prop :=
  (∀ r get mask off size val s, HostReg r get mask → off / 8 * 8 = r → off % 8 + size ≤ 8 → ∃ t, exec (.hostRegisterWrite (.bar none off) size val) s = .next t ∧
    get t.regs = mixed (get s.regs) (val <<< (8 * (off % 8))) (spanBits (off % 8) size) &&& mask ∧ t.mem = s.mem ∧ t.cores = s.cores ∧
    (∀ e, e ∈ s.queue → e ∈ t.queue) ∧ ∀ q g m, HostReg q g m → q ≠ r → g t.regs = g s.regs) ∧
  (∀ f off size val s, off < 0x8000 → off / 8 ≠ 0x40 → off / 8 ≠ 0x41 → exec (.hostRegisterWrite (.bar (some f) off) size val) s = .next s) ∧
  (∀ func val s, (s.regs.xreg.getLsbD 63 = true → exec (.hostRegisterWrite (.bar func 0x200) 8 val) s = .next s ∧
      exec (.hostRegisterWrite (.bar func 0x208) 8 val) s = .next s) ∧
    (s.regs.xreg.getLsbD 63 = false → exec (.hostRegisterWrite (.bar func 0x200) 8 val) s = .next { s with regs := { s.regs with xva := val } }) ∧
    (s.regs.xreg.getLsbD 63 = false → val.getLsbD 63 = true → let u : State := { s with regs := { s.regs with xreg := val &&& 0x1FFF } }
      ¬ NotItsRange u func → exec (.hostRegisterWrite (.bar func 0x208) 8 val) s =
        exec (if val.getLsbD 62 then .xlatInvalidateAll func else .xlatInvalidatePage func) u)) ∧
  (∀ val s, let on := val.getLsbD 63
    (on = true → exec (.hostRegisterWrite (.bar none 0x420) 8 val) s = exec .rlctlGo s ∧ exec (.hostRegisterWrite (.bar none 0x508) 8 val) s = exec .fwGo s ∧
      exec (.hostRegisterWrite (.bar none 0x588) 8 val) s = exec .attestGo s) ∧
    (on = false → ∀ off, off = 0x420 ∨ off = 0x508 ∨ off = 0x588 → exec (.hostRegisterWrite (.bar none off) 8 val) s = .next s) ∧
    exec (.hostRegisterWrite (.bar none 0x810) 4 val) s = exec (.crtailWrite (val.setWidth 32)) s ∧
    ∃ t, exec (.hostRegisterWrite (.bar none 0x308) 4 val) s = .next t ∧ t = { s with regs := { s.regs with migtail := val.setWidth 32 }, queue := t.queue } ∧
      (s.regs.migctl.getLsbD 63 = true → s.regs.mighead ≠ val.setWidth 32 → (s.now + s.lat.copy, Ev.migrationRequest) ∈ t.queue)) ∧
  (∀ f w val s, f < 64 → w < 4 → f ∉ s.flr → ∃ t, exec (.hostRegisterWrite (.bar none (0x8000 + 64 * f + 8 * w)) 8 val) s = .next t ∧ t = { s with funcs := t.funcs } ∧
    (∀ g, g ≠ f → t.func g = s.func g) ∧ (t.func f).masked = (s.func f).masked ∧
    (w = 3 → (t.func f).w18 = val &&& 0xFFFFFFC000FFFFFF ∧ (t.func f).fropes = (s.func f).fropes) ∧
    (w < 3 → (t.func f).w18 = (s.func f).w18 ∧ ∀ i, i < 192 → (t.func f).fropes.getLsbD i = if i / 64 = w then val.getLsbD (i % 64) else (s.func f).fropes.getLsbD i)) ∧
  (∀ q w val s func, q < 64 → (s.queueOf q).func ∉ s.flr → (∀ f, func = some f → f.toNat = cfgField (s.queueOf q) 32 6) →
    let at' := fun (o : Nat) (n : Nat) => exec (.hostRegisterWrite (.bar func (0x10000 + 64 * q + o)) n val) s
    let b := s.queueOf q
    at' 8 4 = exec (.qtailWrite q (val.setWidth 32)) s ∧
    (b.en = true → at' 0 8 = .next s) ∧
    (b.en = false → ∃ t, at' 0 8 = .next t ∧ t = { s with queues := t.queues } ∧ t.queueOf q = { b with qbase := val } ∧ ∀ p, p ≠ q → t.queueOf p = s.queueOf p) ∧
    (func ≠ none → 0x10 ≤ w → w < 0x38 → at' w 8 = .next s) ∧
    (func = none → ∃ t, at' 0x10 8 = .next t ∧ t = { s with queues := t.queues } ∧ (t.queueOf q).cfg = val ∧
      (t.queueOf q).eprio.toNat = eprioOf (t.queueOf q) b.age.toNat ∧ t.queueOf q = { b with cfg := val, eprio := (t.queueOf q).eprio }) ∧
    (func = none → ∃ t, at' 0x18 8 = .next t ∧ t = { s with queues := t.queues } ∧ t.queueOf q = { b with slice := val &&& 0xFFFFFFFF }) ∧
    (func = none → ∀ k, k < 3 → ∃ t, at' (0x20 + 8 * k) 8 = .next t ∧ t = { s with queues := t.queues } ∧ t.queueOf q = { b with qmask := (t.queueOf q).qmask } ∧
      ∀ i, i < 192 → (t.queueOf q).qmask.getLsbD i = if i / 64 = k then val.getLsbD (i % 64) else b.qmask.getLsbD i) ∧
    (val.getLsbD 63 = b.en → val.getLsbD 62 = false → ∃ t, at' 0x38 8 = .next t ∧ t = { s with queues := t.queues } ∧
      t.queueOf q = { b with errvec := (val >>> 40).setWidth 16 }) ∧
    ((val >>> 40).setWidth 16 = b.errvec → Table.find? q s.queues = some b → Table.ascending s.queues = true →
      (val.getLsbD 62 = false → val.getLsbD 63 ≠ b.en → at' 0x38 8 = exec (.queueEnable q (val.getLsbD 63)) s) ∧
      (val.getLsbD 62 = true → val.getLsbD 63 = b.en → at' 0x38 8 = exec (.queueClear q) s))) ∧
  (∀ f off size val s, 0x10000 ≤ off → off < 0x11000 → f.toNat ≠ cfgField (s.queueOf ((off - 0x10000) / 64)) 32 6 →
    exec (.hostRegisterWrite (.bar (some f) off) size val) s = .next s) ∧
  (∀ q w size val s, q < 64 → w < 64 → (s.queueOf q).func ∈ s.flr → exec (.hostRegisterWrite (.bar none (0x10000 + 64 * q + w)) size val) s =
    .next { s with flrWrites := s.flrWrites ++ [((s.queueOf q).func, .bar none (0x10000 + 64 * q + w), size, val)] }) ∧
  (∀ f size val s, ∃ t, exec (.hostRegisterWrite (.unmask f) size val) s = .next t ∧ t = { s with funcs := t.funcs } ∧
    t.func f.toNat = { s.func f.toNat with masked := false } ∧ ∀ g, g ≠ f.toNat → t.func g = s.func g) ∧
  (∀ q (s : State) func, q < 64 → let b := s.queueOf q
    let r := fun (w : Nat) => s.hostRead func (0x10000 + 64 * q + 8 * w)
    ((∀ f, func = some f → f.toNat = cfgField b 32 6) → r 0 = some b.qbase ∧ r 1 = some (b.qhead ++ b.qtail) ∧ r 2 = some b.cfg ∧ r 3 = some b.slice ∧
      (∀ k, k < 3 → r (4 + k) = some (b.qmask.extractLsb' (64 * k) 64)) ∧
      r 7 = some (w64 ((if b.en then 2 ^ 63 else 0) + b.errvec.toNat * 2 ^ 40 + b.err.toNat * 2 ^ 32 + b.age.toNat * 2 ^ 8 + b.eprio.toNat * 2 ^ 5 : Nat))) ∧
    ∀ f w, func = some f → f.toNat ≠ cfgField b 32 6 → w < 8 → r w = some 0) ∧
  ∀ pa size val s, size ≤ 8 → s.flr = [] →
    ((∀ r ∈ s.recs, ∀ a ∈ r.waiting, ∀ e, s.walk r.asid (BitVec.ofNat 56 a) = some e →
        (stateAt s r.asid (BitVec.ofNat 56 a) e).toNat % 256 = 0 ∨ 3 < (stateAt s r.asid (BitVec.ofNat 56 a) e).toNat % 256 ∨
          Apart pa size (e.pa (BitVec.ofNat 56 a) + 8) 1) →
      ∃ t, exec (.hostRegisterWrite (.mem pa) size val) s = .next t ∧ t = { s with mem := t.mem } ∧
        t.phys pa size = val.toNat % 2 ^ (8 * size) ∧ ∀ a, a < pa ∨ pa + size ≤ a → t.byte a = s.byte a) ∧
    ∀ r ∈ s.recs, ∀ a ∈ r.waiting, ∀ e, s.walk r.asid (BitVec.ofNat 56 a) = some e →
      1 ≤ (stateAt s r.asid (BitVec.ofNat 56 a) e).toNat % 256 → (stateAt s r.asid (BitVec.ofNat 56 a) e).toNat % 256 ≤ 3 →
      pa ≤ e.pa (BitVec.ofNat 56 a) + 8 → e.pa (BitVec.ofNat 56 a) + 8 < pa + size →
      ∃ x, exec (.hostRegisterWrite (.mem pa) size val) s = .fault (.hostWriteOfCode x)

/-! ### The machine as a whole -/

/-- R98, R103, R136, R339: after package reset the counters are zero, no task runs, no lease is held and core 0 of a rope is first in turn, firmware
waits for GO. That every register reads zero and that memory lists nothing is the choice of log entries 1 and 2. -/
def Obligations.ResetState : Prop :=
  State.reset.now = 0 ∧ State.reset.tick = 0 ∧ State.reset.regs.fwstat = 0 ∧ State.reset.queue.head? = some (3000, Ev.tick) ∧
    (∀ r, (State.reset.rope r).lease = none ∧ (State.reset.rope r).waiting = [] ∧ (State.reset.rope r).last % 8 = 7) ∧
    (∀ n, (State.reset.core n).on = none ∧ (State.reset.core n).live = [] ∧ (State.reset.core n).banks = Banks.init ∧ (State.reset.core n).active = Pair.init) ∧
    (∀ q, (State.reset.queueOf q).en = false ∧ (State.reset.queueOf q).err = 0) ∧ (∀ a, State.reset.byte a = 0) ∧ Memory.wf State.reset.mem = true
/-- R116, R118, R129, R130, R133, R167, R244, R282, R292, R308: an event that is due is carried out, the end of a bound after the words of its cycle;
otherwise the context whose turn it is runs the instruction that the word at its pc decodes to, or the word it waits inside, or takes the fault or the
fetch that stands in its place; with neither, the next cycle begins: results land, and the granules that `RENEW` rewrites are stamped (log entry 23). After each step a context in `CWAIT`
or `CWAITB` whose object has reached its value has seen it. The order of events and words within a cycle is log entry 6. -/
def Obligations.StepRunsTheDecodedWord : Prop :=
  (∀ s n k i, Idle s → s.pick = some (n, k, .word i) →
    step s = afterwards (exec i (State.onMe { s with act := (n, k) } fun c => { c with word := some i })) ∧
      ((s.ctx n k).waiting = none → ∃ w, s.fetched n k = some w ∧ decode w = some i) ∧ ∀ j, (s.ctx n k).waiting = some j → i = j) ∧
  (∀ s n k, Idle s → (∀ w, s.pick = some (n, k, .bad w) → step s = afterwards (exec (.illegalInstruction w) { s with act := (n, k) })) ∧
    (s.pick = some (n, k, .fetch) → step s = afterwards (exec (.instructionFetch n k) { s with act := (n, k) })) ∧
    (s.pick = some (n, k, .imprecise) → step s = afterwards (exec (.impreciseFaultTaken n k) { s with act := (n, k) }))) ∧
  (∀ s, Idle s → s.pick = none → ∃ t : State, step s = .next t.watched ∧ t.now = s.now + 1 ∧
    t = { s with now := t.now, cores := t.cores, ropes := t.ropes } ∧ (∀ n k, t.ctx n k = (s.ctx n k).landAll (s.now + 1)) ∧
    (∀ n, t.core n = { s.core n with ctxs := (t.core n).ctxs, banks := (t.core n).banks, renewing := (s.core n).renewing.filter fun e => s.now < e.2 } ∧
      let b := (s.core n).banks
      (t.core n).banks = { b with gran := (t.core n).banks.gran } ∧ ∀ g, (t.core n).banks.granAt g =
        if (∃ e ∈ (s.core n).renewing, e.1 = g ∧ e.2 ≤ s.now) ∧ (b.granAt g).exp = false ∧ (s.tick - (b.granAt g).stamp).toNat ≤ 60
        then { b.granAt g with stamp := s.tick } else b.granAt g) ∧
    ∀ r, t.rope r = { s.rope r with waiting := (t.rope r).waiting } ∧
      ∀ w, w ∈ (t.rope r).waiting ↔ w ∈ (s.rope r).waiting ∧ (t.ctx (w.1 / 16) (w.1 % 16)).asksLease = true) ∧
  (∀ s c e q i, s.queue = (c, e) :: q → c ≤ s.now → (¬ AfterWords e ∨ s.pick = none) → EvIs e i → step s = afterwards (exec i { s with queue := q })) ∧ (∀ e, ∃ i, EvIs e i) ∧
  (∀ t : State, afterwards (.next t) = .next t.watched ∧ t.watched = { t with cores := t.watched.cores } ∧
    (∀ n, t.watched.core n = { t.core n with ctxs := (t.watched.core n).ctxs }) ∧
    ∀ n k, t.watched.ctx n k = match t.observed n k with | some x => { t.ctx n k with answer := some (x, 0, 0) } | none => t.ctx n k) ∧
  (∀ s n k t, s.pick = some (n, k, t) → s.turnOf n k = some t ∧ k < 11 ∧ (∃ c, (n, c) ∈ s.cores) ∧
    ∀ j, j < 11 → turnNo s n j < turnNo s n k → s.turnOf n j = none) ∧
  (∀ (s : State) n k t c, s.turnOf n k = some t → k < 11 → (n, c) ∈ s.cores → s.pick ≠ none) ∧
  (∀ (s : State) n k i, s.mayIssue n k = true → (s.ctx n k).faulted = false → (s.ctx n k).waiting = some i →
    s.turnOf n k = if s.unparked n k i = true ∧ s.interlocked n k i = false then some (.word i) else none) ∧
  ∀ (s : State) n k w, s.mayIssue n k = true → (s.ctx n k).faulted = false → (s.ctx n k).waiting = none → s.fetched n k = some w →
    (decode w = none → s.turnOf n k = some (.bad w)) ∧
    ∀ i, decode w = some i → (s.unparked n k i = true → s.interlocked n k i = false → s.turnOf n k = some (.word i)) ∧
      (s.unparked n k i = false ∨ s.interlocked n k i = true → s.turnOf n k = none)
/-- R110, R126: words of the worked chapters stand for the instructions that they are given for. -/
def Obligations.WordsDecode : Prop :=
  decode 0x00190A01 = some (.add 0 3 4 5) ∧ decode 0x01A2C00A = some (.popc 0 20 11) ∧ decode 0x03280075 = some (.addi 0 5 0 0x75) ∧
  decode 0x135CBFFA = some (.bge 0 11 18 0x3FFA) ∧ decode 0x1831D0AA = some (.fma 0 .bf16 .rtz 6 7 8) ∧
  decode 0x2229A803 = some (.st 0 .hi4 5 6 3) ∧ decode 0x2828C801 = some (.atom 0 .add .z64 5 3 4) ∧
  decode 0x2A000003 = some (.fenceAcq 0 .device) ∧ decode 0x30184440 = some (.vadd 0 3 1 2 1) ∧ decode 0x3A702260 = some (.lread 0 14 17) ∧
  decode 0x3BD70C01 = some (.copyApnd 0 26 28 6) ∧ decode 0x3CCEB601 = some (.fork 0 25 26 27) ∧ decode 0x3D014616 = some (.fred 0 .rsc 5 3) ∧
  decode 0x7E052C00 = some (.crd 1 .resinfo 22) ∧ decode 0 = none
/-- R110, R116, R118, R126: every well-formed instruction that has a word is read back from it, with every operand at every value, and a word that
decodes is the word of what it decodes to. -/
def Obligations.DecodeEncode : Prop :=
  (∀ i w, i.wf = true → encode i = some w → decode w = some i) ∧ ∀ i w, decode w = some i → i.wf = true ∧ encode i = some w
/-- Memory keeps its canonical form: addresses rise and no listed byte is zero (log entry 1). -/
def Obligations.MemoryStaysCanonical : Prop :=
  ∀ s t, Memory.wf s.mem = true → step s = .next t → Memory.wf t.mem = true
end

