-- ==== Sys2Proof/Laws/Exec.lean ====
section
/-! SUPPORT. What `exec` calls for each constructor, true by `rfl`; and that an event of the machine's own list is carried
out by the meaning that `exec` calls for the same constructor. -/

namespace Sys2Proof.Machine

set_option Elab.async false

theorem exec_add (st : Stall) (d : Reg) (a : Reg) (b : Reg) (s : State) : exec (.add st d a b) s = execAdd st d a b s := rfl
theorem exec_sub (st : Stall) (d : Reg) (a : Reg) (b : Reg) (s : State) : exec (.sub st d a b) s = execSub st d a b s := rfl
theorem exec_mul (st : Stall) (d : Reg) (a : Reg) (b : Reg) (s : State) : exec (.mul st d a b) s = execMul st d a b s := rfl
theorem exec_mulh (st : Stall) (t : Sgn) (d : Reg) (a : Reg) (b : Reg) (s : State) : exec (.mulh st t d a b) s = execMulh st t d a b s := rfl
theorem exec_div (st : Stall) (t : Sgn) (d : Reg) (a : Reg) (b : Reg) (s : State) : exec (.div st t d a b) s = execDiv st t d a b s := rfl
theorem exec_rem (st : Stall) (t : Sgn) (d : Reg) (a : Reg) (b : Reg) (s : State) : exec (.rem st t d a b) s = execRem st t d a b s := rfl
theorem exec_min (st : Stall) (t : Sgn) (d : Reg) (a : Reg) (b : Reg) (s : State) : exec (.min st t d a b) s = execMin st t d a b s := rfl
theorem exec_max (st : Stall) (t : Sgn) (d : Reg) (a : Reg) (b : Reg) (s : State) : exec (.max st t d a b) s = execMax st t d a b s := rfl
theorem exec_and (st : Stall) (d : Reg) (a : Reg) (b : Reg) (s : State) : exec (.and st d a b) s = execAnd st d a b s := rfl
theorem exec_or (st : Stall) (d : Reg) (a : Reg) (b : Reg) (s : State) : exec (.or st d a b) s = execOr st d a b s := rfl
theorem exec_xor (st : Stall) (d : Reg) (a : Reg) (b : Reg) (s : State) : exec (.xor st d a b) s = execXor st d a b s := rfl
theorem exec_andn (st : Stall) (d : Reg) (a : Reg) (b : Reg) (s : State) : exec (.andn st d a b) s = execAndn st d a b s := rfl
theorem exec_shl (st : Stall) (d : Reg) (a : Reg) (b : Reg) (s : State) : exec (.shl st d a b) s = execShl st d a b s := rfl
theorem exec_shr (st : Stall) (d : Reg) (a : Reg) (b : Reg) (s : State) : exec (.shr st d a b) s = execShr st d a b s := rfl
theorem exec_sra (st : Stall) (d : Reg) (a : Reg) (b : Reg) (s : State) : exec (.sra st d a b) s = execSra st d a b s := rfl
theorem exec_rotr (st : Stall) (d : Reg) (a : Reg) (b : Reg) (s : State) : exec (.rotr st d a b) s = execRotr st d a b s := rfl
theorem exec_clz (st : Stall) (d : Reg) (a : Reg) (s : State) : exec (.clz st d a) s = execClz st d a s := rfl
theorem exec_ctz (st : Stall) (d : Reg) (a : Reg) (s : State) : exec (.ctz st d a) s = execCtz st d a s := rfl
theorem exec_popc (st : Stall) (d : Reg) (a : Reg) (s : State) : exec (.popc st d a) s = execPopc st d a s := rfl
theorem exec_slt (st : Stall) (t : Sgn) (d : Reg) (a : Reg) (b : Reg) (s : State) : exec (.slt st t d a b) s = execSlt st t d a b s := rfl
theorem exec_seq (st : Stall) (d : Reg) (a : Reg) (b : Reg) (s : State) : exec (.seq st d a b) s = execSeq st d a b s := rfl
theorem exec_sne (st : Stall) (d : Reg) (a : Reg) (b : Reg) (s : State) : exec (.sne st d a b) s = execSne st d a b s := rfl
theorem exec_sext (st : Stall) (w : ExtW) (d : Reg) (a : Reg) (s : State) : exec (.sext st w d a) s = execSext st w d a s := rfl
theorem exec_zext (st : Stall) (w : ExtW) (d : Reg) (a : Reg) (s : State) : exec (.zext st w d a) s = execZext st w d a s := rfl
theorem exec_addi (st : Stall) (d : Reg) (a : Reg) (imm : BitVec 14) (s : State) : exec (.addi st d a imm) s = execAddi st d a imm s := rfl
theorem exec_andi (st : Stall) (d : Reg) (a : Reg) (imm : BitVec 14) (s : State) : exec (.andi st d a imm) s = execAndi st d a imm s := rfl
theorem exec_ori (st : Stall) (d : Reg) (a : Reg) (imm : BitVec 14) (s : State) : exec (.ori st d a imm) s = execOri st d a imm s := rfl
theorem exec_xori (st : Stall) (d : Reg) (a : Reg) (imm : BitVec 14) (s : State) : exec (.xori st d a imm) s = execXori st d a imm s := rfl
theorem exec_slti (st : Stall) (d : Reg) (a : Reg) (imm : BitVec 14) (s : State) : exec (.slti st d a imm) s = execSlti st d a imm s := rfl
theorem exec_shli (st : Stall) (d : Reg) (a : Reg) (sh : BitVec 6) (s : State) : exec (.shli st d a sh) s = execShli st d a sh s := rfl
theorem exec_shri (st : Stall) (d : Reg) (a : Reg) (sh : BitVec 6) (s : State) : exec (.shri st d a sh) s = execShri st d a sh s := rfl
theorem exec_srai (st : Stall) (d : Reg) (a : Reg) (sh : BitVec 6) (s : State) : exec (.srai st d a sh) s = execSrai st d a sh s := rfl
theorem exec_lui (st : Stall) (d : Reg) (imm : BitVec 19) (s : State) : exec (.lui st d imm) s = execLui st d imm s := rfl
theorem exec_lcat (st : Stall) (d : Reg) (imm : BitVec 19) (s : State) : exec (.lcat st d imm) s = execLcat st d imm s := rfl
theorem exec_lpc (st : Stall) (d : Reg) (imm : BitVec 19) (s : State) : exec (.lpc st d imm) s = execLpc st d imm s := rfl
theorem exec_adda (st : Stall) (d : Reg) (a : Reg) (b : Reg) (s : State) : exec (.adda st d a b) s = execAdda st d a b s := rfl
theorem exec_tagset (st : Stall) (d : Reg) (a : Reg) (b : Reg) (s : State) : exec (.tagset st d a b) s = execTagset st d a b s := rfl
theorem exec_tagget (st : Stall) (d : Reg) (a : Reg) (s : State) : exec (.tagget st d a) s = execTagget st d a s := rfl
theorem exec_suba (st : Stall) (d : Reg) (a : Reg) (b : Reg) (s : State) : exec (.suba st d a b) s = execSuba st d a b s := rfl
theorem exec_addai (st : Stall) (d : Reg) (a : Reg) (imm : BitVec 14) (s : State) : exec (.addai st d a imm) s = execAddai st d a imm s := rfl
theorem exec_beq (st : Stall) (a : Reg) (b : Reg) (disp : BitVec 14) (s : State) : exec (.beq st a b disp) s = execBeq st a b disp s := rfl
theorem exec_bne (st : Stall) (a : Reg) (b : Reg) (disp : BitVec 14) (s : State) : exec (.bne st a b disp) s = execBne st a b disp s := rfl
theorem exec_blt (st : Stall) (a : Reg) (b : Reg) (disp : BitVec 14) (s : State) : exec (.blt st a b disp) s = execBlt st a b disp s := rfl
theorem exec_bge (st : Stall) (a : Reg) (b : Reg) (disp : BitVec 14) (s : State) : exec (.bge st a b disp) s = execBge st a b disp s := rfl
theorem exec_jmp (st : Stall) (disp : BitVec 24) (s : State) : exec (.jmp st disp) s = execJmp st disp s := rfl
theorem exec_call (st : Stall) (disp : BitVec 24) (s : State) : exec (.call st disp) s = execCall st disp s := rfl
theorem exec_jr (st : Stall) (a : Reg) (s : State) : exec (.jr st a) s = execJr st a s := rfl
theorem exec_callr (st : Stall) (d : Reg) (a : Reg) (s : State) : exec (.callr st d a) s = execCallr st d a s := rfl
theorem exec_nop (st : Stall) (s : State) : exec (.nop st) s = execNop st s := rfl
theorem exec_cairn (st : Stall) (s : State) : exec (.cairn st) s = execCairn st s := rfl
theorem exec_dly (st : Stall) (a : Reg) (s : State) : exec (.dly st a) s = execDly st a s := rfl
theorem exec_tsync (st : Stall) (s : State) : exec (.tsync st) s = execTsync st s := rfl
theorem exec_hstart (st : Stall) (d : Reg) (a : Reg) (s : State) : exec (.hstart st d a) s = execHstart st d a s := rfl
theorem exec_hexit (st : Stall) (s : State) : exec (.hexit st) s = execHexit st s := rfl
theorem exec_hwait (st : Stall) (a : Reg) (s : State) : exec (.hwait st a) s = execHwait st a s := rfl
theorem exec_tdone (st : Stall) (s : State) : exec (.tdone st) s = execTdone st s := rfl
theorem exec_tdec (st : Stall) (a : Reg) (s : State) : exec (.tdec st a) s = execTdec st a s := rfl
theorem exec_tcancel (st : Stall) (d : Reg) (a : Reg) (s : State) : exec (.tcancel st d a) s = execTcancel st d a s := rfl
theorem exec_tid (st : Stall) (d : Reg) (s : State) : exec (.tid st d) s = execTid st d s := rfl
theorem exec_fadd (st : Stall) (t : FTy) (r : Rnd) (d : Reg) (a : Reg) (b : Reg) (s : State) : exec (.fadd st t r d a b) s = execFadd st t r d a b s := rfl
theorem exec_fsub (st : Stall) (t : FTy) (r : Rnd) (d : Reg) (a : Reg) (b : Reg) (s : State) : exec (.fsub st t r d a b) s = execFsub st t r d a b s := rfl
theorem exec_fmul (st : Stall) (t : FTy) (r : Rnd) (d : Reg) (a : Reg) (b : Reg) (s : State) : exec (.fmul st t r d a b) s = execFmul st t r d a b s := rfl
theorem exec_fdiv (st : Stall) (t : FTy) (r : Rnd) (d : Reg) (a : Reg) (b : Reg) (s : State) : exec (.fdiv st t r d a b) s = execFdiv st t r d a b s := rfl
theorem exec_fsqrt (st : Stall) (t : FTy) (r : Rnd) (d : Reg) (a : Reg) (s : State) : exec (.fsqrt st t r d a) s = execFsqrt st t r d a s := rfl
theorem exec_fma (st : Stall) (t : FTy) (r : Rnd) (d : Reg) (a : Reg) (b : Reg) (s : State) : exec (.fma st t r d a b) s = execFma st t r d a b s := rfl
theorem exec_fmin (st : Stall) (t : FTy) (d : Reg) (a : Reg) (b : Reg) (s : State) : exec (.fmin st t d a b) s = execFmin st t d a b s := rfl
theorem exec_fmax (st : Stall) (t : FTy) (d : Reg) (a : Reg) (b : Reg) (s : State) : exec (.fmax st t d a b) s = execFmax st t d a b s := rfl
theorem exec_feq (st : Stall) (t : FTy) (d : Reg) (a : Reg) (b : Reg) (s : State) : exec (.feq st t d a b) s = execFeq st t d a b s := rfl
theorem exec_flt (st : Stall) (t : FTy) (d : Reg) (a : Reg) (b : Reg) (s : State) : exec (.flt st t d a b) s = execFlt st t d a b s := rfl
theorem exec_fle (st : Stall) (t : FTy) (d : Reg) (a : Reg) (b : Reg) (s : State) : exec (.fle st t d a b) s = execFle st t d a b s := rfl
theorem exec_fclass (st : Stall) (t : FTy) (d : Reg) (a : Reg) (s : State) : exec (.fclass st t d a) s = execFclass st t d a s := rfl
theorem exec_fexp2 (st : Stall) (t : FTy) (d : Reg) (a : Reg) (s : State) : exec (.fexp2 st t d a) s = execFexp2 st t d a s := rfl
theorem exec_fneg (st : Stall) (t : FTy) (d : Reg) (a : Reg) (s : State) : exec (.fneg st t d a) s = execFneg st t d a s := rfl
theorem exec_fabs (st : Stall) (t : FTy) (d : Reg) (a : Reg) (s : State) : exec (.fabs st t d a) s = execFabs st t d a s := rfl
theorem exec_fcvt (st : Stall) (tgt : Fmt) (src : CvtSrc) (r : Rnd) (nsat : Bool) (d : Reg) (a : Reg) (s : State) : exec (.fcvt st tgt src r nsat d a) s = execFcvt st tgt src r nsat d a s := rfl
theorem exec_ld (st : Stall) (t : LdTy) (d : Reg) (b : Reg) (off : BitVec 11) (s : State) : exec (.ld st t d b off) s = execLd st t d b off s := rfl
theorem exec_ldFresh (st : Stall) (t : LdTy) (d : Reg) (b : Reg) (off : BitVec 11) (s : State) : exec (.ldFresh st t d b off) s = execLdFresh st t d b off s := rfl
theorem exec_st (st : Stall) (t : StTy) (d : Reg) (b : Reg) (off : BitVec 11) (s : State) : exec (.st st t d b off) s = execSt st t d b off s := rfl
theorem exec_ldAcq (st : Stall) (sc : Scope) (d : Reg) (b : Reg) (off : BitVec 11) (s : State) : exec (.ldAcq st sc d b off) s = execLdAcq st sc d b off s := rfl
theorem exec_stRel (st : Stall) (sc : Scope) (d : Reg) (b : Reg) (off : BitVec 11) (s : State) : exec (.stRel st sc d b off) s = execStRel st sc d b off s := rfl
theorem exec_ldw (st : Stall) (t : LdTy) (d : Reg) (w : BitVec 3) (b : Reg) (s : State) : exec (.ldw st t d w b) s = execLdw st t d w b s := rfl
theorem exec_ldxF32 (st : Stall) (d : Reg) (a : Reg) (b : Reg) (s : State) : exec (.ldxF32 st d a b) s = execLdxF32 st d a b s := rfl
theorem exec_ldxS32 (st : Stall) (d : Reg) (a : Reg) (b : Reg) (s : State) : exec (.ldxS32 st d a b) s = execLdxS32 st d a b s := rfl
theorem exec_stx (st : Stall) (d : Reg) (a : Reg) (b : Reg) (s : State) : exec (.stx st d a b) s = execStx st d a b s := rfl
theorem exec_stxNsat (st : Stall) (d : Reg) (a : Reg) (b : Reg) (s : State) : exec (.stxNsat st d a b) s = execStxNsat st d a b s := rfl
theorem exec_pref (st : Stall) (a : Reg) (b : Reg) (s : State) : exec (.pref st a b) s = execPref st a b s := rfl
theorem exec_spresize (st : Stall) (a : Reg) (s : State) : exec (.spresize st a) s = execSpresize st a s := rfl
theorem exec_renew (st : Stall) (a : Reg) (b : Reg) (s : State) : exec (.renew st a b) s = execRenew st a b s := rfl
theorem exec_flush (st : Stall) (a : Reg) (b : Reg) (s : State) : exec (.flush st a b) s = execFlush st a b s := rfl
theorem exec_flushinv (st : Stall) (a : Reg) (b : Reg) (s : State) : exec (.flushinv st a b) s = execFlushinv st a b s := rfl
theorem exec_seqset (st : Stall) (a : Reg) (b : Reg) (s : State) : exec (.seqset st a b) s = execSeqset st a b s := rfl
theorem exec_seqget (st : Stall) (d : Reg) (a : Reg) (s : State) : exec (.seqget st d a) s = execSeqget st d a s := rfl
theorem exec_icinv (st : Stall) (sc : Scope) (a : Reg) (b : Reg) (s : State) : exec (.icinv st sc a b) s = execIcinv st sc a b s := rfl
theorem exec_atom (st : Stall) (op : AOp) (t : ATy) (d : Reg) (a : Reg) (b : Reg) (s : State) : exec (.atom st op t d a b) s = execAtom st op t d a b s := rfl
theorem exec_atomnr (st : Stall) (op : AOp) (t : ATy) (a : Reg) (b : Reg) (s : State) : exec (.atomnr st op t a b) s = execAtomnr st op t a b s := rfl
theorem exec_fenceAcq (st : Stall) (sc : Scope) (s : State) : exec (.fenceAcq st sc) s = execFenceAcq st sc s := rfl
theorem exec_fenceRel (st : Stall) (sc : Scope) (s : State) : exec (.fenceRel st sc) s = execFenceRel st sc s := rfl
theorem exec_fenceAr (st : Stall) (sc : Scope) (s : State) : exec (.fenceAr st sc) s = execFenceAr st sc s := rfl
theorem exec_belay (st : Stall) (sc : Scope) (a : Reg) (s : State) : exec (.belay st sc a) s = execBelay st sc a s := rfl
theorem exec_barr (st : Stall) (sc : Scope) (d : Reg) (a : Reg) (s : State) : exec (.barr st sc d a) s = execBarr st sc d a s := rfl
theorem exec_bwait (st : Stall) (sc : Scope) (a : Reg) (b : Reg) (s : State) : exec (.bwait st sc a b) s = execBwait st sc a b s := rfl
theorem exec_wfe (st : Stall) (d : Reg) (a : Reg) (s : State) : exec (.wfe st d a) s = execWfe st d a s := rfl
theorem exec_evsig (st : Stall) (a : Reg) (s : State) : exec (.evsig st a) s = execEvsig st a s := rfl
theorem exec_cwait (st : Stall) (a : Reg) (b : Reg) (s : State) : exec (.cwait st a b) s = execCwait st a b s := rfl
theorem exec_cwaitb (st : Stall) (d : Reg) (a : Reg) (b : Reg) (s : State) : exec (.cwaitb st d a b) s = execCwaitb st d a b s := rfl
theorem exec_qpush (st : Stall) (a : Reg) (b : Reg) (s : State) : exec (.qpush st a b) s = execQpush st a b s := rfl
theorem exec_qpop (st : Stall) (d : Reg) (a : Reg) (s : State) : exec (.qpop st d a) s = execQpop st d a s := rfl
theorem exec_qpopb (st : Stall) (d : Reg) (a : Reg) (b : Reg) (s : State) : exec (.qpopb st d a b) s = execQpopb st d a b s := rfl
theorem exec_futwait (st : Stall) (d : Reg) (a : Reg) (s : State) : exec (.futwait st d a) s = execFutwait st d a s := rfl
theorem exec_futset (st : Stall) (d : Reg) (a : Reg) (b : Reg) (s : State) : exec (.futset st d a b) s = execFutset st d a b s := rfl
theorem exec_futwaitb (st : Stall) (d : Reg) (a : Reg) (b : Reg) (s : State) : exec (.futwaitb st d a b) s = execFutwaitb st d a b s := rfl
theorem exec_send (st : Stall) (d : Reg) (a : Reg) (b : Reg) (s : State) : exec (.send st d a b) s = execSend st d a b s := rfl
theorem exec_sendb (st : Stall) (d : Reg) (a : Reg) (b : Reg) (s : State) : exec (.sendb st d a b) s = execSendb st d a b s := rfl
theorem exec_recv (st : Stall) (d : Reg) (s : State) : exec (.recv st d) s = execRecv st d s := rfl
theorem exec_recvb (st : Stall) (d : Reg) (a : Reg) (s : State) : exec (.recvb st d a) s = execRecvb st d a s := rfl
theorem exec_vadd (st : Stall) (d : VReg) (a : VReg) (b : VReg) (p : PReg) (s : State) : exec (.vadd st d a b p) s = execVadd st d a b p s := rfl
theorem exec_vsub (st : Stall) (d : VReg) (a : VReg) (b : VReg) (p : PReg) (s : State) : exec (.vsub st d a b p) s = execVsub st d a b p s := rfl
theorem exec_vmul (st : Stall) (d : VReg) (a : VReg) (b : VReg) (p : PReg) (s : State) : exec (.vmul st d a b p) s = execVmul st d a b p s := rfl
theorem exec_vfma (st : Stall) (d : VReg) (a : VReg) (b : VReg) (p : PReg) (s : State) : exec (.vfma st d a b p) s = execVfma st d a b p s := rfl
theorem exec_vdiv (st : Stall) (d : VReg) (a : VReg) (b : VReg) (p : PReg) (s : State) : exec (.vdiv st d a b p) s = execVdiv st d a b p s := rfl
theorem exec_vsqrt (st : Stall) (d : VReg) (a : VReg) (p : PReg) (s : State) : exec (.vsqrt st d a p) s = execVsqrt st d a p s := rfl
theorem exec_vmin (st : Stall) (d : VReg) (a : VReg) (b : VReg) (p : PReg) (s : State) : exec (.vmin st d a b p) s = execVmin st d a b p s := rfl
theorem exec_vmax (st : Stall) (d : VReg) (a : VReg) (b : VReg) (p : PReg) (s : State) : exec (.vmax st d a b p) s = execVmax st d a b p s := rfl
theorem exec_vexp2 (st : Stall) (d : VReg) (a : VReg) (p : PReg) (s : State) : exec (.vexp2 st d a p) s = execVexp2 st d a p s := rfl
theorem exec_vabs (st : Stall) (d : VReg) (a : VReg) (p : PReg) (s : State) : exec (.vabs st d a p) s = execVabs st d a p s := rfl
theorem exec_vneg (st : Stall) (d : VReg) (a : VReg) (p : PReg) (s : State) : exec (.vneg st d a p) s = execVneg st d a p s := rfl
theorem exec_viadd (st : Stall) (d : VReg) (a : VReg) (b : VReg) (p : PReg) (s : State) : exec (.viadd st d a b p) s = execViadd st d a b p s := rfl
theorem exec_visub (st : Stall) (d : VReg) (a : VReg) (b : VReg) (p : PReg) (s : State) : exec (.visub st d a b p) s = execVisub st d a b p s := rfl
theorem exec_vimul (st : Stall) (d : VReg) (a : VReg) (b : VReg) (p : PReg) (s : State) : exec (.vimul st d a b p) s = execVimul st d a b p s := rfl
theorem exec_viminS32 (st : Stall) (d : VReg) (a : VReg) (b : VReg) (p : PReg) (s : State) : exec (.viminS32 st d a b p) s = execViminS32 st d a b p s := rfl
theorem exec_viminZ32 (st : Stall) (d : VReg) (a : VReg) (b : VReg) (p : PReg) (s : State) : exec (.viminZ32 st d a b p) s = execViminZ32 st d a b p s := rfl
theorem exec_vimaxS32 (st : Stall) (d : VReg) (a : VReg) (b : VReg) (p : PReg) (s : State) : exec (.vimaxS32 st d a b p) s = execVimaxS32 st d a b p s := rfl
theorem exec_vimaxZ32 (st : Stall) (d : VReg) (a : VReg) (b : VReg) (p : PReg) (s : State) : exec (.vimaxZ32 st d a b p) s = execVimaxZ32 st d a b p s := rfl
theorem exec_vand (st : Stall) (d : VReg) (a : VReg) (b : VReg) (p : PReg) (s : State) : exec (.vand st d a b p) s = execVand st d a b p s := rfl
theorem exec_vor (st : Stall) (d : VReg) (a : VReg) (b : VReg) (p : PReg) (s : State) : exec (.vor st d a b p) s = execVor st d a b p s := rfl
theorem exec_vxor (st : Stall) (d : VReg) (a : VReg) (b : VReg) (p : PReg) (s : State) : exec (.vxor st d a b p) s = execVxor st d a b p s := rfl
theorem exec_vshl (st : Stall) (d : VReg) (a : VReg) (b : VReg) (p : PReg) (s : State) : exec (.vshl st d a b p) s = execVshl st d a b p s := rfl
theorem exec_vshr (st : Stall) (d : VReg) (a : VReg) (b : VReg) (p : PReg) (s : State) : exec (.vshr st d a b p) s = execVshr st d a b p s := rfl
theorem exec_vsra (st : Stall) (d : VReg) (a : VReg) (b : VReg) (p : PReg) (s : State) : exec (.vsra st d a b p) s = execVsra st d a b p s := rfl
theorem exec_vfcmpEq (st : Stall) (d : PReg) (a : VReg) (b : VReg) (p : PReg) (s : State) : exec (.vfcmpEq st d a b p) s = execVfcmpEq st d a b p s := rfl
theorem exec_vfcmpLt (st : Stall) (d : PReg) (a : VReg) (b : VReg) (p : PReg) (s : State) : exec (.vfcmpLt st d a b p) s = execVfcmpLt st d a b p s := rfl
theorem exec_vfcmpLe (st : Stall) (d : PReg) (a : VReg) (b : VReg) (p : PReg) (s : State) : exec (.vfcmpLe st d a b p) s = execVfcmpLe st d a b p s := rfl
theorem exec_vicmpEq (st : Stall) (d : PReg) (a : VReg) (b : VReg) (p : PReg) (s : State) : exec (.vicmpEq st d a b p) s = execVicmpEq st d a b p s := rfl
theorem exec_vicmpLtS32 (st : Stall) (d : PReg) (a : VReg) (b : VReg) (p : PReg) (s : State) : exec (.vicmpLtS32 st d a b p) s = execVicmpLtS32 st d a b p s := rfl
theorem exec_vicmpLtZ32 (st : Stall) (d : PReg) (a : VReg) (b : VReg) (p : PReg) (s : State) : exec (.vicmpLtZ32 st d a b p) s = execVicmpLtZ32 st d a b p s := rfl
theorem exec_vsel (st : Stall) (d : VReg) (a : VReg) (b : VReg) (p : PReg) (s : State) : exec (.vsel st d a b p) s = execVsel st d a b p s := rfl
theorem exec_vpset (st : Stall) (d : PReg) (a : VReg) (p : PReg) (s : State) : exec (.vpset st d a p) s = execVpset st d a p s := rfl
theorem exec_vpget (st : Stall) (d : VReg) (a : PReg) (p : PReg) (s : State) : exec (.vpget st d a p) s = execVpget st d a p s := rfl
theorem exec_vperm (st : Stall) (d : VReg) (a : VReg) (b : VReg) (p : PReg) (s : State) : exec (.vperm st d a b p) s = execVperm st d a b p s := rfl
theorem exec_vcvt (st : Stall) (tgt : Fmt) (src : VSrc) (nsat : Bool) (d : VReg) (a : VReg) (p : PReg) (s : State) : exec (.vcvt st tgt src nsat d a p) s = execVcvt st tgt src nsat d a p s := rfl
theorem exec_vradd (st : Stall) (d : VReg) (a : VReg) (p : PReg) (s : State) : exec (.vradd st d a p) s = execVradd st d a p s := rfl
theorem exec_vrmax (st : Stall) (d : VReg) (a : VReg) (p : PReg) (s : State) : exec (.vrmax st d a p) s = execVrmax st d a p s := rfl
theorem exec_vrmin (st : Stall) (d : VReg) (a : VReg) (p : PReg) (s : State) : exec (.vrmin st d a p) s = execVrmin st d a p s := rfl
theorem exec_vriadd (st : Stall) (d : VReg) (a : VReg) (p : PReg) (s : State) : exec (.vriadd st d a p) s = execVriadd st d a p s := rfl
theorem exec_vrimaxS32 (st : Stall) (d : VReg) (a : VReg) (p : PReg) (s : State) : exec (.vrimaxS32 st d a p) s = execVrimaxS32 st d a p s := rfl
theorem exec_vrimaxZ32 (st : Stall) (d : VReg) (a : VReg) (p : PReg) (s : State) : exec (.vrimaxZ32 st d a p) s = execVrimaxZ32 st d a p s := rfl
theorem exec_vriminS32 (st : Stall) (d : VReg) (a : VReg) (p : PReg) (s : State) : exec (.vriminS32 st d a p) s = execVriminS32 st d a p s := rfl
theorem exec_vriminZ32 (st : Stall) (d : VReg) (a : VReg) (p : PReg) (s : State) : exec (.vriminZ32 st d a p) s = execVriminZ32 st d a p s := rfl
theorem exec_vld (st : Stall) (v : VReg) (d : Reg) (a : Reg) (s : State) : exec (.vld st v d a) s = execVld st v d a s := rfl
theorem exec_vst (st : Stall) (v : VReg) (d : Reg) (a : Reg) (s : State) : exec (.vst st v d a) s = execVst st v d a s := rfl
theorem exec_vldx (st : Stall) (v : VReg) (d : Reg) (a : Reg) (s : State) : exec (.vldx st v d a) s = execVldx st v d a s := rfl
theorem exec_vstx (st : Stall) (v : VReg) (d : Reg) (a : Reg) (s : State) : exec (.vstx st v d a) s = execVstx st v d a s := rfl
theorem exec_vgather (st : Stall) (v : VReg) (d : Reg) (a : Reg) (s : State) : exec (.vgather st v d a) s = execVgather st v d a s := rfl
theorem exec_vscatter (st : Stall) (v : VReg) (d : Reg) (a : Reg) (s : State) : exec (.vscatter st v d a) s = execVscatter st v d a s := rfl
theorem exec_vbcast (st : Stall) (v : VReg) (a : Reg) (s : State) : exec (.vbcast st v a) s = execVbcast st v a s := rfl
theorem exec_vins (st : Stall) (v : VReg) (d : Reg) (a : Reg) (s : State) : exec (.vins st v d a) s = execVins st v d a s := rfl
theorem exec_vext (st : Stall) (v : VReg) (d : Reg) (a : Reg) (s : State) : exec (.vext st v d a) s = execVext st v d a s := rfl
theorem exec_mmul (st : Stall) (t : Tile) (a : Reg) (b : Reg) (c : Reg) (s : State) : exec (.mmul st t a b c) s = execMmul st t a b c s := rfl
theorem exec_mmac (st : Stall) (t : Tile) (a : Reg) (b : Reg) (c : Reg) (s : State) : exec (.mmac st t a b c) s = execMmac st t a b c s := rfl
theorem exec_mrun (st : Stall) (t : Tile) (a : Reg) (b : Reg) (c : Reg) (s : State) : exec (.mrun st t a b c) s = execMrun st t a b c s := rfl
theorem exec_mread (st : Stall) (t : Tile) (a : Reg) (b : Reg) (c : Reg) (s : State) : exec (.mread st t a b c) s = execMread st t a b c s := rfl
theorem exec_mzero (st : Stall) (t : Tile) (c : Reg) (s : State) : exec (.mzero st t c) s = execMzero st t c s := rfl
theorem exec_mcomb (st : Stall) (t : Tile) (a : Reg) (c : Reg) (s : State) : exec (.mcomb st t a c) s = execMcomb st t a c s := rfl
theorem exec_mprog (st : Stall) (a : Reg) (c : Reg) (s : State) : exec (.mprog st a c) s = execMprog st a c s := rfl
theorem exec_mload (st : Stall) (t : Tile) (a : Reg) (b : Reg) (c : Reg) (s : State) : exec (.mload st t a b c) s = execMload st t a b c s := rfl
theorem exec_lease (st : Stall) (s : State) : exec (.lease st) s = execLease st s := rfl
theorem exec_leaseb (st : Stall) (a : Reg) (s : State) : exec (.leaseb st a) s = execLeaseb st a s := rfl
theorem exec_leasend (st : Stall) (s : State) : exec (.leasend st) s = execLeasend st s := rfl
theorem exec_leaseq (st : Stall) (d : Reg) (s : State) : exec (.leaseq st d) s = execLeaseq st d s := rfl
theorem exec_mdim (st : Stall) (a : Reg) (s : State) : exec (.mdim st a) s = execMdim st a s := rfl
theorem exec_mseq (st : Stall) (a : Reg) (s : State) : exec (.mseq st a) s = execMseq st a s := rfl
theorem exec_lcfg (st : Stall) (a : Reg) (c : Reg) (s : State) : exec (.lcfg st a c) s = execLcfg st a c s := rfl
theorem exec_lwgt (st : Stall) (a : Reg) (c : Reg) (s : State) : exec (.lwgt st a c) s = execLwgt st a c s := rfl
theorem exec_lstep (st : Stall) (src : LSrc) (a : Reg) (c : Reg) (s : State) : exec (.lstep st src a c) s = execLstep st src a c s := rfl
theorem exec_lread (st : Stall) (a : Reg) (c : Reg) (s : State) : exec (.lread st a c) s = execLread st a c s := rfl
theorem exec_lrung (st : Stall) (a : Reg) (b : Reg) (c : Reg) (s : State) : exec (.lrung st a b c) s = execLrung st a b c s := rfl
theorem exec_lclr (st : Stall) (c : Reg) (s : State) : exec (.lclr st c) s = execLclr st c s := rfl
theorem exec_copy (st : Stall) (a : Reg) (b : Reg) (c : Reg) (s : State) : exec (.copy st a b c) s = execCopy st a b c s := rfl
theorem exec_copyApnd (st : Stall) (a : Reg) (b : Reg) (c : Reg) (s : State) : exec (.copyApnd st a b c) s = execCopyApnd st a b c s := rfl
theorem exec_copyl (st : Stall) (a : Reg) (b : Reg) (c : Reg) (s : State) : exec (.copyl st a b c) s = execCopyl st a b c s := rfl
theorem exec_copyz (st : Stall) (a : Reg) (b : Reg) (c : Reg) (s : State) : exec (.copyz st a b c) s = execCopyz st a b c s := rfl
theorem exec_cbump (st : Stall) (a : Reg) (b : Reg) (c : Reg) (s : State) : exec (.cbump st a b c) s = execCbump st a b c s := rfl
theorem exec_lroot (st : Stall) (d : Reg) (a : Reg) (s : State) : exec (.lroot st d a) s = execLroot st d a s := rfl
theorem exec_fork (st : Stall) (d : Reg) (a : Reg) (b : Reg) (s : State) : exec (.fork st d a b) s = execFork st d a b s := rfl
theorem exec_flatten (st : Stall) (d : Reg) (a : Reg) (s : State) : exec (.flatten st d a) s = execFlatten st d a s := rfl
theorem exec_rebase (st : Stall) (d : Reg) (a : Reg) (b : Reg) (s : State) : exec (.rebase st d a b) s = execRebase st d a b s := rfl
theorem exec_ldrop (st : Stall) (a : Reg) (s : State) : exec (.ldrop st a) s = execLdrop st a s := rfl
theorem exec_linfo (st : Stall) (d : Reg) (a : Reg) (b : Reg) (s : State) : exec (.linfo st d a b) s = execLinfo st d a b s := rfl
theorem exec_ldl (st : Stall) (d : Reg) (a : Reg) (b : Reg) (s : State) : exec (.ldl st d a b) s = execLdl st d a b s := rfl
theorem exec_vclaim (st : Stall) (a : Reg) (s : State) : exec (.vclaim st a) s = execVclaim st a s := rfl
theorem exec_apnd (st : Stall) (d : Reg) (a : Reg) (b : Reg) (s : State) : exec (.apnd st d a b) s = execApnd st d a b s := rfl
theorem exec_tailset (st : Stall) (a : Reg) (b : Reg) (s : State) : exec (.tailset st a b) s = execTailset st a b s := rfl
theorem exec_seal (st : Stall) (a : Reg) (s : State) : exec (.seal st a) s = execSeal st a s := rfl
theorem exec_vfree (st : Stall) (a : Reg) (s : State) : exec (.vfree st a) s = execVfree st a s := rfl
theorem exec_vtail (st : Stall) (d : Reg) (a : Reg) (s : State) : exec (.vtail st d a) s = execVtail st d a s := rfl
theorem exec_fput (st : Stall) (a : Reg) (s : State) : exec (.fput st a) s = execFput st a s := rfl
theorem exec_fget (st : Stall) (a : Reg) (s : State) : exec (.fget st a) s = execFget st a s := rfl
theorem exec_fmcast (st : Stall) (a : Reg) (s : State) : exec (.fmcast st a) s = execFmcast st a s := rfl
theorem exec_fsync (st : Stall) (s : State) : exec (.fsync st) s = execFsync st s := rfl
theorem exec_fred (st : Stall) (op : ROp) (a : Reg) (b : Reg) (s : State) : exec (.fred st op a b) s = execFred st op a b s := rfl
theorem exec_crd (st : Stall) (cr : CReg) (d : Reg) (s : State) : exec (.crd st cr d) s = execCrd st cr d s := rfl
theorem exec_cwr (st : Stall) (cr : CReg) (a : Reg) (s : State) : exec (.cwr st cr a) s = execCwr st cr a s := rfl
theorem exec_cset (st : Stall) (cr : CReg) (a : Reg) (s : State) : exec (.cset st cr a) s = execCset st cr a s := rfl
theorem exec_cclr (st : Stall) (cr : CReg) (a : Reg) (s : State) : exec (.cclr st cr a) s = execCclr st cr a s := rfl
theorem exec_trap (st : Stall) (n : BitVec 6) (s : State) : exec (.trap st n) s = execTrap st n s := rfl
theorem exec_eret (st : Stall) (s : State) : exec (.eret st) s = execEret st s := rfl
theorem exec_ctxsv (st : Stall) (a : Reg) (s : State) : exec (.ctxsv st a) s = execCtxsv st a s := rfl
theorem exec_ctxld (st : Stall) (a : Reg) (s : State) : exec (.ctxld st a) s = execCtxld st a s := rfl
theorem exec_bxch (st : Stall) (s : State) : exec (.bxch st) s = execBxch st s := rfl
theorem exec_cresume (st : Stall) (s : State) : exec (.cresume st) s = execCresume st s := rfl
theorem exec_hostRegisterWrite (t : HostTarget) (size : Nat) (val : W64) (s : State) : exec (.hostRegisterWrite t size val) s = execHostRegisterWrite t size val s := rfl
theorem exec_qtailWrite (q : Nat) (v : W32) (s : State) : exec (.qtailWrite q v) s = execQtailWrite q v s := rfl
theorem exec_queueEnable (q : Nat) (en : Bool) (s : State) : exec (.queueEnable q en) s = execQueueEnable q en s := rfl
theorem exec_queueClear (q : Nat) (s : State) : exec (.queueClear q) s = execQueueClear q s := rfl
theorem exec_submitRecord (q : Nat) (s : State) : exec (.submitRecord q) s = execSubmitRecord q s := rfl
theorem exec_cancelRecord (q : Nat) (s : State) : exec (.cancelRecord q) s = execCancelRecord q s := rfl
theorem exec_markerRecord (q : Nat) (s : State) : exec (.markerRecord q) s = execMarkerRecord q s := rfl
theorem exec_recordSettle (id : Nat) (s : State) : exec (.recordSettle id) s = execRecordSettle id s := rfl
theorem exec_curatorBind (core : Nat) (slot : Nat) (start delay spill : W64) (s : State) : exec (.curatorBind core slot start delay spill) s = execCuratorBind core slot start delay spill s := rfl
theorem exec_dispatchBind (core : Nat) (slot : Nat) (s : State) : exec (.dispatchBind core slot) s = execDispatchBind core slot s := rfl
theorem exec_dispatchStart (core : Nat) (slot : Nat) (s : State) : exec (.dispatchStart core slot) s = execDispatchStart core slot s := rfl
theorem exec_dispatchSelect (core : Nat) (s : State) : exec (.dispatchSelect core) s = execDispatchSelect core s := rfl
theorem exec_preemptTake (core : Nat) (s : State) : exec (.preemptTake core) s = execPreemptTake core s := rfl
theorem exec_handlerEntry (core : Nat) (ctx : Nat) (ent : BitVec 3) (s : State) : exec (.handlerEntry core ctx ent) s = execHandlerEntry core ctx ent s := rfl
theorem exec_taskFailure (core : Nat) (s : State) : exec (.taskFailure core) s = execTaskFailure core s := rfl
theorem exec_impreciseFaultTaken (core : Nat) (ctx : Nat) (s : State) : exec (.impreciseFaultTaken core ctx) s = execImpreciseFaultTaken core ctx s := rfl
theorem exec_ageInterval (s : State) : exec (.ageInterval) s = execAgeInterval s := rfl
theorem exec_tick (s : State) : exec (.tick) s = execTick s := rfl
theorem exec_watchdogExpiry (core : Nat) (slot : Nat) (s : State) : exec (.watchdogExpiry core slot) s = execWatchdogExpiry core slot s := rfl
theorem exec_granuleCheckerVisit (core : Nat) (g : Nat) (s : State) : exec (.granuleCheckerVisit core g) s = execGranuleCheckerVisit core g s := rfl
theorem exec_cacheLineSweep (core : Nat) (asid : Asid) (line : Nat) (s : State) : exec (.cacheLineSweep core asid line) s = execCacheLineSweep core asid line s := rfl
theorem exec_cacheLineExpire (core : Nat) (asid : Asid) (line : Nat) (s : State) : exec (.cacheLineExpire core asid line) s = execCacheLineExpire core asid line s := rfl
theorem exec_fifoEntrySpill (core : Nat) (bank : Nat) (s : State) : exec (.fifoEntrySpill core bank) s = execFifoEntrySpill core bank s := rfl
theorem exec_leaseGrant (rope : Nat) (s : State) : exec (.leaseGrant rope) s = execLeaseGrant rope s := rfl
theorem exec_leaseRunEnd (rope : Nat) (granted : Nat) (s : State) : exec (.leaseRunEnd rope granted) s = execLeaseRunEnd rope granted s := rfl
theorem exec_engineCommandStart (core : Nat) (id : Nat) (s : State) : exec (.engineCommandStart core id) s = execEngineCommandStart core id s := rfl
theorem exec_retryResume (core : Nat) (ctx : Nat) (s : State) : exec (.retryResume core ctx) s = execRetryResume core ctx s := rfl
theorem exec_engineCommandComplete (core : Nat) (id : Nat) (s : State) : exec (.engineCommandComplete core id) s = execEngineCommandComplete core id s := rfl
theorem exec_copyComplete (core : Nat) (id : Nat) (s : State) : exec (.copyComplete core id) s = execCopyComplete core id s := rfl
theorem exec_boundedWaitExpiry (core : Nat) (ctx : Nat) (token : Nat) (s : State) : exec (.boundedWaitExpiry core ctx token) s = execBoundedWaitExpiry core ctx token s := rfl
theorem exec_wfeTimeout (core : Nat) (ctx : Nat) (token : Nat) (s : State) : exec (.wfeTimeout core ctx token) s = execWfeTimeout core ctx token s := rfl
theorem exec_loadAnswered (id : Nat) (s : State) : exec (.loadAnswered id) s = execLoadAnswered id s := rfl
theorem exec_storePerformed (id : Nat) (s : State) : exec (.storePerformed id) s = execStorePerformed id s := rfl
theorem exec_atomicPerformed (id : Nat) (s : State) : exec (.atomicPerformed id) s = execAtomicPerformed id s := rfl
theorem exec_predsDecrement (asid : Asid) (tcb : VA) (pa : Nat) (s : State) : exec (.predsDecrement asid tcb pa) s = execPredsDecrement asid tcb pa s := rfl
theorem exec_pageReclassify (asid : Asid) (va : VA) (s : State) : exec (.pageReclassify asid va) s = execPageReclassify asid va s := rfl
theorem exec_pageFaultAnswer (who : FaultWho) (pte : Nat) (w0 : W64) (w8 : W64) (s : State) : exec (.pageFaultAnswer who pte w0 w8) s = execPageFaultAnswer who pte w0 w8 s := rfl
theorem exec_pageFaultDenial (who : FaultWho) (s : State) : exec (.pageFaultDenial who) s = execPageFaultDenial who s := rfl
theorem exec_xlatInvalidatePage (func : Option (BitVec 6)) (s : State) : exec (.xlatInvalidatePage func) s = execXlatInvalidatePage func s := rfl
theorem exec_xlatInvalidateAll (func : Option (BitVec 6)) (s : State) : exec (.xlatInvalidateAll func) s = execXlatInvalidateAll func s := rfl
theorem exec_xlatInvalidateComplete (s : State) : exec (.xlatInvalidateComplete) s = execXlatInvalidateComplete s := rfl
theorem exec_migrationRequest (s : State) : exec (.migrationRequest) s = execMigrationRequest s := rfl
theorem exec_heatHalve (s : State) : exec (.heatHalve) s = execHeatHalve s := rfl
theorem exec_heatArrayWrite (die : Nat) (s : State) : exec (.heatArrayWrite die) s = execHeatArrayWrite die s := rfl
theorem exec_rlctlGo (s : State) : exec (.rlctlGo) s = execRlctlGo s := rfl
theorem exec_retirementListLoad (s : State) : exec (.retirementListLoad) s = execRetirementListLoad s := rfl
theorem exec_memoryEccError (pa : Nat) (uncorrectable : Bool) (s : State) : exec (.memoryEccError pa uncorrectable) s = execMemoryEccError pa uncorrectable s := rfl
theorem exec_uncorrectableError (site : EccSite) (s : State) : exec (.uncorrectableError site) s = execUncorrectableError site s := rfl
theorem exec_vitrineDataWritten (asid : Asid) (page : Nat) (claim : Nat) (s : State) : exec (.vitrineDataWritten asid page claim) s = execVitrineDataWritten asid page claim s := rfl
theorem exec_recallAck (asid : Asid) (page : Nat) (holder : Nat) (s : State) : exec (.recallAck asid page holder) s = execRecallAck asid page holder s := rfl
theorem exec_ropeNetStoreArrival (core : Nat) (ends : NetEnds) (bytes : List WByte) (s : State) : exec (.ropeNetStoreArrival core ends bytes) s = execRopeNetStoreArrival core ends bytes s := rfl
theorem exec_seqsetTagWrite (core : Nat) (task : Nat) (slot : Nat) (tag : BitVec 16) (s : State) : exec (.seqsetTagWrite core task slot tag) s = execSeqsetTagWrite core task slot tag s := rfl
theorem exec_queueEntryArrival (core : Nat) (task : Nat) (q : Nat) (val : W64) (s : State) : exec (.queueEntryArrival core task q val) s = execQueueEntryArrival core task q val s := rfl
theorem exec_messageDelivery (core : Nat) (taskid : W32) (asid : Asid) (val : W64) (fromCore : Nat) (fromCtx : Nat) (token : Nat) (s : State) : exec (.messageDelivery core taskid asid val fromCore fromCtx token) s = execMessageDelivery core taskid asid val fromCore fromCtx token s := rfl
theorem exec_eventSignalArrival (core : Nat) (asid : Asid) (s : State) : exec (.eventSignalArrival core asid) s = execEventSignalArrival core asid s := rfl
theorem exec_belayArrival (node : BKey) (expect : Nat) (child : Nat) (word : W64) (s : State) : exec (.belayArrival node expect child word) s = execBelayArrival node expect child word s := rfl
theorem exec_belayRelease (node : BKey) (s : State) : exec (.belayRelease node) s = execBelayRelease node s := rfl
theorem exec_fabricLanding (head : FlitHead) (off : Nat) (data : List Byte) (s : State) : exec (.fabricLanding head off data) s = execFabricLanding head off data s := rfl
theorem exec_fabricTransferComplete (id : Nat) (s : State) : exec (.fabricTransferComplete id) s = execFabricTransferComplete id s := rfl
theorem exec_reductionPartialArrival (key : RedKey) (seq : W32) (port : Nat) (op : ROp) (elems : Nat) (vals : List W32) (bad : Bool) (s : State) : exec (.reductionPartialArrival key seq port op elems vals bad) s = execReductionPartialArrival key seq port op elems vals bad s := rfl
theorem exec_reductionOutcomeArrival (key : RedKey) (seq : W32) (bad : Bool) (res : Option (List W32)) (s : State) : exec (.reductionOutcomeArrival key seq bad res) s = execReductionOutcomeArrival key seq bad res s := rfl
theorem exec_remoteAccessTimeout (id : Nat) (s : State) : exec (.remoteAccessTimeout id) s = execRemoteAccessTimeout id s := rfl
theorem exec_fabricLinkChange (port : Nat) (up : Bool) (pkg : BitVec 10) (s : State) : exec (.fabricLinkChange port up pkg) s = execFabricLinkChange port up pkg s := rfl
theorem exec_reclamationEntryWrite (asid : Asid) (kind : BitVec 2) (handle : BitVec 24) (range : DRange) (since : Nat) (s : State) : exec (.reclamationEntryWrite asid kind handle range since) s = execReclamationEntryWrite asid kind handle range since s := rfl
theorem exec_crtailWrite (v : W32) (s : State) : exec (.crtailWrite v) s = execCrtailWrite v s := rfl
theorem exec_thermalLevelStep (temp : Nat) (s : State) : exec (.thermalLevelStep temp) s = execThermalLevelStep temp s := rfl
theorem exec_coreOvertempHalt (core : Nat) (s : State) : exec (.coreOvertempHalt core) s = execCoreOvertempHalt core s := rfl
theorem exec_telemUpdate (watts : BitVec 12) (temp : BitVec 8) (s : State) : exec (.telemUpdate watts temp) s = execTelemUpdate watts temp s := rfl
theorem exec_fwGo (s : State) : exec (.fwGo) s = execFwGo s := rfl
theorem exec_fwVerifyComplete (edOk : Bool) (mlOk : Bool) (s : State) : exec (.fwVerifyComplete edOk mlOk) s = execFwVerifyComplete edOk mlOk s := rfl
theorem exec_attestGo (s : State) : exec (.attestGo) s = execAttestGo s := rfl
theorem exec_attestReportComplete (s : State) : exec (.attestReportComplete) s = execAttestReportComplete s := rfl
theorem exec_hostLinkTraining (cxl : Bool) (s : State) : exec (.hostLinkTraining cxl) s = execHostLinkTraining cxl s := rfl
theorem exec_packageReset (s : State) : exec (.packageReset) s = execPackageReset s := rfl
theorem exec_functionLevelReset (f : BitVec 6) (s : State) : exec (.functionLevelReset f) s = execFunctionLevelReset f s := rfl
theorem exec_flrComplete (f : BitVec 6) (s : State) : exec (.flrComplete f) s = execFlrComplete f s := rfl
theorem exec_bivouacSpill (core : Nat) (s : State) : exec (.bivouacSpill core) s = execBivouacSpill core s := rfl
theorem exec_spillLoadBack (core : Nat) (slot : Nat) (s : State) : exec (.spillLoadBack core slot) s = execSpillLoadBack core slot s := rfl
theorem exec_haltedFaultRecovery (core : Nat) (s : State) : exec (.haltedFaultRecovery core) s = execHaltedFaultRecovery core s := rfl
theorem exec_icinvComplete (core : Nat) (ctx : Nat) (s : State) : exec (.icinvComplete core ctx) s = execIcinvComplete core ctx s := rfl
theorem exec_flushWalkComplete (core : Nat) (ctx : Nat) (s : State) : exec (.flushWalkComplete core ctx) s = execFlushWalkComplete core ctx s := rfl
theorem exec_illegalInstruction (word : W32) (s : State) : exec (.illegalInstruction word) s = execIllegalInstruction word s := rfl
theorem exec_instructionFetch (core : Nat) (ctx : Nat) (s : State) : exec (.instructionFetch core ctx) s = execInstructionFetch core ctx s := rfl
theorem exec_curatorCancel (asid : Asid) (tcb : VA) (s : State) : exec (.curatorCancel asid tcb) s = execCuratorCancel asid tcb s := rfl

/-! ### Events -/

theorem runEv_hostRegisterWrite (t : HostTarget) (size : Nat) (val : W64) (s : State) : runEv (.hostRegisterWrite t size val) s = exec (.hostRegisterWrite t size val) s := rfl
theorem runEv_qtailWrite (q : Nat) (v : W32) (s : State) : runEv (.qtailWrite q v) s = exec (.qtailWrite q v) s := rfl
theorem runEv_queueEnable (q : Nat) (en : Bool) (s : State) : runEv (.queueEnable q en) s = exec (.queueEnable q en) s := rfl
theorem runEv_queueClear (q : Nat) (s : State) : runEv (.queueClear q) s = exec (.queueClear q) s := rfl
theorem runEv_submitRecord (q : Nat) (s : State) : runEv (.submitRecord q) s = exec (.submitRecord q) s := rfl
theorem runEv_cancelRecord (q : Nat) (s : State) : runEv (.cancelRecord q) s = exec (.cancelRecord q) s := rfl
theorem runEv_markerRecord (q : Nat) (s : State) : runEv (.markerRecord q) s = exec (.markerRecord q) s := rfl
theorem runEv_recordSettle (id : Nat) (s : State) : runEv (.recordSettle id) s = exec (.recordSettle id) s := rfl
theorem runEv_curatorBind (core : Nat) (slot : Nat) (start delay spill : W64) (s : State) : runEv (.curatorBind core slot start delay spill) s = exec (.curatorBind core slot start delay spill) s := rfl
theorem runEv_dispatchBind (core : Nat) (slot : Nat) (s : State) : runEv (.dispatchBind core slot) s = exec (.dispatchBind core slot) s := rfl
theorem runEv_dispatchStart (core : Nat) (slot : Nat) (s : State) : runEv (.dispatchStart core slot) s = exec (.dispatchStart core slot) s := rfl
theorem runEv_dispatchSelect (core : Nat) (s : State) : runEv (.dispatchSelect core) s = exec (.dispatchSelect core) s := rfl
theorem runEv_preemptTake (core : Nat) (s : State) : runEv (.preemptTake core) s = exec (.preemptTake core) s := rfl
theorem runEv_handlerEntry (core : Nat) (ctx : Nat) (ent : BitVec 3) (s : State) : runEv (.handlerEntry core ctx ent) s = exec (.handlerEntry core ctx ent) s := rfl
theorem runEv_taskFailure (core : Nat) (s : State) : runEv (.taskFailure core) s = exec (.taskFailure core) s := rfl
theorem runEv_impreciseFaultTaken (core : Nat) (ctx : Nat) (s : State) : runEv (.impreciseFaultTaken core ctx) s = exec (.impreciseFaultTaken core ctx) s := rfl
theorem runEv_ageInterval (s : State) : runEv (.ageInterval) s = exec (.ageInterval) s := rfl
theorem runEv_tick (s : State) : runEv (.tick) s = exec (.tick) s := rfl
theorem runEv_watchdogExpiry (core : Nat) (slot : Nat) (s : State) : runEv (.watchdogExpiry core slot) s = exec (.watchdogExpiry core slot) s := rfl
theorem runEv_granuleCheckerVisit (core : Nat) (g : Nat) (s : State) : runEv (.granuleCheckerVisit core g) s = exec (.granuleCheckerVisit core g) s := rfl
theorem runEv_cacheLineSweep (core : Nat) (asid : Asid) (line : Nat) (s : State) : runEv (.cacheLineSweep core asid line) s = exec (.cacheLineSweep core asid line) s := rfl
theorem runEv_cacheLineExpire (core : Nat) (asid : Asid) (line : Nat) (s : State) : runEv (.cacheLineExpire core asid line) s = exec (.cacheLineExpire core asid line) s := rfl
theorem runEv_fifoEntrySpill (core : Nat) (bank : Nat) (s : State) : runEv (.fifoEntrySpill core bank) s = exec (.fifoEntrySpill core bank) s := rfl
theorem runEv_leaseGrant (rope : Nat) (s : State) : runEv (.leaseGrant rope) s = exec (.leaseGrant rope) s := rfl
theorem runEv_leaseRunEnd (rope : Nat) (granted : Nat) (s : State) : runEv (.leaseRunEnd rope granted) s = exec (.leaseRunEnd rope granted) s := rfl
theorem runEv_engineCommandStart (core : Nat) (id : Nat) (s : State) : runEv (.engineCommandStart core id) s = exec (.engineCommandStart core id) s := rfl
theorem runEv_retryResume (core : Nat) (ctx : Nat) (s : State) : runEv (.retryResume core ctx) s = exec (.retryResume core ctx) s := rfl
theorem runEv_engineCommandComplete (core : Nat) (id : Nat) (s : State) : runEv (.engineCommandComplete core id) s = exec (.engineCommandComplete core id) s := rfl
theorem runEv_copyComplete (core : Nat) (id : Nat) (s : State) : runEv (.copyComplete core id) s = exec (.copyComplete core id) s := rfl
theorem runEv_boundedWaitExpiry (core : Nat) (ctx : Nat) (token : Nat) (s : State) : runEv (.boundedWaitExpiry core ctx token) s = exec (.boundedWaitExpiry core ctx token) s := rfl
theorem runEv_wfeTimeout (core : Nat) (ctx : Nat) (token : Nat) (s : State) : runEv (.wfeTimeout core ctx token) s = exec (.wfeTimeout core ctx token) s := rfl
theorem runEv_loadAnswered (id : Nat) (s : State) : runEv (.loadAnswered id) s = exec (.loadAnswered id) s := rfl
theorem runEv_storePerformed (id : Nat) (s : State) : runEv (.storePerformed id) s = exec (.storePerformed id) s := rfl
theorem runEv_atomicPerformed (id : Nat) (s : State) : runEv (.atomicPerformed id) s = exec (.atomicPerformed id) s := rfl
theorem runEv_predsDecrement (asid : Asid) (tcb : VA) (pa : Nat) (s : State) : runEv (.predsDecrement asid tcb pa) s = exec (.predsDecrement asid tcb pa) s := rfl
theorem runEv_pageReclassify (asid : Asid) (va : VA) (s : State) : runEv (.pageReclassify asid va) s = exec (.pageReclassify asid va) s := rfl
theorem runEv_pageFaultAnswer (who : FaultWho) (pte : Nat) (w0 : W64) (w8 : W64) (s : State) : runEv (.pageFaultAnswer who pte w0 w8) s = exec (.pageFaultAnswer who pte w0 w8) s := rfl
theorem runEv_pageFaultDenial (who : FaultWho) (s : State) : runEv (.pageFaultDenial who) s = exec (.pageFaultDenial who) s := rfl
theorem runEv_xlatInvalidatePage (func : Option (BitVec 6)) (s : State) : runEv (.xlatInvalidatePage func) s = exec (.xlatInvalidatePage func) s := rfl
theorem runEv_xlatInvalidateAll (func : Option (BitVec 6)) (s : State) : runEv (.xlatInvalidateAll func) s = exec (.xlatInvalidateAll func) s := rfl
theorem runEv_xlatInvalidateComplete (s : State) : runEv (.xlatInvalidateComplete) s = exec (.xlatInvalidateComplete) s := rfl
theorem runEv_migrationRequest (s : State) : runEv (.migrationRequest) s = exec (.migrationRequest) s := rfl
theorem runEv_heatHalve (s : State) : runEv (.heatHalve) s = exec (.heatHalve) s := rfl
theorem runEv_heatArrayWrite (die : Nat) (s : State) : runEv (.heatArrayWrite die) s = exec (.heatArrayWrite die) s := rfl
theorem runEv_rlctlGo (s : State) : runEv (.rlctlGo) s = exec (.rlctlGo) s := rfl
theorem runEv_retirementListLoad (s : State) : runEv (.retirementListLoad) s = exec (.retirementListLoad) s := rfl
theorem runEv_memoryEccError (pa : Nat) (uncorrectable : Bool) (s : State) : runEv (.memoryEccError pa uncorrectable) s = exec (.memoryEccError pa uncorrectable) s := rfl
theorem runEv_uncorrectableError (site : EccSite) (s : State) : runEv (.uncorrectableError site) s = exec (.uncorrectableError site) s := rfl
theorem runEv_vitrineDataWritten (asid : Asid) (page : Nat) (claim : Nat) (s : State) : runEv (.vitrineDataWritten asid page claim) s = exec (.vitrineDataWritten asid page claim) s := rfl
theorem runEv_recallAck (asid : Asid) (page : Nat) (holder : Nat) (s : State) : runEv (.recallAck asid page holder) s = exec (.recallAck asid page holder) s := rfl
theorem runEv_ropeNetStoreArrival (core : Nat) (ends : NetEnds) (bytes : List WByte) (s : State) : runEv (.ropeNetStoreArrival core ends bytes) s = exec (.ropeNetStoreArrival core ends bytes) s := rfl
theorem runEv_seqsetTagWrite (core : Nat) (task : Nat) (slot : Nat) (tag : BitVec 16) (s : State) : runEv (.seqsetTagWrite core task slot tag) s = exec (.seqsetTagWrite core task slot tag) s := rfl
theorem runEv_queueEntryArrival (core : Nat) (task : Nat) (q : Nat) (val : W64) (s : State) : runEv (.queueEntryArrival core task q val) s = exec (.queueEntryArrival core task q val) s := rfl
theorem runEv_messageDelivery (core : Nat) (taskid : W32) (asid : Asid) (val : W64) (fromCore : Nat) (fromCtx : Nat) (token : Nat) (s : State) : runEv (.messageDelivery core taskid asid val fromCore fromCtx token) s = exec (.messageDelivery core taskid asid val fromCore fromCtx token) s := rfl
theorem runEv_eventSignalArrival (core : Nat) (asid : Asid) (s : State) : runEv (.eventSignalArrival core asid) s = exec (.eventSignalArrival core asid) s := rfl
theorem runEv_belayArrival (node : BKey) (expect : Nat) (child : Nat) (word : W64) (s : State) : runEv (.belayArrival node expect child word) s = exec (.belayArrival node expect child word) s := rfl
theorem runEv_belayRelease (node : BKey) (s : State) : runEv (.belayRelease node) s = exec (.belayRelease node) s := rfl
theorem runEv_fabricLanding (head : FlitHead) (off : Nat) (data : List Byte) (s : State) : runEv (.fabricLanding head off data) s = exec (.fabricLanding head off data) s := rfl
theorem runEv_fabricTransferComplete (id : Nat) (s : State) : runEv (.fabricTransferComplete id) s = exec (.fabricTransferComplete id) s := rfl
theorem runEv_reductionPartialArrival (key : RedKey) (seq : W32) (port : Nat) (op : ROp) (elems : Nat) (vals : List W32) (bad : Bool) (s : State) : runEv (.reductionPartialArrival key seq port op elems vals bad) s = exec (.reductionPartialArrival key seq port op elems vals bad) s := rfl
theorem runEv_reductionOutcomeArrival (key : RedKey) (seq : W32) (bad : Bool) (res : Option (List W32)) (s : State) : runEv (.reductionOutcomeArrival key seq bad res) s = exec (.reductionOutcomeArrival key seq bad res) s := rfl
theorem runEv_remoteAccessTimeout (id : Nat) (s : State) : runEv (.remoteAccessTimeout id) s = exec (.remoteAccessTimeout id) s := rfl
theorem runEv_fabricLinkChange (port : Nat) (up : Bool) (pkg : BitVec 10) (s : State) : runEv (.fabricLinkChange port up pkg) s = exec (.fabricLinkChange port up pkg) s := rfl
theorem runEv_reclamationEntryWrite (asid : Asid) (kind : BitVec 2) (handle : BitVec 24) (range : DRange) (since : Nat) (s : State) : runEv (.reclamationEntryWrite asid kind handle range since) s = exec (.reclamationEntryWrite asid kind handle range since) s := rfl
theorem runEv_crtailWrite (v : W32) (s : State) : runEv (.crtailWrite v) s = exec (.crtailWrite v) s := rfl
theorem runEv_thermalLevelStep (temp : Nat) (s : State) : runEv (.thermalLevelStep temp) s = exec (.thermalLevelStep temp) s := rfl
theorem runEv_coreOvertempHalt (core : Nat) (s : State) : runEv (.coreOvertempHalt core) s = exec (.coreOvertempHalt core) s := rfl
theorem runEv_telemUpdate (watts : BitVec 12) (temp : BitVec 8) (s : State) : runEv (.telemUpdate watts temp) s = exec (.telemUpdate watts temp) s := rfl
theorem runEv_fwGo (s : State) : runEv (.fwGo) s = exec (.fwGo) s := rfl
theorem runEv_fwVerifyComplete (edOk : Bool) (mlOk : Bool) (s : State) : runEv (.fwVerifyComplete edOk mlOk) s = exec (.fwVerifyComplete edOk mlOk) s := rfl
theorem runEv_attestGo (s : State) : runEv (.attestGo) s = exec (.attestGo) s := rfl
theorem runEv_attestReportComplete (s : State) : runEv (.attestReportComplete) s = exec (.attestReportComplete) s := rfl
theorem runEv_hostLinkTraining (cxl : Bool) (s : State) : runEv (.hostLinkTraining cxl) s = exec (.hostLinkTraining cxl) s := rfl
theorem runEv_packageReset (s : State) : runEv (.packageReset) s = exec (.packageReset) s := rfl
theorem runEv_functionLevelReset (f : BitVec 6) (s : State) : runEv (.functionLevelReset f) s = exec (.functionLevelReset f) s := rfl
theorem runEv_flrComplete (f : BitVec 6) (s : State) : runEv (.flrComplete f) s = exec (.flrComplete f) s := rfl
theorem runEv_bivouacSpill (core : Nat) (s : State) : runEv (.bivouacSpill core) s = exec (.bivouacSpill core) s := rfl
theorem runEv_spillLoadBack (core : Nat) (slot : Nat) (s : State) : runEv (.spillLoadBack core slot) s = exec (.spillLoadBack core slot) s := rfl
theorem runEv_haltedFaultRecovery (core : Nat) (s : State) : runEv (.haltedFaultRecovery core) s = exec (.haltedFaultRecovery core) s := rfl
theorem runEv_icinvComplete (core : Nat) (ctx : Nat) (s : State) : runEv (.icinvComplete core ctx) s = exec (.icinvComplete core ctx) s := rfl
theorem runEv_flushWalkComplete (core : Nat) (ctx : Nat) (s : State) : runEv (.flushWalkComplete core ctx) s = exec (.flushWalkComplete core ctx) s := rfl
theorem runEv_illegalInstruction (word : W32) (s : State) : runEv (.illegalInstruction word) s = exec (.illegalInstruction word) s := rfl
theorem runEv_instructionFetch (core : Nat) (ctx : Nat) (s : State) : runEv (.instructionFetch core ctx) s = exec (.instructionFetch core ctx) s := rfl
theorem runEv_curatorCancel (asid : Asid) (tcb : VA) (s : State) : runEv (.curatorCancel asid tcb) s = exec (.curatorCancel asid tcb) s := rfl

end Sys2Proof.Machine
end

