-- ==== Sys2Proof/Laws/State.lean ====
section
/-! SUPPORT. Small lemmas of the state: tables, the field of each update of a core, a context, an event list. One lemma
per field and update, true by `rfl`. -/

namespace Sys2Proof.Machine

set_option Elab.async false

/-! ### Tables -/

@[simp] theorem Table.find_put_self {α : Type} (k : Nat) (v : α) (t : Table α) : Table.find? k (Table.put k v t) = some v := by
  induction t with
  | nil => simp [Table.put, Table.find?]
  | cons e t ih =>
    obtain ⟨j, x⟩ := e
    simp only [Table.put]
    split
    · simp [Table.find?]
    · split
      · simp [Table.find?]
      · rename_i h; simp [Table.find?, Ne.symm h, ih]

@[simp] theorem Table.find_put_other {α : Type} {j k : Nat} (h : j ≠ k) (v : α) (t : Table α) :
    Table.find? j (Table.put k v t) = Table.find? j t := by
  induction t with
  | nil => simp [Table.put, Table.find?, Ne.symm h]
  | cons e t ih =>
    obtain ⟨i, x⟩ := e
    simp only [Table.put]
    split
    · simp [Table.find?, Ne.symm h]
    · split
      · rename_i h2; subst h2; simp [Table.find?, Ne.symm h]
      · simp [Table.find?, ih]

@[simp] theorem Table.put_put {α : Type} (k : Nat) (v w : α) (t : Table α) : Table.put k w (Table.put k v t) = Table.put k w t := by
  induction t with
  | nil => simp [Table.put]
  | cons e t ih =>
    obtain ⟨j, x⟩ := e
    simp only [Table.put]
    split
    · simp [Table.put]
    · split
      · simp [Table.put]
      · rename_i h1 h2; simp [Table.put, h1, h2, ih]

/-! ### Cores and contexts -/

@[simp] theorem State.core_setCore (s : State) (n : Nat) (c : Core) : (s.setCore n c).core n = c := by
  simp [State.core, State.setCore]
@[simp] theorem State.core_setCore_other (s : State) {m n : Nat} (h : m ≠ n) (c : Core) : (s.setCore n c).core m = s.core m := by
  simp [State.core, State.setCore, h]
@[simp] theorem Core.ctx_setCtx (c : Core) (k : Nat) (x : Ctx) : (c.setCtx k x).ctx k = x := by simp [Core.ctx, Core.setCtx]
@[simp] theorem Core.ctx_setCtx_other (c : Core) {j k : Nat} (h : j ≠ k) (x : Ctx) : (c.setCtx k x).ctx j = c.ctx j := by
  simp [Core.ctx, Core.setCtx, h]
@[simp] theorem State.ctx_setCtx (s : State) (n k : Nat) (x : Ctx) : (s.setCtx n k x).ctx n k = x := by
  simp [State.ctx, State.setCtx]
@[simp] theorem State.onMe_me (s : State) (f : Ctx → Ctx) : (s.onMe f).me = f s.me := by
  simp [State.onMe, State.onCtx, State.me, State.setCtx, State.ctx, State.setCore, State.core]
@[simp] theorem State.onMyCore_myCore (s : State) (f : Core → Core) : (s.onMyCore f).myCore = f s.myCore := by
  simp [State.onMyCore, State.onCore, State.myCore, State.setCore, State.core]
@[simp] theorem State.onCore_core (s : State) (n : Nat) (f : Core → Core) : (s.onCore n f).core n = f (s.core n) := by
  simp [State.onCore]
@[simp] theorem State.onCore_core_other (s : State) {m n : Nat} (h : m ≠ n) (f : Core → Core) : (s.onCore n f).core m = s.core m := by
  simp [State.onCore, h]
@[simp] theorem State.onCtx_ctx (s : State) (n k : Nat) (f : Ctx → Ctx) : (s.onCtx n k f).ctx n k = f (s.ctx n k) := by
  simp [State.onCtx]
@[simp] theorem State.onMe_onMe (s : State) (f g : Ctx → Ctx) : (s.onMe f).onMe g = s.onMe fun c => g (f c) := by
  simp [State.onMe, State.onCtx, State.setCtx, State.ctx, State.setCore, State.core, Core.ctx, Core.setCtx]

/-! ### What an update of one core leaves of the state -/

@[simp] theorem State.setCore_now (s : State) (n : Nat) (c : Core) : (s.setCore n c).now = s.now := rfl
@[simp] theorem State.setCore_tick (s : State) (n : Nat) (c : Core) : (s.setCore n c).tick = s.tick := rfl
@[simp] theorem State.setCore_ropes (s : State) (n : Nat) (c : Core) : (s.setCore n c).ropes = s.ropes := rfl
@[simp] theorem State.setCore_mem (s : State) (n : Nat) (c : Core) : (s.setCore n c).mem = s.mem := rfl
@[simp] theorem State.setCore_locs (s : State) (n : Nat) (c : Core) : (s.setCore n c).locs = s.locs := rfl
@[simp] theorem State.setCore_flights (s : State) (n : Nat) (c : Core) : (s.setCore n c).flights = s.flights := rfl
@[simp] theorem State.setCore_pubs (s : State) (n : Nat) (c : Core) : (s.setCore n c).pubs = s.pubs := rfl
@[simp] theorem State.setCore_tlb (s : State) (n : Nat) (c : Core) : (s.setCore n c).tlb = s.tlb := rfl
@[simp] theorem State.setCore_dropAt (s : State) (n : Nat) (c : Core) : (s.setCore n c).dropAt = s.dropAt := rfl
@[simp] theorem State.setCore_poison (s : State) (n : Nat) (c : Core) : (s.setCore n c).poison = s.poison := rfl
@[simp] theorem State.setCore_retired (s : State) (n : Nat) (c : Core) : (s.setCore n c).retired = s.retired := rfl
@[simp] theorem State.setCore_ecc (s : State) (n : Nat) (c : Core) : (s.setCore n c).ecc = s.ecc := rfl
@[simp] theorem State.setCore_vit (s : State) (n : Nat) (c : Core) : (s.setCore n c).vit = s.vit := rfl
@[simp] theorem State.setCore_belays (s : State) (n : Nat) (c : Core) : (s.setCore n c).belays = s.belays := rfl
@[simp] theorem State.setCore_provOld (s : State) (n : Nat) (c : Core) : (s.setCore n c).provOld = s.provOld := rfl
@[simp] theorem State.setCore_cmds (s : State) (n : Nat) (c : Core) : (s.setCore n c).cmds = s.cmds := rfl
@[simp] theorem State.setCore_xfers (s : State) (n : Nat) (c : Core) : (s.setCore n c).xfers = s.xfers := rfl
@[simp] theorem State.setCore_rounds (s : State) (n : Nat) (c : Core) : (s.setCore n c).rounds = s.rounds := rfl
@[simp] theorem State.setCore_fabricOut (s : State) (n : Nat) (c : Core) : (s.setCore n c).fabricOut = s.fabricOut := rfl
@[simp] theorem State.setCore_decs (s : State) (n : Nat) (c : Core) : (s.setCore n c).decs = s.decs := rfl
@[simp] theorem State.setCore_queues (s : State) (n : Nat) (c : Core) : (s.setCore n c).queues = s.queues := rfl
@[simp] theorem State.setCore_funcs (s : State) (n : Nat) (c : Core) : (s.setCore n c).funcs = s.funcs := rfl
@[simp] theorem State.setCore_served (s : State) (n : Nat) (c : Core) : (s.setCore n c).served = s.served := rfl
@[simp] theorem State.setCore_recs (s : State) (n : Nat) (c : Core) : (s.setCore n c).recs = s.recs := rfl
@[simp] theorem State.setCore_regs (s : State) (n : Nat) (c : Core) : (s.setCore n c).regs = s.regs := rfl
@[simp] theorem State.setCore_heat (s : State) (n : Nat) (c : Core) : (s.setCore n c).heat = s.heat := rfl
@[simp] theorem State.setCore_msix (s : State) (n : Nat) (c : Core) : (s.setCore n c).msix = s.msix := rfl
@[simp] theorem State.setCore_flr (s : State) (n : Nat) (c : Core) : (s.setCore n c).flr = s.flr := rfl
@[simp] theorem State.setCore_flrWrites (s : State) (n : Nat) (c : Core) : (s.setCore n c).flrWrites = s.flrWrites := rfl
@[simp] theorem State.setCore_thermal (s : State) (n : Nat) (c : Core) : (s.setCore n c).thermal = s.thermal := rfl
@[simp] theorem State.setCore_linkCxl (s : State) (n : Nat) (c : Core) : (s.setCore n c).linkCxl = s.linkCxl := rfl
@[simp] theorem State.setCore_binds (s : State) (n : Nat) (c : Core) : (s.setCore n c).binds = s.binds := rfl
@[simp] theorem State.setCore_next (s : State) (n : Nat) (c : Core) : (s.setCore n c).next = s.next := rfl
@[simp] theorem State.setCore_fresh (s : State) (n : Nat) (c : Core) : (s.setCore n c).fresh = s.fresh := rfl
@[simp] theorem State.setCore_act (s : State) (n : Nat) (c : Core) : (s.setCore n c).act = s.act := rfl
@[simp] theorem State.setCore_queue (s : State) (n : Nat) (c : Core) : (s.setCore n c).queue = s.queue := rfl
@[simp] theorem State.setCore_lat (s : State) (n : Nat) (c : Core) : (s.setCore n c).lat = s.lat := rfl

@[simp] theorem State.onCore_now (s : State) (n : Nat) (f : Core → Core) : (s.onCore n f).now = s.now := rfl
@[simp] theorem State.onCore_tick (s : State) (n : Nat) (f : Core → Core) : (s.onCore n f).tick = s.tick := rfl
@[simp] theorem State.onCore_ropes (s : State) (n : Nat) (f : Core → Core) : (s.onCore n f).ropes = s.ropes := rfl
@[simp] theorem State.onCore_mem (s : State) (n : Nat) (f : Core → Core) : (s.onCore n f).mem = s.mem := rfl
@[simp] theorem State.onCore_locs (s : State) (n : Nat) (f : Core → Core) : (s.onCore n f).locs = s.locs := rfl
@[simp] theorem State.onCore_flights (s : State) (n : Nat) (f : Core → Core) : (s.onCore n f).flights = s.flights := rfl
@[simp] theorem State.onCore_pubs (s : State) (n : Nat) (f : Core → Core) : (s.onCore n f).pubs = s.pubs := rfl
@[simp] theorem State.onCore_tlb (s : State) (n : Nat) (f : Core → Core) : (s.onCore n f).tlb = s.tlb := rfl
@[simp] theorem State.onCore_dropAt (s : State) (n : Nat) (f : Core → Core) : (s.onCore n f).dropAt = s.dropAt := rfl
@[simp] theorem State.onCore_poison (s : State) (n : Nat) (f : Core → Core) : (s.onCore n f).poison = s.poison := rfl
@[simp] theorem State.onCore_retired (s : State) (n : Nat) (f : Core → Core) : (s.onCore n f).retired = s.retired := rfl
@[simp] theorem State.onCore_ecc (s : State) (n : Nat) (f : Core → Core) : (s.onCore n f).ecc = s.ecc := rfl
@[simp] theorem State.onCore_vit (s : State) (n : Nat) (f : Core → Core) : (s.onCore n f).vit = s.vit := rfl
@[simp] theorem State.onCore_belays (s : State) (n : Nat) (f : Core → Core) : (s.onCore n f).belays = s.belays := rfl
@[simp] theorem State.onCore_provOld (s : State) (n : Nat) (f : Core → Core) : (s.onCore n f).provOld = s.provOld := rfl
@[simp] theorem State.onCore_cmds (s : State) (n : Nat) (f : Core → Core) : (s.onCore n f).cmds = s.cmds := rfl
@[simp] theorem State.onCore_xfers (s : State) (n : Nat) (f : Core → Core) : (s.onCore n f).xfers = s.xfers := rfl
@[simp] theorem State.onCore_rounds (s : State) (n : Nat) (f : Core → Core) : (s.onCore n f).rounds = s.rounds := rfl
@[simp] theorem State.onCore_fabricOut (s : State) (n : Nat) (f : Core → Core) : (s.onCore n f).fabricOut = s.fabricOut := rfl
@[simp] theorem State.onCore_decs (s : State) (n : Nat) (f : Core → Core) : (s.onCore n f).decs = s.decs := rfl
@[simp] theorem State.onCore_queues (s : State) (n : Nat) (f : Core → Core) : (s.onCore n f).queues = s.queues := rfl
@[simp] theorem State.onCore_funcs (s : State) (n : Nat) (f : Core → Core) : (s.onCore n f).funcs = s.funcs := rfl
@[simp] theorem State.onCore_served (s : State) (n : Nat) (f : Core → Core) : (s.onCore n f).served = s.served := rfl
@[simp] theorem State.onCore_recs (s : State) (n : Nat) (f : Core → Core) : (s.onCore n f).recs = s.recs := rfl
@[simp] theorem State.onCore_regs (s : State) (n : Nat) (f : Core → Core) : (s.onCore n f).regs = s.regs := rfl
@[simp] theorem State.onCore_heat (s : State) (n : Nat) (f : Core → Core) : (s.onCore n f).heat = s.heat := rfl
@[simp] theorem State.onCore_msix (s : State) (n : Nat) (f : Core → Core) : (s.onCore n f).msix = s.msix := rfl
@[simp] theorem State.onCore_flr (s : State) (n : Nat) (f : Core → Core) : (s.onCore n f).flr = s.flr := rfl
@[simp] theorem State.onCore_flrWrites (s : State) (n : Nat) (f : Core → Core) : (s.onCore n f).flrWrites = s.flrWrites := rfl
@[simp] theorem State.onCore_thermal (s : State) (n : Nat) (f : Core → Core) : (s.onCore n f).thermal = s.thermal := rfl
@[simp] theorem State.onCore_linkCxl (s : State) (n : Nat) (f : Core → Core) : (s.onCore n f).linkCxl = s.linkCxl := rfl
@[simp] theorem State.onCore_binds (s : State) (n : Nat) (f : Core → Core) : (s.onCore n f).binds = s.binds := rfl
@[simp] theorem State.onCore_next (s : State) (n : Nat) (f : Core → Core) : (s.onCore n f).next = s.next := rfl
@[simp] theorem State.onCore_fresh (s : State) (n : Nat) (f : Core → Core) : (s.onCore n f).fresh = s.fresh := rfl
@[simp] theorem State.onCore_act (s : State) (n : Nat) (f : Core → Core) : (s.onCore n f).act = s.act := rfl
@[simp] theorem State.onCore_queue (s : State) (n : Nat) (f : Core → Core) : (s.onCore n f).queue = s.queue := rfl
@[simp] theorem State.onCore_lat (s : State) (n : Nat) (f : Core → Core) : (s.onCore n f).lat = s.lat := rfl

@[simp] theorem State.onMyCore_now (s : State) (f : Core → Core) : (s.onMyCore f).now = s.now := rfl
@[simp] theorem State.onMyCore_tick (s : State) (f : Core → Core) : (s.onMyCore f).tick = s.tick := rfl
@[simp] theorem State.onMyCore_ropes (s : State) (f : Core → Core) : (s.onMyCore f).ropes = s.ropes := rfl
@[simp] theorem State.onMyCore_mem (s : State) (f : Core → Core) : (s.onMyCore f).mem = s.mem := rfl
@[simp] theorem State.onMyCore_locs (s : State) (f : Core → Core) : (s.onMyCore f).locs = s.locs := rfl
@[simp] theorem State.onMyCore_flights (s : State) (f : Core → Core) : (s.onMyCore f).flights = s.flights := rfl
@[simp] theorem State.onMyCore_pubs (s : State) (f : Core → Core) : (s.onMyCore f).pubs = s.pubs := rfl
@[simp] theorem State.onMyCore_tlb (s : State) (f : Core → Core) : (s.onMyCore f).tlb = s.tlb := rfl
@[simp] theorem State.onMyCore_dropAt (s : State) (f : Core → Core) : (s.onMyCore f).dropAt = s.dropAt := rfl
@[simp] theorem State.onMyCore_poison (s : State) (f : Core → Core) : (s.onMyCore f).poison = s.poison := rfl
@[simp] theorem State.onMyCore_retired (s : State) (f : Core → Core) : (s.onMyCore f).retired = s.retired := rfl
@[simp] theorem State.onMyCore_ecc (s : State) (f : Core → Core) : (s.onMyCore f).ecc = s.ecc := rfl
@[simp] theorem State.onMyCore_vit (s : State) (f : Core → Core) : (s.onMyCore f).vit = s.vit := rfl
@[simp] theorem State.onMyCore_belays (s : State) (f : Core → Core) : (s.onMyCore f).belays = s.belays := rfl
@[simp] theorem State.onMyCore_provOld (s : State) (f : Core → Core) : (s.onMyCore f).provOld = s.provOld := rfl
@[simp] theorem State.onMyCore_cmds (s : State) (f : Core → Core) : (s.onMyCore f).cmds = s.cmds := rfl
@[simp] theorem State.onMyCore_xfers (s : State) (f : Core → Core) : (s.onMyCore f).xfers = s.xfers := rfl
@[simp] theorem State.onMyCore_rounds (s : State) (f : Core → Core) : (s.onMyCore f).rounds = s.rounds := rfl
@[simp] theorem State.onMyCore_fabricOut (s : State) (f : Core → Core) : (s.onMyCore f).fabricOut = s.fabricOut := rfl
@[simp] theorem State.onMyCore_decs (s : State) (f : Core → Core) : (s.onMyCore f).decs = s.decs := rfl
@[simp] theorem State.onMyCore_queues (s : State) (f : Core → Core) : (s.onMyCore f).queues = s.queues := rfl
@[simp] theorem State.onMyCore_funcs (s : State) (f : Core → Core) : (s.onMyCore f).funcs = s.funcs := rfl
@[simp] theorem State.onMyCore_served (s : State) (f : Core → Core) : (s.onMyCore f).served = s.served := rfl
@[simp] theorem State.onMyCore_recs (s : State) (f : Core → Core) : (s.onMyCore f).recs = s.recs := rfl
@[simp] theorem State.onMyCore_regs (s : State) (f : Core → Core) : (s.onMyCore f).regs = s.regs := rfl
@[simp] theorem State.onMyCore_heat (s : State) (f : Core → Core) : (s.onMyCore f).heat = s.heat := rfl
@[simp] theorem State.onMyCore_msix (s : State) (f : Core → Core) : (s.onMyCore f).msix = s.msix := rfl
@[simp] theorem State.onMyCore_flr (s : State) (f : Core → Core) : (s.onMyCore f).flr = s.flr := rfl
@[simp] theorem State.onMyCore_flrWrites (s : State) (f : Core → Core) : (s.onMyCore f).flrWrites = s.flrWrites := rfl
@[simp] theorem State.onMyCore_thermal (s : State) (f : Core → Core) : (s.onMyCore f).thermal = s.thermal := rfl
@[simp] theorem State.onMyCore_linkCxl (s : State) (f : Core → Core) : (s.onMyCore f).linkCxl = s.linkCxl := rfl
@[simp] theorem State.onMyCore_binds (s : State) (f : Core → Core) : (s.onMyCore f).binds = s.binds := rfl
@[simp] theorem State.onMyCore_next (s : State) (f : Core → Core) : (s.onMyCore f).next = s.next := rfl
@[simp] theorem State.onMyCore_fresh (s : State) (f : Core → Core) : (s.onMyCore f).fresh = s.fresh := rfl
@[simp] theorem State.onMyCore_act (s : State) (f : Core → Core) : (s.onMyCore f).act = s.act := rfl
@[simp] theorem State.onMyCore_queue (s : State) (f : Core → Core) : (s.onMyCore f).queue = s.queue := rfl
@[simp] theorem State.onMyCore_lat (s : State) (f : Core → Core) : (s.onMyCore f).lat = s.lat := rfl

@[simp] theorem State.onMe_now (s : State) (f : Ctx → Ctx) : (s.onMe f).now = s.now := rfl
@[simp] theorem State.onMe_tick (s : State) (f : Ctx → Ctx) : (s.onMe f).tick = s.tick := rfl
@[simp] theorem State.onMe_ropes (s : State) (f : Ctx → Ctx) : (s.onMe f).ropes = s.ropes := rfl
@[simp] theorem State.onMe_mem (s : State) (f : Ctx → Ctx) : (s.onMe f).mem = s.mem := rfl
@[simp] theorem State.onMe_locs (s : State) (f : Ctx → Ctx) : (s.onMe f).locs = s.locs := rfl
@[simp] theorem State.onMe_flights (s : State) (f : Ctx → Ctx) : (s.onMe f).flights = s.flights := rfl
@[simp] theorem State.onMe_pubs (s : State) (f : Ctx → Ctx) : (s.onMe f).pubs = s.pubs := rfl
@[simp] theorem State.onMe_tlb (s : State) (f : Ctx → Ctx) : (s.onMe f).tlb = s.tlb := rfl
@[simp] theorem State.onMe_dropAt (s : State) (f : Ctx → Ctx) : (s.onMe f).dropAt = s.dropAt := rfl
@[simp] theorem State.onMe_poison (s : State) (f : Ctx → Ctx) : (s.onMe f).poison = s.poison := rfl
@[simp] theorem State.onMe_retired (s : State) (f : Ctx → Ctx) : (s.onMe f).retired = s.retired := rfl
@[simp] theorem State.onMe_ecc (s : State) (f : Ctx → Ctx) : (s.onMe f).ecc = s.ecc := rfl
@[simp] theorem State.onMe_vit (s : State) (f : Ctx → Ctx) : (s.onMe f).vit = s.vit := rfl
@[simp] theorem State.onMe_belays (s : State) (f : Ctx → Ctx) : (s.onMe f).belays = s.belays := rfl
@[simp] theorem State.onMe_provOld (s : State) (f : Ctx → Ctx) : (s.onMe f).provOld = s.provOld := rfl
@[simp] theorem State.onMe_cmds (s : State) (f : Ctx → Ctx) : (s.onMe f).cmds = s.cmds := rfl
@[simp] theorem State.onMe_xfers (s : State) (f : Ctx → Ctx) : (s.onMe f).xfers = s.xfers := rfl
@[simp] theorem State.onMe_rounds (s : State) (f : Ctx → Ctx) : (s.onMe f).rounds = s.rounds := rfl
@[simp] theorem State.onMe_fabricOut (s : State) (f : Ctx → Ctx) : (s.onMe f).fabricOut = s.fabricOut := rfl
@[simp] theorem State.onMe_decs (s : State) (f : Ctx → Ctx) : (s.onMe f).decs = s.decs := rfl
@[simp] theorem State.onMe_queues (s : State) (f : Ctx → Ctx) : (s.onMe f).queues = s.queues := rfl
@[simp] theorem State.onMe_funcs (s : State) (f : Ctx → Ctx) : (s.onMe f).funcs = s.funcs := rfl
@[simp] theorem State.onMe_served (s : State) (f : Ctx → Ctx) : (s.onMe f).served = s.served := rfl
@[simp] theorem State.onMe_recs (s : State) (f : Ctx → Ctx) : (s.onMe f).recs = s.recs := rfl
@[simp] theorem State.onMe_regs (s : State) (f : Ctx → Ctx) : (s.onMe f).regs = s.regs := rfl
@[simp] theorem State.onMe_heat (s : State) (f : Ctx → Ctx) : (s.onMe f).heat = s.heat := rfl
@[simp] theorem State.onMe_msix (s : State) (f : Ctx → Ctx) : (s.onMe f).msix = s.msix := rfl
@[simp] theorem State.onMe_flr (s : State) (f : Ctx → Ctx) : (s.onMe f).flr = s.flr := rfl
@[simp] theorem State.onMe_flrWrites (s : State) (f : Ctx → Ctx) : (s.onMe f).flrWrites = s.flrWrites := rfl
@[simp] theorem State.onMe_thermal (s : State) (f : Ctx → Ctx) : (s.onMe f).thermal = s.thermal := rfl
@[simp] theorem State.onMe_linkCxl (s : State) (f : Ctx → Ctx) : (s.onMe f).linkCxl = s.linkCxl := rfl
@[simp] theorem State.onMe_binds (s : State) (f : Ctx → Ctx) : (s.onMe f).binds = s.binds := rfl
@[simp] theorem State.onMe_next (s : State) (f : Ctx → Ctx) : (s.onMe f).next = s.next := rfl
@[simp] theorem State.onMe_fresh (s : State) (f : Ctx → Ctx) : (s.onMe f).fresh = s.fresh := rfl
@[simp] theorem State.onMe_act (s : State) (f : Ctx → Ctx) : (s.onMe f).act = s.act := rfl
@[simp] theorem State.onMe_queue (s : State) (f : Ctx → Ctx) : (s.onMe f).queue = s.queue := rfl
@[simp] theorem State.onMe_lat (s : State) (f : Ctx → Ctx) : (s.onMe f).lat = s.lat := rfl

@[simp] theorem State.setCtx_now (s : State) (n k : Nat) (x : Ctx) : (s.setCtx n k x).now = s.now := rfl
@[simp] theorem State.setCtx_tick (s : State) (n k : Nat) (x : Ctx) : (s.setCtx n k x).tick = s.tick := rfl
@[simp] theorem State.setCtx_ropes (s : State) (n k : Nat) (x : Ctx) : (s.setCtx n k x).ropes = s.ropes := rfl
@[simp] theorem State.setCtx_mem (s : State) (n k : Nat) (x : Ctx) : (s.setCtx n k x).mem = s.mem := rfl
@[simp] theorem State.setCtx_locs (s : State) (n k : Nat) (x : Ctx) : (s.setCtx n k x).locs = s.locs := rfl
@[simp] theorem State.setCtx_flights (s : State) (n k : Nat) (x : Ctx) : (s.setCtx n k x).flights = s.flights := rfl
@[simp] theorem State.setCtx_pubs (s : State) (n k : Nat) (x : Ctx) : (s.setCtx n k x).pubs = s.pubs := rfl
@[simp] theorem State.setCtx_tlb (s : State) (n k : Nat) (x : Ctx) : (s.setCtx n k x).tlb = s.tlb := rfl
@[simp] theorem State.setCtx_dropAt (s : State) (n k : Nat) (x : Ctx) : (s.setCtx n k x).dropAt = s.dropAt := rfl
@[simp] theorem State.setCtx_poison (s : State) (n k : Nat) (x : Ctx) : (s.setCtx n k x).poison = s.poison := rfl
@[simp] theorem State.setCtx_retired (s : State) (n k : Nat) (x : Ctx) : (s.setCtx n k x).retired = s.retired := rfl
@[simp] theorem State.setCtx_ecc (s : State) (n k : Nat) (x : Ctx) : (s.setCtx n k x).ecc = s.ecc := rfl
@[simp] theorem State.setCtx_vit (s : State) (n k : Nat) (x : Ctx) : (s.setCtx n k x).vit = s.vit := rfl
@[simp] theorem State.setCtx_belays (s : State) (n k : Nat) (x : Ctx) : (s.setCtx n k x).belays = s.belays := rfl
@[simp] theorem State.setCtx_provOld (s : State) (n k : Nat) (x : Ctx) : (s.setCtx n k x).provOld = s.provOld := rfl
@[simp] theorem State.setCtx_cmds (s : State) (n k : Nat) (x : Ctx) : (s.setCtx n k x).cmds = s.cmds := rfl
@[simp] theorem State.setCtx_xfers (s : State) (n k : Nat) (x : Ctx) : (s.setCtx n k x).xfers = s.xfers := rfl
@[simp] theorem State.setCtx_rounds (s : State) (n k : Nat) (x : Ctx) : (s.setCtx n k x).rounds = s.rounds := rfl
@[simp] theorem State.setCtx_fabricOut (s : State) (n k : Nat) (x : Ctx) : (s.setCtx n k x).fabricOut = s.fabricOut := rfl
@[simp] theorem State.setCtx_decs (s : State) (n k : Nat) (x : Ctx) : (s.setCtx n k x).decs = s.decs := rfl
@[simp] theorem State.setCtx_queues (s : State) (n k : Nat) (x : Ctx) : (s.setCtx n k x).queues = s.queues := rfl
@[simp] theorem State.setCtx_funcs (s : State) (n k : Nat) (x : Ctx) : (s.setCtx n k x).funcs = s.funcs := rfl
@[simp] theorem State.setCtx_served (s : State) (n k : Nat) (x : Ctx) : (s.setCtx n k x).served = s.served := rfl
@[simp] theorem State.setCtx_recs (s : State) (n k : Nat) (x : Ctx) : (s.setCtx n k x).recs = s.recs := rfl
@[simp] theorem State.setCtx_regs (s : State) (n k : Nat) (x : Ctx) : (s.setCtx n k x).regs = s.regs := rfl
@[simp] theorem State.setCtx_heat (s : State) (n k : Nat) (x : Ctx) : (s.setCtx n k x).heat = s.heat := rfl
@[simp] theorem State.setCtx_msix (s : State) (n k : Nat) (x : Ctx) : (s.setCtx n k x).msix = s.msix := rfl
@[simp] theorem State.setCtx_flr (s : State) (n k : Nat) (x : Ctx) : (s.setCtx n k x).flr = s.flr := rfl
@[simp] theorem State.setCtx_flrWrites (s : State) (n k : Nat) (x : Ctx) : (s.setCtx n k x).flrWrites = s.flrWrites := rfl
@[simp] theorem State.setCtx_thermal (s : State) (n k : Nat) (x : Ctx) : (s.setCtx n k x).thermal = s.thermal := rfl
@[simp] theorem State.setCtx_linkCxl (s : State) (n k : Nat) (x : Ctx) : (s.setCtx n k x).linkCxl = s.linkCxl := rfl
@[simp] theorem State.setCtx_binds (s : State) (n k : Nat) (x : Ctx) : (s.setCtx n k x).binds = s.binds := rfl
@[simp] theorem State.setCtx_next (s : State) (n k : Nat) (x : Ctx) : (s.setCtx n k x).next = s.next := rfl
@[simp] theorem State.setCtx_fresh (s : State) (n k : Nat) (x : Ctx) : (s.setCtx n k x).fresh = s.fresh := rfl
@[simp] theorem State.setCtx_act (s : State) (n k : Nat) (x : Ctx) : (s.setCtx n k x).act = s.act := rfl
@[simp] theorem State.setCtx_queue (s : State) (n k : Nat) (x : Ctx) : (s.setCtx n k x).queue = s.queue := rfl
@[simp] theorem State.setCtx_lat (s : State) (n k : Nat) (x : Ctx) : (s.setCtx n k x).lat = s.lat := rfl

@[simp] theorem State.onCtx_now (s : State) (n k : Nat) (f : Ctx → Ctx) : (s.onCtx n k f).now = s.now := rfl
@[simp] theorem State.onCtx_tick (s : State) (n k : Nat) (f : Ctx → Ctx) : (s.onCtx n k f).tick = s.tick := rfl
@[simp] theorem State.onCtx_ropes (s : State) (n k : Nat) (f : Ctx → Ctx) : (s.onCtx n k f).ropes = s.ropes := rfl
@[simp] theorem State.onCtx_mem (s : State) (n k : Nat) (f : Ctx → Ctx) : (s.onCtx n k f).mem = s.mem := rfl
@[simp] theorem State.onCtx_locs (s : State) (n k : Nat) (f : Ctx → Ctx) : (s.onCtx n k f).locs = s.locs := rfl
@[simp] theorem State.onCtx_flights (s : State) (n k : Nat) (f : Ctx → Ctx) : (s.onCtx n k f).flights = s.flights := rfl
@[simp] theorem State.onCtx_pubs (s : State) (n k : Nat) (f : Ctx → Ctx) : (s.onCtx n k f).pubs = s.pubs := rfl
@[simp] theorem State.onCtx_tlb (s : State) (n k : Nat) (f : Ctx → Ctx) : (s.onCtx n k f).tlb = s.tlb := rfl
@[simp] theorem State.onCtx_dropAt (s : State) (n k : Nat) (f : Ctx → Ctx) : (s.onCtx n k f).dropAt = s.dropAt := rfl
@[simp] theorem State.onCtx_poison (s : State) (n k : Nat) (f : Ctx → Ctx) : (s.onCtx n k f).poison = s.poison := rfl
@[simp] theorem State.onCtx_retired (s : State) (n k : Nat) (f : Ctx → Ctx) : (s.onCtx n k f).retired = s.retired := rfl
@[simp] theorem State.onCtx_ecc (s : State) (n k : Nat) (f : Ctx → Ctx) : (s.onCtx n k f).ecc = s.ecc := rfl
@[simp] theorem State.onCtx_vit (s : State) (n k : Nat) (f : Ctx → Ctx) : (s.onCtx n k f).vit = s.vit := rfl
@[simp] theorem State.onCtx_belays (s : State) (n k : Nat) (f : Ctx → Ctx) : (s.onCtx n k f).belays = s.belays := rfl
@[simp] theorem State.onCtx_provOld (s : State) (n k : Nat) (f : Ctx → Ctx) : (s.onCtx n k f).provOld = s.provOld := rfl
@[simp] theorem State.onCtx_cmds (s : State) (n k : Nat) (f : Ctx → Ctx) : (s.onCtx n k f).cmds = s.cmds := rfl
@[simp] theorem State.onCtx_xfers (s : State) (n k : Nat) (f : Ctx → Ctx) : (s.onCtx n k f).xfers = s.xfers := rfl
@[simp] theorem State.onCtx_rounds (s : State) (n k : Nat) (f : Ctx → Ctx) : (s.onCtx n k f).rounds = s.rounds := rfl
@[simp] theorem State.onCtx_fabricOut (s : State) (n k : Nat) (f : Ctx → Ctx) : (s.onCtx n k f).fabricOut = s.fabricOut := rfl
@[simp] theorem State.onCtx_decs (s : State) (n k : Nat) (f : Ctx → Ctx) : (s.onCtx n k f).decs = s.decs := rfl
@[simp] theorem State.onCtx_queues (s : State) (n k : Nat) (f : Ctx → Ctx) : (s.onCtx n k f).queues = s.queues := rfl
@[simp] theorem State.onCtx_funcs (s : State) (n k : Nat) (f : Ctx → Ctx) : (s.onCtx n k f).funcs = s.funcs := rfl
@[simp] theorem State.onCtx_served (s : State) (n k : Nat) (f : Ctx → Ctx) : (s.onCtx n k f).served = s.served := rfl
@[simp] theorem State.onCtx_recs (s : State) (n k : Nat) (f : Ctx → Ctx) : (s.onCtx n k f).recs = s.recs := rfl
@[simp] theorem State.onCtx_regs (s : State) (n k : Nat) (f : Ctx → Ctx) : (s.onCtx n k f).regs = s.regs := rfl
@[simp] theorem State.onCtx_heat (s : State) (n k : Nat) (f : Ctx → Ctx) : (s.onCtx n k f).heat = s.heat := rfl
@[simp] theorem State.onCtx_msix (s : State) (n k : Nat) (f : Ctx → Ctx) : (s.onCtx n k f).msix = s.msix := rfl
@[simp] theorem State.onCtx_flr (s : State) (n k : Nat) (f : Ctx → Ctx) : (s.onCtx n k f).flr = s.flr := rfl
@[simp] theorem State.onCtx_flrWrites (s : State) (n k : Nat) (f : Ctx → Ctx) : (s.onCtx n k f).flrWrites = s.flrWrites := rfl
@[simp] theorem State.onCtx_thermal (s : State) (n k : Nat) (f : Ctx → Ctx) : (s.onCtx n k f).thermal = s.thermal := rfl
@[simp] theorem State.onCtx_linkCxl (s : State) (n k : Nat) (f : Ctx → Ctx) : (s.onCtx n k f).linkCxl = s.linkCxl := rfl
@[simp] theorem State.onCtx_binds (s : State) (n k : Nat) (f : Ctx → Ctx) : (s.onCtx n k f).binds = s.binds := rfl
@[simp] theorem State.onCtx_next (s : State) (n k : Nat) (f : Ctx → Ctx) : (s.onCtx n k f).next = s.next := rfl
@[simp] theorem State.onCtx_fresh (s : State) (n k : Nat) (f : Ctx → Ctx) : (s.onCtx n k f).fresh = s.fresh := rfl
@[simp] theorem State.onCtx_act (s : State) (n k : Nat) (f : Ctx → Ctx) : (s.onCtx n k f).act = s.act := rfl
@[simp] theorem State.onCtx_queue (s : State) (n k : Nat) (f : Ctx → Ctx) : (s.onCtx n k f).queue = s.queue := rfl
@[simp] theorem State.onCtx_lat (s : State) (n k : Nat) (f : Ctx → Ctx) : (s.onCtx n k f).lat = s.lat := rfl

@[simp] theorem State.at_cores (s : State) (c : Nat) (e : Ev) : (s.at' c e).cores = s.cores := rfl
@[simp] theorem State.at_now (s : State) (c : Nat) (e : Ev) : (s.at' c e).now = s.now := rfl
@[simp] theorem State.at_tick (s : State) (c : Nat) (e : Ev) : (s.at' c e).tick = s.tick := rfl
@[simp] theorem State.at_ropes (s : State) (c : Nat) (e : Ev) : (s.at' c e).ropes = s.ropes := rfl
@[simp] theorem State.at_mem (s : State) (c : Nat) (e : Ev) : (s.at' c e).mem = s.mem := rfl
@[simp] theorem State.at_locs (s : State) (c : Nat) (e : Ev) : (s.at' c e).locs = s.locs := rfl
@[simp] theorem State.at_flights (s : State) (c : Nat) (e : Ev) : (s.at' c e).flights = s.flights := rfl
@[simp] theorem State.at_pubs (s : State) (c : Nat) (e : Ev) : (s.at' c e).pubs = s.pubs := rfl
@[simp] theorem State.at_tlb (s : State) (c : Nat) (e : Ev) : (s.at' c e).tlb = s.tlb := rfl
@[simp] theorem State.at_dropAt (s : State) (c : Nat) (e : Ev) : (s.at' c e).dropAt = s.dropAt := rfl
@[simp] theorem State.at_poison (s : State) (c : Nat) (e : Ev) : (s.at' c e).poison = s.poison := rfl
@[simp] theorem State.at_retired (s : State) (c : Nat) (e : Ev) : (s.at' c e).retired = s.retired := rfl
@[simp] theorem State.at_ecc (s : State) (c : Nat) (e : Ev) : (s.at' c e).ecc = s.ecc := rfl
@[simp] theorem State.at_vit (s : State) (c : Nat) (e : Ev) : (s.at' c e).vit = s.vit := rfl
@[simp] theorem State.at_belays (s : State) (c : Nat) (e : Ev) : (s.at' c e).belays = s.belays := rfl
@[simp] theorem State.at_provOld (s : State) (c : Nat) (e : Ev) : (s.at' c e).provOld = s.provOld := rfl
@[simp] theorem State.at_cmds (s : State) (c : Nat) (e : Ev) : (s.at' c e).cmds = s.cmds := rfl
@[simp] theorem State.at_xfers (s : State) (c : Nat) (e : Ev) : (s.at' c e).xfers = s.xfers := rfl
@[simp] theorem State.at_rounds (s : State) (c : Nat) (e : Ev) : (s.at' c e).rounds = s.rounds := rfl
@[simp] theorem State.at_fabricOut (s : State) (c : Nat) (e : Ev) : (s.at' c e).fabricOut = s.fabricOut := rfl
@[simp] theorem State.at_decs (s : State) (c : Nat) (e : Ev) : (s.at' c e).decs = s.decs := rfl
@[simp] theorem State.at_queues (s : State) (c : Nat) (e : Ev) : (s.at' c e).queues = s.queues := rfl
@[simp] theorem State.at_funcs (s : State) (c : Nat) (e : Ev) : (s.at' c e).funcs = s.funcs := rfl
@[simp] theorem State.at_served (s : State) (c : Nat) (e : Ev) : (s.at' c e).served = s.served := rfl
@[simp] theorem State.at_recs (s : State) (c : Nat) (e : Ev) : (s.at' c e).recs = s.recs := rfl
@[simp] theorem State.at_regs (s : State) (c : Nat) (e : Ev) : (s.at' c e).regs = s.regs := rfl
@[simp] theorem State.at_heat (s : State) (c : Nat) (e : Ev) : (s.at' c e).heat = s.heat := rfl
@[simp] theorem State.at_msix (s : State) (c : Nat) (e : Ev) : (s.at' c e).msix = s.msix := rfl
@[simp] theorem State.at_flr (s : State) (c : Nat) (e : Ev) : (s.at' c e).flr = s.flr := rfl
@[simp] theorem State.at_flrWrites (s : State) (c : Nat) (e : Ev) : (s.at' c e).flrWrites = s.flrWrites := rfl
@[simp] theorem State.at_thermal (s : State) (c : Nat) (e : Ev) : (s.at' c e).thermal = s.thermal := rfl
@[simp] theorem State.at_linkCxl (s : State) (c : Nat) (e : Ev) : (s.at' c e).linkCxl = s.linkCxl := rfl
@[simp] theorem State.at_binds (s : State) (c : Nat) (e : Ev) : (s.at' c e).binds = s.binds := rfl
@[simp] theorem State.at_next (s : State) (c : Nat) (e : Ev) : (s.at' c e).next = s.next := rfl
@[simp] theorem State.at_fresh (s : State) (c : Nat) (e : Ev) : (s.at' c e).fresh = s.fresh := rfl
@[simp] theorem State.at_act (s : State) (c : Nat) (e : Ev) : (s.at' c e).act = s.act := rfl
@[simp] theorem State.at_lat (s : State) (c : Nat) (e : Ev) : (s.at' c e).lat = s.lat := rfl
@[simp] theorem State.at_queue (s : State) (c : Nat) (e : Ev) : (s.at' c e).queue = evInsert c e s.queue := rfl

@[simp] theorem Core.setCtx_last (c : Core) (k : Nat) (x : Ctx) : (c.setCtx k x).last = c.last := rfl
@[simp] theorem Core.setCtx_slotAt (c : Core) (k : Nat) (x : Ctx) : (c.setCtx k x).slotAt = c.slotAt := rfl
@[simp] theorem Core.setCtx_slots (c : Core) (k : Nat) (x : Ctx) : (c.setCtx k x).slots = c.slots := rfl
@[simp] theorem Core.setCtx_on (c : Core) (k : Nat) (x : Ctx) : (c.setCtx k x).on = c.on := rfl
@[simp] theorem Core.setCtx_check (c : Core) (k : Nat) (x : Ctx) : (c.setCtx k x).check = c.check := rfl
@[simp] theorem Core.setCtx_guardrec (c : Core) (k : Nat) (x : Ctx) : (c.setCtx k x).guardrec = c.guardrec := rfl
@[simp] theorem Core.setCtx_pitch (c : Core) (k : Nat) (x : Ctx) : (c.setCtx k x).pitch = c.pitch := rfl
@[simp] theorem Core.setCtx_wins (c : Core) (k : Nat) (x : Ctx) : (c.setCtx k x).wins = c.wins := rfl
@[simp] theorem Core.setCtx_wstat (c : Core) (k : Nat) (x : Ctx) : (c.setCtx k x).wstat = c.wstat := rfl
@[simp] theorem Core.setCtx_utvec (c : Core) (k : Nat) (x : Ctx) : (c.setCtx k x).utvec = c.utvec := rfl
@[simp] theorem Core.setCtx_utmask (c : Core) (k : Nat) (x : Ctx) : (c.setCtx k x).utmask = c.utmask := rfl
@[simp] theorem Core.setCtx_spkeep (c : Core) (k : Nat) (x : Ctx) : (c.setCtx k x).spkeep = c.spkeep := rfl
@[simp] theorem Core.setCtx_resinfo (c : Core) (k : Nat) (x : Ctx) : (c.setCtx k x).resinfo = c.resinfo := rfl
@[simp] theorem Core.setCtx_banks (c : Core) (k : Nat) (x : Ctx) : (c.setCtx k x).banks = c.banks := rfl
@[simp] theorem Core.setCtx_zeroAt (c : Core) (k : Nat) (x : Ctx) : (c.setCtx k x).zeroAt = c.zeroAt := rfl
@[simp] theorem Core.setCtx_renewing (c : Core) (k : Nat) (x : Ctx) : (c.setCtx k x).renewing = c.renewing := rfl
@[simp] theorem Core.setCtx_lines (c : Core) (k : Nat) (x : Ctx) : (c.setCtx k x).lines = c.lines := rfl
@[simp] theorem Core.setCtx_icache (c : Core) (k : Nat) (x : Ctx) : (c.setCtx k x).icache = c.icache := rfl
@[simp] theorem Core.setCtx_ring (c : Core) (k : Nat) (x : Ctx) : (c.setCtx k x).ring = c.ring := rfl
@[simp] theorem Core.setCtx_ringCtr (c : Core) (k : Nat) (x : Ctx) : (c.setCtx k x).ringCtr = c.ringCtr := rfl
@[simp] theorem Core.setCtx_active (c : Core) (k : Nat) (x : Ctx) : (c.setCtx k x).active = c.active := rfl
@[simp] theorem Core.setCtx_shadow (c : Core) (k : Nat) (x : Ctx) : (c.setCtx k x).shadow = c.shadow := rfl
@[simp] theorem Core.setCtx_save (c : Core) (k : Nat) (x : Ctx) : (c.setCtx k x).save = c.save := rfl
@[simp] theorem Core.setCtx_biv (c : Core) (k : Nat) (x : Ctx) : (c.setCtx k x).biv = c.biv := rfl
@[simp] theorem Core.setCtx_restored (c : Core) (k : Nat) (x : Ctx) : (c.setCtx k x).restored = c.restored := rfl
@[simp] theorem Core.setCtx_stopped (c : Core) (k : Nat) (x : Ctx) : (c.setCtx k x).stopped = c.stopped := rfl
@[simp] theorem Core.setCtx_incoming (c : Core) (k : Nat) (x : Ctx) : (c.setCtx k x).incoming = c.incoming := rfl
@[simp] theorem Core.setCtx_preempt (c : Core) (k : Nat) (x : Ctx) : (c.setCtx k x).preempt = c.preempt := rfl
@[simp] theorem Core.setCtx_failing (c : Core) (k : Nat) (x : Ctx) : (c.setCtx k x).failing = c.failing := rfl
@[simp] theorem Core.setCtx_halted (c : Core) (k : Nat) (x : Ctx) : (c.setCtx k x).halted = c.halted := rfl
@[simp] theorem Core.setCtx_badWords (c : Core) (k : Nat) (x : Ctx) : (c.setCtx k x).badWords = c.badWords := rfl
@[simp] theorem Core.setCtx_held (c : Core) (k : Nat) (x : Ctx) : (c.setCtx k x).held = c.held := rfl

@[simp] theorem Ctx.advance_live (c : Ctx) (now : Nat) (st : Stall) : (c.advance now st).live = c.live := rfl
@[simp] theorem Ctx.advance_g (c : Ctx) (now : Nat) (st : Stall) : (c.advance now st).g = c.g := rfl
@[simp] theorem Ctx.advance_v (c : Ctx) (now : Nat) (st : Stall) : (c.advance now st).v = c.v := rfl
@[simp] theorem Ctx.advance_p (c : Ctx) (now : Nat) (st : Stall) : (c.advance now st).p = c.p := rfl
@[simp] theorem Ctx.advance_hg (c : Ctx) (now : Nat) (st : Stall) : (c.advance now st).hg = c.hg := rfl
@[simp] theorem Ctx.advance_rmode (c : Ctx) (now : Nat) (st : Stall) : (c.advance now st).rmode = c.rmode := rfl
@[simp] theorem Ctx.advance_tbase (c : Ctx) (now : Nat) (st : Stall) : (c.advance now st).tbase = c.tbase := rfl
@[simp] theorem Ctx.advance_cairnpc (c : Ctx) (now : Nat) (st : Stall) : (c.advance now st).cairnpc = c.cairnpc := rfl
@[simp] theorem Ctx.advance_cause (c : Ctx) (now : Nat) (st : Stall) : (c.advance now st).cause = c.cause := rfl
@[simp] theorem Ctx.advance_epc (c : Ctx) (now : Nat) (st : Stall) : (c.advance now st).epc = c.epc := rfl
@[simp] theorem Ctx.advance_faddr (c : Ctx) (now : Nat) (st : Stall) : (c.advance now st).faddr = c.faddr := rfl
@[simp] theorem Ctx.advance_finfo (c : Ctx) (now : Nat) (st : Stall) : (c.advance now st).finfo = c.finfo := rfl
@[simp] theorem Ctx.advance_fseq (c : Ctx) (now : Nat) (st : Stall) : (c.advance now st).fseq = c.fseq := rfl
@[simp] theorem Ctx.advance_xstat (c : Ctx) (now : Nat) (st : Stall) : (c.advance now st).xstat = c.xstat := rfl
@[simp] theorem Ctx.advance_mshape (c : Ctx) (now : Nat) (st : Stall) : (c.advance now st).mshape = c.mshape := rfl
@[simp] theorem Ctx.advance_image (c : Ctx) (now : Nat) (st : Stall) : (c.advance now st).image = c.image := rfl
@[simp] theorem Ctx.advance_pend (c : Ctx) (now : Nat) (st : Stall) : (c.advance now st).pend = c.pend := rfl
@[simp] theorem Ctx.advance_anchor (c : Ctx) (now : Nat) (st : Stall) : (c.advance now st).anchor = c.anchor := rfl
@[simp] theorem Ctx.advance_dly (c : Ctx) (now : Nat) (st : Stall) : (c.advance now st).dly = c.dly := rfl
@[simp] theorem Ctx.advance_suppress (c : Ctx) (now : Nat) (st : Stall) : (c.advance now st).suppress = c.suppress := rfl
@[simp] theorem Ctx.advance_issued (c : Ctx) (now : Nat) (st : Stall) : (c.advance now st).issued = c.issued := rfl
@[simp] theorem Ctx.advance_fault (c : Ctx) (now : Nat) (st : Stall) : (c.advance now st).fault = c.fault := rfl
@[simp] theorem Ctx.advance_defer (c : Ctx) (now : Nat) (st : Stall) : (c.advance now st).defer = c.defer := rfl
@[simp] theorem Ctx.advance_floors (c : Ctx) (now : Nat) (st : Stall) : (c.advance now st).floors = c.floors := rfl
@[simp] theorem Ctx.advance_replay (c : Ctx) (now : Nat) (st : Stall) : (c.advance now st).replay = c.replay := rfl
@[simp] theorem Ctx.advance_word (c : Ctx) (now : Nat) (st : Stall) : (c.advance now st).word = c.word := rfl

@[simp] theorem Ctx.redirect_live (c : Ctx) (now : Nat) (st : Stall) (va : VA) : (c.redirect now st va).live = c.live := rfl
@[simp] theorem Ctx.redirect_g (c : Ctx) (now : Nat) (st : Stall) (va : VA) : (c.redirect now st va).g = c.g := rfl
@[simp] theorem Ctx.redirect_v (c : Ctx) (now : Nat) (st : Stall) (va : VA) : (c.redirect now st va).v = c.v := rfl
@[simp] theorem Ctx.redirect_p (c : Ctx) (now : Nat) (st : Stall) (va : VA) : (c.redirect now st va).p = c.p := rfl
@[simp] theorem Ctx.redirect_hg (c : Ctx) (now : Nat) (st : Stall) (va : VA) : (c.redirect now st va).hg = c.hg := rfl
@[simp] theorem Ctx.redirect_rmode (c : Ctx) (now : Nat) (st : Stall) (va : VA) : (c.redirect now st va).rmode = c.rmode := rfl
@[simp] theorem Ctx.redirect_tbase (c : Ctx) (now : Nat) (st : Stall) (va : VA) : (c.redirect now st va).tbase = c.tbase := rfl
@[simp] theorem Ctx.redirect_cairnpc (c : Ctx) (now : Nat) (st : Stall) (va : VA) : (c.redirect now st va).cairnpc = c.cairnpc := rfl
@[simp] theorem Ctx.redirect_cause (c : Ctx) (now : Nat) (st : Stall) (va : VA) : (c.redirect now st va).cause = c.cause := rfl
@[simp] theorem Ctx.redirect_epc (c : Ctx) (now : Nat) (st : Stall) (va : VA) : (c.redirect now st va).epc = c.epc := rfl
@[simp] theorem Ctx.redirect_faddr (c : Ctx) (now : Nat) (st : Stall) (va : VA) : (c.redirect now st va).faddr = c.faddr := rfl
@[simp] theorem Ctx.redirect_finfo (c : Ctx) (now : Nat) (st : Stall) (va : VA) : (c.redirect now st va).finfo = c.finfo := rfl
@[simp] theorem Ctx.redirect_fseq (c : Ctx) (now : Nat) (st : Stall) (va : VA) : (c.redirect now st va).fseq = c.fseq := rfl
@[simp] theorem Ctx.redirect_xstat (c : Ctx) (now : Nat) (st : Stall) (va : VA) : (c.redirect now st va).xstat = c.xstat := rfl
@[simp] theorem Ctx.redirect_mshape (c : Ctx) (now : Nat) (st : Stall) (va : VA) : (c.redirect now st va).mshape = c.mshape := rfl
@[simp] theorem Ctx.redirect_image (c : Ctx) (now : Nat) (st : Stall) (va : VA) : (c.redirect now st va).image = c.image := rfl
@[simp] theorem Ctx.redirect_pend (c : Ctx) (now : Nat) (st : Stall) (va : VA) : (c.redirect now st va).pend = c.pend := rfl
@[simp] theorem Ctx.redirect_park (c : Ctx) (now : Nat) (st : Stall) (va : VA) : (c.redirect now st va).park = c.park := rfl
@[simp] theorem Ctx.redirect_anchor (c : Ctx) (now : Nat) (st : Stall) (va : VA) : (c.redirect now st va).anchor = c.anchor := rfl
@[simp] theorem Ctx.redirect_dly (c : Ctx) (now : Nat) (st : Stall) (va : VA) : (c.redirect now st va).dly = c.dly := rfl
@[simp] theorem Ctx.redirect_suppress (c : Ctx) (now : Nat) (st : Stall) (va : VA) : (c.redirect now st va).suppress = c.suppress := rfl
@[simp] theorem Ctx.redirect_issued (c : Ctx) (now : Nat) (st : Stall) (va : VA) : (c.redirect now st va).issued = c.issued := rfl
@[simp] theorem Ctx.redirect_fault (c : Ctx) (now : Nat) (st : Stall) (va : VA) : (c.redirect now st va).fault = c.fault := rfl
@[simp] theorem Ctx.redirect_defer (c : Ctx) (now : Nat) (st : Stall) (va : VA) : (c.redirect now st va).defer = c.defer := rfl
@[simp] theorem Ctx.redirect_left (c : Ctx) (now : Nat) (st : Stall) (va : VA) : (c.redirect now st va).left = c.left := rfl
@[simp] theorem Ctx.redirect_answer (c : Ctx) (now : Nat) (st : Stall) (va : VA) : (c.redirect now st va).answer = c.answer := rfl
@[simp] theorem Ctx.redirect_floors (c : Ctx) (now : Nat) (st : Stall) (va : VA) : (c.redirect now st va).floors = c.floors := rfl
@[simp] theorem Ctx.redirect_replay (c : Ctx) (now : Nat) (st : Stall) (va : VA) : (c.redirect now st va).replay = c.replay := rfl
@[simp] theorem Ctx.redirect_word (c : Ctx) (now : Nat) (st : Stall) (va : VA) : (c.redirect now st va).word = c.word := rfl

@[simp] theorem Ctx.report_live (c : Ctx) (t : Trap) (epc : VA) (imp dfr crn : Bool) : (c.report t epc imp dfr crn).live = c.live := rfl
@[simp] theorem Ctx.report_pc (c : Ctx) (t : Trap) (epc : VA) (imp dfr crn : Bool) : (c.report t epc imp dfr crn).pc = c.pc := rfl
@[simp] theorem Ctx.report_g (c : Ctx) (t : Trap) (epc : VA) (imp dfr crn : Bool) : (c.report t epc imp dfr crn).g = c.g := rfl
@[simp] theorem Ctx.report_v (c : Ctx) (t : Trap) (epc : VA) (imp dfr crn : Bool) : (c.report t epc imp dfr crn).v = c.v := rfl
@[simp] theorem Ctx.report_p (c : Ctx) (t : Trap) (epc : VA) (imp dfr crn : Bool) : (c.report t epc imp dfr crn).p = c.p := rfl
@[simp] theorem Ctx.report_hg (c : Ctx) (t : Trap) (epc : VA) (imp dfr crn : Bool) : (c.report t epc imp dfr crn).hg = c.hg := rfl
@[simp] theorem Ctx.report_rmode (c : Ctx) (t : Trap) (epc : VA) (imp dfr crn : Bool) : (c.report t epc imp dfr crn).rmode = c.rmode := rfl
@[simp] theorem Ctx.report_tbase (c : Ctx) (t : Trap) (epc : VA) (imp dfr crn : Bool) : (c.report t epc imp dfr crn).tbase = c.tbase := rfl
@[simp] theorem Ctx.report_cairnpc (c : Ctx) (t : Trap) (epc : VA) (imp dfr crn : Bool) : (c.report t epc imp dfr crn).cairnpc = c.cairnpc := rfl
@[simp] theorem Ctx.report_fseq (c : Ctx) (t : Trap) (epc : VA) (imp dfr crn : Bool) : (c.report t epc imp dfr crn).fseq = c.fseq := rfl
@[simp] theorem Ctx.report_xstat (c : Ctx) (t : Trap) (epc : VA) (imp dfr crn : Bool) : (c.report t epc imp dfr crn).xstat = c.xstat := rfl
@[simp] theorem Ctx.report_mshape (c : Ctx) (t : Trap) (epc : VA) (imp dfr crn : Bool) : (c.report t epc imp dfr crn).mshape = c.mshape := rfl
@[simp] theorem Ctx.report_image (c : Ctx) (t : Trap) (epc : VA) (imp dfr crn : Bool) : (c.report t epc imp dfr crn).image = c.image := rfl
@[simp] theorem Ctx.report_pend (c : Ctx) (t : Trap) (epc : VA) (imp dfr crn : Bool) : (c.report t epc imp dfr crn).pend = c.pend := rfl
@[simp] theorem Ctx.report_readyAt (c : Ctx) (t : Trap) (epc : VA) (imp dfr crn : Bool) : (c.report t epc imp dfr crn).readyAt = c.readyAt := rfl
@[simp] theorem Ctx.report_park (c : Ctx) (t : Trap) (epc : VA) (imp dfr crn : Bool) : (c.report t epc imp dfr crn).park = c.park := rfl
@[simp] theorem Ctx.report_anchor (c : Ctx) (t : Trap) (epc : VA) (imp dfr crn : Bool) : (c.report t epc imp dfr crn).anchor = c.anchor := rfl
@[simp] theorem Ctx.report_dly (c : Ctx) (t : Trap) (epc : VA) (imp dfr crn : Bool) : (c.report t epc imp dfr crn).dly = c.dly := rfl
@[simp] theorem Ctx.report_suppress (c : Ctx) (t : Trap) (epc : VA) (imp dfr crn : Bool) : (c.report t epc imp dfr crn).suppress = c.suppress := rfl
@[simp] theorem Ctx.report_issued (c : Ctx) (t : Trap) (epc : VA) (imp dfr crn : Bool) : (c.report t epc imp dfr crn).issued = c.issued := rfl
@[simp] theorem Ctx.report_fault (c : Ctx) (t : Trap) (epc : VA) (imp dfr crn : Bool) : (c.report t epc imp dfr crn).fault = c.fault := rfl
@[simp] theorem Ctx.report_defer (c : Ctx) (t : Trap) (epc : VA) (imp dfr crn : Bool) : (c.report t epc imp dfr crn).defer = c.defer := rfl
@[simp] theorem Ctx.report_left (c : Ctx) (t : Trap) (epc : VA) (imp dfr crn : Bool) : (c.report t epc imp dfr crn).left = c.left := rfl
@[simp] theorem Ctx.report_answer (c : Ctx) (t : Trap) (epc : VA) (imp dfr crn : Bool) : (c.report t epc imp dfr crn).answer = c.answer := rfl
@[simp] theorem Ctx.report_fbuf (c : Ctx) (t : Trap) (epc : VA) (imp dfr crn : Bool) : (c.report t epc imp dfr crn).fbuf = c.fbuf := rfl
@[simp] theorem Ctx.report_floors (c : Ctx) (t : Trap) (epc : VA) (imp dfr crn : Bool) : (c.report t epc imp dfr crn).floors = c.floors := rfl
@[simp] theorem Ctx.report_replay (c : Ctx) (t : Trap) (epc : VA) (imp dfr crn : Bool) : (c.report t epc imp dfr crn).replay = c.replay := rfl
@[simp] theorem Ctx.report_word (c : Ctx) (t : Trap) (epc : VA) (imp dfr crn : Bool) : (c.report t epc imp dfr crn).word = c.word := rfl

@[simp] theorem Ctx.anchored_live (c : Ctx) (now : Nat) : (c.anchored now).live = c.live := rfl
@[simp] theorem Ctx.anchored_pc (c : Ctx) (now : Nat) : (c.anchored now).pc = c.pc := rfl
@[simp] theorem Ctx.anchored_g (c : Ctx) (now : Nat) : (c.anchored now).g = c.g := rfl
@[simp] theorem Ctx.anchored_v (c : Ctx) (now : Nat) : (c.anchored now).v = c.v := rfl
@[simp] theorem Ctx.anchored_p (c : Ctx) (now : Nat) : (c.anchored now).p = c.p := rfl
@[simp] theorem Ctx.anchored_hg (c : Ctx) (now : Nat) : (c.anchored now).hg = c.hg := rfl
@[simp] theorem Ctx.anchored_rmode (c : Ctx) (now : Nat) : (c.anchored now).rmode = c.rmode := rfl
@[simp] theorem Ctx.anchored_cairnpc (c : Ctx) (now : Nat) : (c.anchored now).cairnpc = c.cairnpc := rfl
@[simp] theorem Ctx.anchored_cause (c : Ctx) (now : Nat) : (c.anchored now).cause = c.cause := rfl
@[simp] theorem Ctx.anchored_epc (c : Ctx) (now : Nat) : (c.anchored now).epc = c.epc := rfl
@[simp] theorem Ctx.anchored_faddr (c : Ctx) (now : Nat) : (c.anchored now).faddr = c.faddr := rfl
@[simp] theorem Ctx.anchored_finfo (c : Ctx) (now : Nat) : (c.anchored now).finfo = c.finfo := rfl
@[simp] theorem Ctx.anchored_fseq (c : Ctx) (now : Nat) : (c.anchored now).fseq = c.fseq := rfl
@[simp] theorem Ctx.anchored_xstat (c : Ctx) (now : Nat) : (c.anchored now).xstat = c.xstat := rfl
@[simp] theorem Ctx.anchored_mshape (c : Ctx) (now : Nat) : (c.anchored now).mshape = c.mshape := rfl
@[simp] theorem Ctx.anchored_image (c : Ctx) (now : Nat) : (c.anchored now).image = c.image := rfl
@[simp] theorem Ctx.anchored_pend (c : Ctx) (now : Nat) : (c.anchored now).pend = c.pend := rfl
@[simp] theorem Ctx.anchored_readyAt (c : Ctx) (now : Nat) : (c.anchored now).readyAt = c.readyAt := rfl
@[simp] theorem Ctx.anchored_park (c : Ctx) (now : Nat) : (c.anchored now).park = c.park := rfl
@[simp] theorem Ctx.anchored_suppress (c : Ctx) (now : Nat) : (c.anchored now).suppress = c.suppress := rfl
@[simp] theorem Ctx.anchored_issued (c : Ctx) (now : Nat) : (c.anchored now).issued = c.issued := rfl
@[simp] theorem Ctx.anchored_fault (c : Ctx) (now : Nat) : (c.anchored now).fault = c.fault := rfl
@[simp] theorem Ctx.anchored_defer (c : Ctx) (now : Nat) : (c.anchored now).defer = c.defer := rfl
@[simp] theorem Ctx.anchored_left (c : Ctx) (now : Nat) : (c.anchored now).left = c.left := rfl
@[simp] theorem Ctx.anchored_answer (c : Ctx) (now : Nat) : (c.anchored now).answer = c.answer := rfl
@[simp] theorem Ctx.anchored_fbuf (c : Ctx) (now : Nat) : (c.anchored now).fbuf = c.fbuf := rfl
@[simp] theorem Ctx.anchored_floors (c : Ctx) (now : Nat) : (c.anchored now).floors = c.floors := rfl
@[simp] theorem Ctx.anchored_replay (c : Ctx) (now : Nat) : (c.anchored now).replay = c.replay := rfl
@[simp] theorem Ctx.anchored_word (c : Ctx) (now : Nat) : (c.anchored now).word = c.word := rfl

@[simp] theorem Ctx.enter_live (c : Ctx) (now : Nat) (ent : BitVec 3) : (c.enter now ent).live = c.live := rfl
@[simp] theorem Ctx.enter_g (c : Ctx) (now : Nat) (ent : BitVec 3) : (c.enter now ent).g = c.g := rfl
@[simp] theorem Ctx.enter_v (c : Ctx) (now : Nat) (ent : BitVec 3) : (c.enter now ent).v = c.v := rfl
@[simp] theorem Ctx.enter_p (c : Ctx) (now : Nat) (ent : BitVec 3) : (c.enter now ent).p = c.p := rfl
@[simp] theorem Ctx.enter_hg (c : Ctx) (now : Nat) (ent : BitVec 3) : (c.enter now ent).hg = c.hg := rfl
@[simp] theorem Ctx.enter_rmode (c : Ctx) (now : Nat) (ent : BitVec 3) : (c.enter now ent).rmode = c.rmode := rfl
@[simp] theorem Ctx.enter_tbase (c : Ctx) (now : Nat) (ent : BitVec 3) : (c.enter now ent).tbase = c.tbase := rfl
@[simp] theorem Ctx.enter_cairnpc (c : Ctx) (now : Nat) (ent : BitVec 3) : (c.enter now ent).cairnpc = c.cairnpc := rfl
@[simp] theorem Ctx.enter_cause (c : Ctx) (now : Nat) (ent : BitVec 3) : (c.enter now ent).cause = c.cause := rfl
@[simp] theorem Ctx.enter_epc (c : Ctx) (now : Nat) (ent : BitVec 3) : (c.enter now ent).epc = c.epc := rfl
@[simp] theorem Ctx.enter_faddr (c : Ctx) (now : Nat) (ent : BitVec 3) : (c.enter now ent).faddr = c.faddr := rfl
@[simp] theorem Ctx.enter_finfo (c : Ctx) (now : Nat) (ent : BitVec 3) : (c.enter now ent).finfo = c.finfo := rfl
@[simp] theorem Ctx.enter_fseq (c : Ctx) (now : Nat) (ent : BitVec 3) : (c.enter now ent).fseq = c.fseq := rfl
@[simp] theorem Ctx.enter_mshape (c : Ctx) (now : Nat) (ent : BitVec 3) : (c.enter now ent).mshape = c.mshape := rfl
@[simp] theorem Ctx.enter_image (c : Ctx) (now : Nat) (ent : BitVec 3) : (c.enter now ent).image = c.image := rfl
@[simp] theorem Ctx.enter_pend (c : Ctx) (now : Nat) (ent : BitVec 3) : (c.enter now ent).pend = c.pend := rfl
@[simp] theorem Ctx.enter_anchor (c : Ctx) (now : Nat) (ent : BitVec 3) : (c.enter now ent).anchor = c.anchor := rfl
@[simp] theorem Ctx.enter_suppress (c : Ctx) (now : Nat) (ent : BitVec 3) : (c.enter now ent).suppress = c.suppress := rfl
@[simp] theorem Ctx.enter_issued (c : Ctx) (now : Nat) (ent : BitVec 3) : (c.enter now ent).issued = c.issued := rfl
@[simp] theorem Ctx.enter_fault (c : Ctx) (now : Nat) (ent : BitVec 3) : (c.enter now ent).fault = c.fault := rfl
@[simp] theorem Ctx.enter_defer (c : Ctx) (now : Nat) (ent : BitVec 3) : (c.enter now ent).defer = c.defer := rfl
@[simp] theorem Ctx.enter_left (c : Ctx) (now : Nat) (ent : BitVec 3) : (c.enter now ent).left = c.left := rfl
@[simp] theorem Ctx.enter_answer (c : Ctx) (now : Nat) (ent : BitVec 3) : (c.enter now ent).answer = none := rfl
@[simp] theorem Ctx.enter_fbuf (c : Ctx) (now : Nat) (ent : BitVec 3) : (c.enter now ent).fbuf = [] := rfl
@[simp] theorem Ctx.enter_floors (c : Ctx) (now : Nat) (ent : BitVec 3) : (c.enter now ent).floors = c.floors := rfl
@[simp] theorem Ctx.enter_replay (c : Ctx) (now : Nat) (ent : BitVec 3) : (c.enter now ent).replay = c.replay := rfl
@[simp] theorem Ctx.enter_word (c : Ctx) (now : Nat) (ent : BitVec 3) : (c.enter now ent).word = c.word := rfl

@[simp] theorem Ctx.vsetLanes_live (c : Ctx) (r : VReg) (m : BitVec 16) (x : Lanes) : (c.vsetLanes r m x).live = c.live := rfl
@[simp] theorem Ctx.vsetLanes_pc (c : Ctx) (r : VReg) (m : BitVec 16) (x : Lanes) : (c.vsetLanes r m x).pc = c.pc := rfl
@[simp] theorem Ctx.vsetLanes_g (c : Ctx) (r : VReg) (m : BitVec 16) (x : Lanes) : (c.vsetLanes r m x).g = c.g := rfl
@[simp] theorem Ctx.vsetLanes_p (c : Ctx) (r : VReg) (m : BitVec 16) (x : Lanes) : (c.vsetLanes r m x).p = c.p := rfl
@[simp] theorem Ctx.vsetLanes_hg (c : Ctx) (r : VReg) (m : BitVec 16) (x : Lanes) : (c.vsetLanes r m x).hg = c.hg := rfl
@[simp] theorem Ctx.vsetLanes_rmode (c : Ctx) (r : VReg) (m : BitVec 16) (x : Lanes) : (c.vsetLanes r m x).rmode = c.rmode := rfl
@[simp] theorem Ctx.vsetLanes_tbase (c : Ctx) (r : VReg) (m : BitVec 16) (x : Lanes) : (c.vsetLanes r m x).tbase = c.tbase := rfl
@[simp] theorem Ctx.vsetLanes_cairnpc (c : Ctx) (r : VReg) (m : BitVec 16) (x : Lanes) : (c.vsetLanes r m x).cairnpc = c.cairnpc := rfl
@[simp] theorem Ctx.vsetLanes_cause (c : Ctx) (r : VReg) (m : BitVec 16) (x : Lanes) : (c.vsetLanes r m x).cause = c.cause := rfl
@[simp] theorem Ctx.vsetLanes_epc (c : Ctx) (r : VReg) (m : BitVec 16) (x : Lanes) : (c.vsetLanes r m x).epc = c.epc := rfl
@[simp] theorem Ctx.vsetLanes_faddr (c : Ctx) (r : VReg) (m : BitVec 16) (x : Lanes) : (c.vsetLanes r m x).faddr = c.faddr := rfl
@[simp] theorem Ctx.vsetLanes_finfo (c : Ctx) (r : VReg) (m : BitVec 16) (x : Lanes) : (c.vsetLanes r m x).finfo = c.finfo := rfl
@[simp] theorem Ctx.vsetLanes_fseq (c : Ctx) (r : VReg) (m : BitVec 16) (x : Lanes) : (c.vsetLanes r m x).fseq = c.fseq := rfl
@[simp] theorem Ctx.vsetLanes_xstat (c : Ctx) (r : VReg) (m : BitVec 16) (x : Lanes) : (c.vsetLanes r m x).xstat = c.xstat := rfl
@[simp] theorem Ctx.vsetLanes_mshape (c : Ctx) (r : VReg) (m : BitVec 16) (x : Lanes) : (c.vsetLanes r m x).mshape = c.mshape := rfl
@[simp] theorem Ctx.vsetLanes_image (c : Ctx) (r : VReg) (m : BitVec 16) (x : Lanes) : (c.vsetLanes r m x).image = c.image := rfl
@[simp] theorem Ctx.vsetLanes_pend (c : Ctx) (r : VReg) (m : BitVec 16) (x : Lanes) : (c.vsetLanes r m x).pend = c.pend := rfl
@[simp] theorem Ctx.vsetLanes_readyAt (c : Ctx) (r : VReg) (m : BitVec 16) (x : Lanes) : (c.vsetLanes r m x).readyAt = c.readyAt := rfl
@[simp] theorem Ctx.vsetLanes_park (c : Ctx) (r : VReg) (m : BitVec 16) (x : Lanes) : (c.vsetLanes r m x).park = c.park := rfl
@[simp] theorem Ctx.vsetLanes_anchor (c : Ctx) (r : VReg) (m : BitVec 16) (x : Lanes) : (c.vsetLanes r m x).anchor = c.anchor := rfl
@[simp] theorem Ctx.vsetLanes_dly (c : Ctx) (r : VReg) (m : BitVec 16) (x : Lanes) : (c.vsetLanes r m x).dly = c.dly := rfl
@[simp] theorem Ctx.vsetLanes_suppress (c : Ctx) (r : VReg) (m : BitVec 16) (x : Lanes) : (c.vsetLanes r m x).suppress = c.suppress := rfl
@[simp] theorem Ctx.vsetLanes_issued (c : Ctx) (r : VReg) (m : BitVec 16) (x : Lanes) : (c.vsetLanes r m x).issued = c.issued := rfl
@[simp] theorem Ctx.vsetLanes_fault (c : Ctx) (r : VReg) (m : BitVec 16) (x : Lanes) : (c.vsetLanes r m x).fault = c.fault := rfl
@[simp] theorem Ctx.vsetLanes_defer (c : Ctx) (r : VReg) (m : BitVec 16) (x : Lanes) : (c.vsetLanes r m x).defer = c.defer := rfl
@[simp] theorem Ctx.vsetLanes_left (c : Ctx) (r : VReg) (m : BitVec 16) (x : Lanes) : (c.vsetLanes r m x).left = c.left := rfl
@[simp] theorem Ctx.vsetLanes_answer (c : Ctx) (r : VReg) (m : BitVec 16) (x : Lanes) : (c.vsetLanes r m x).answer = c.answer := rfl
@[simp] theorem Ctx.vsetLanes_fbuf (c : Ctx) (r : VReg) (m : BitVec 16) (x : Lanes) : (c.vsetLanes r m x).fbuf = c.fbuf := rfl
@[simp] theorem Ctx.vsetLanes_floors (c : Ctx) (r : VReg) (m : BitVec 16) (x : Lanes) : (c.vsetLanes r m x).floors = c.floors := rfl
@[simp] theorem Ctx.vsetLanes_replay (c : Ctx) (r : VReg) (m : BitVec 16) (x : Lanes) : (c.vsetLanes r m x).replay = c.replay := rfl
@[simp] theorem Ctx.vsetLanes_word (c : Ctx) (r : VReg) (m : BitVec 16) (x : Lanes) : (c.vsetLanes r m x).word = c.word := rfl

@[simp] theorem Ctx.recordCairn_live (c : Ctx) (l : Bool) (pc : VA) : (c.recordCairn l pc).live = c.live := rfl
@[simp] theorem Ctx.recordCairn_pc (c : Ctx) (l : Bool) (pc : VA) : (c.recordCairn l pc).pc = c.pc := rfl
@[simp] theorem Ctx.recordCairn_g (c : Ctx) (l : Bool) (pc : VA) : (c.recordCairn l pc).g = c.g := rfl
@[simp] theorem Ctx.recordCairn_v (c : Ctx) (l : Bool) (pc : VA) : (c.recordCairn l pc).v = c.v := rfl
@[simp] theorem Ctx.recordCairn_p (c : Ctx) (l : Bool) (pc : VA) : (c.recordCairn l pc).p = c.p := rfl
@[simp] theorem Ctx.recordCairn_hg (c : Ctx) (l : Bool) (pc : VA) : (c.recordCairn l pc).hg = c.hg := rfl
@[simp] theorem Ctx.recordCairn_rmode (c : Ctx) (l : Bool) (pc : VA) : (c.recordCairn l pc).rmode = c.rmode := rfl
@[simp] theorem Ctx.recordCairn_tbase (c : Ctx) (l : Bool) (pc : VA) : (c.recordCairn l pc).tbase = c.tbase := rfl
@[simp] theorem Ctx.recordCairn_cause (c : Ctx) (l : Bool) (pc : VA) : (c.recordCairn l pc).cause = c.cause := rfl
@[simp] theorem Ctx.recordCairn_epc (c : Ctx) (l : Bool) (pc : VA) : (c.recordCairn l pc).epc = c.epc := rfl
@[simp] theorem Ctx.recordCairn_faddr (c : Ctx) (l : Bool) (pc : VA) : (c.recordCairn l pc).faddr = c.faddr := rfl
@[simp] theorem Ctx.recordCairn_finfo (c : Ctx) (l : Bool) (pc : VA) : (c.recordCairn l pc).finfo = c.finfo := rfl
@[simp] theorem Ctx.recordCairn_fseq (c : Ctx) (l : Bool) (pc : VA) : (c.recordCairn l pc).fseq = c.fseq := rfl
@[simp] theorem Ctx.recordCairn_xstat (c : Ctx) (l : Bool) (pc : VA) : (c.recordCairn l pc).xstat = c.xstat := rfl
@[simp] theorem Ctx.recordCairn_mshape (c : Ctx) (l : Bool) (pc : VA) : (c.recordCairn l pc).mshape = c.mshape := rfl
@[simp] theorem Ctx.recordCairn_pend (c : Ctx) (l : Bool) (pc : VA) : (c.recordCairn l pc).pend = c.pend := rfl
@[simp] theorem Ctx.recordCairn_readyAt (c : Ctx) (l : Bool) (pc : VA) : (c.recordCairn l pc).readyAt = c.readyAt := rfl
@[simp] theorem Ctx.recordCairn_park (c : Ctx) (l : Bool) (pc : VA) : (c.recordCairn l pc).park = c.park := rfl
@[simp] theorem Ctx.recordCairn_anchor (c : Ctx) (l : Bool) (pc : VA) : (c.recordCairn l pc).anchor = c.anchor := rfl
@[simp] theorem Ctx.recordCairn_dly (c : Ctx) (l : Bool) (pc : VA) : (c.recordCairn l pc).dly = c.dly := rfl
@[simp] theorem Ctx.recordCairn_fault (c : Ctx) (l : Bool) (pc : VA) : (c.recordCairn l pc).fault = c.fault := rfl
@[simp] theorem Ctx.recordCairn_defer (c : Ctx) (l : Bool) (pc : VA) : (c.recordCairn l pc).defer = c.defer := rfl
@[simp] theorem Ctx.recordCairn_left (c : Ctx) (l : Bool) (pc : VA) : (c.recordCairn l pc).left = c.left := rfl
@[simp] theorem Ctx.recordCairn_answer (c : Ctx) (l : Bool) (pc : VA) : (c.recordCairn l pc).answer = c.answer := rfl
@[simp] theorem Ctx.recordCairn_fbuf (c : Ctx) (l : Bool) (pc : VA) : (c.recordCairn l pc).fbuf = c.fbuf := rfl
@[simp] theorem Ctx.recordCairn_floors (c : Ctx) (l : Bool) (pc : VA) : (c.recordCairn l pc).floors = c.floors := rfl
@[simp] theorem Ctx.recordCairn_replay (c : Ctx) (l : Bool) (pc : VA) : (c.recordCairn l pc).replay = c.replay := rfl
@[simp] theorem Ctx.recordCairn_word (c : Ctx) (l : Bool) (pc : VA) : (c.recordCairn l pc).word = c.word := rfl

@[simp] theorem Ctx.reported_live (c : Ctx) (now : Nat) (f : ImpFault) : (c.reported now f).live = c.live := rfl
@[simp] theorem Ctx.reported_pc (c : Ctx) (now : Nat) (f : ImpFault) : (c.reported now f).pc = c.pc := rfl
@[simp] theorem Ctx.reported_g (c : Ctx) (now : Nat) (f : ImpFault) : (c.reported now f).g = c.g := rfl
@[simp] theorem Ctx.reported_v (c : Ctx) (now : Nat) (f : ImpFault) : (c.reported now f).v = c.v := rfl
@[simp] theorem Ctx.reported_p (c : Ctx) (now : Nat) (f : ImpFault) : (c.reported now f).p = c.p := rfl
@[simp] theorem Ctx.reported_hg (c : Ctx) (now : Nat) (f : ImpFault) : (c.reported now f).hg = c.hg := rfl
@[simp] theorem Ctx.reported_rmode (c : Ctx) (now : Nat) (f : ImpFault) : (c.reported now f).rmode = c.rmode := rfl
@[simp] theorem Ctx.reported_tbase (c : Ctx) (now : Nat) (f : ImpFault) : (c.reported now f).tbase = c.tbase := rfl
@[simp] theorem Ctx.reported_cairnpc (c : Ctx) (now : Nat) (f : ImpFault) : (c.reported now f).cairnpc = c.cairnpc := rfl
@[simp] theorem Ctx.reported_cause (c : Ctx) (now : Nat) (f : ImpFault) : (c.reported now f).cause = c.cause := rfl
@[simp] theorem Ctx.reported_epc (c : Ctx) (now : Nat) (f : ImpFault) : (c.reported now f).epc = c.epc := rfl
@[simp] theorem Ctx.reported_faddr (c : Ctx) (now : Nat) (f : ImpFault) : (c.reported now f).faddr = c.faddr := rfl
@[simp] theorem Ctx.reported_finfo (c : Ctx) (now : Nat) (f : ImpFault) : (c.reported now f).finfo = c.finfo := rfl
@[simp] theorem Ctx.reported_fseq (c : Ctx) (now : Nat) (f : ImpFault) : (c.reported now f).fseq = c.fseq := rfl
@[simp] theorem Ctx.reported_xstat (c : Ctx) (now : Nat) (f : ImpFault) : (c.reported now f).xstat = c.xstat := rfl
@[simp] theorem Ctx.reported_mshape (c : Ctx) (now : Nat) (f : ImpFault) : (c.reported now f).mshape = c.mshape := rfl
@[simp] theorem Ctx.reported_image (c : Ctx) (now : Nat) (f : ImpFault) : (c.reported now f).image = c.image := rfl
@[simp] theorem Ctx.reported_pend (c : Ctx) (now : Nat) (f : ImpFault) : (c.reported now f).pend = c.pend := rfl
@[simp] theorem Ctx.reported_anchor (c : Ctx) (now : Nat) (f : ImpFault) : (c.reported now f).anchor = c.anchor := rfl
@[simp] theorem Ctx.reported_suppress (c : Ctx) (now : Nat) (f : ImpFault) : (c.reported now f).suppress = c.suppress := rfl
@[simp] theorem Ctx.reported_issued (c : Ctx) (now : Nat) (f : ImpFault) : (c.reported now f).issued = c.issued := rfl
@[simp] theorem Ctx.reported_defer (c : Ctx) (now : Nat) (f : ImpFault) : (c.reported now f).defer = c.defer := rfl
@[simp] theorem Ctx.reported_left (c : Ctx) (now : Nat) (f : ImpFault) : (c.reported now f).left = c.left := rfl
@[simp] theorem Ctx.reported_answer (c : Ctx) (now : Nat) (f : ImpFault) : (c.reported now f).answer = c.answer := rfl
@[simp] theorem Ctx.reported_fbuf (c : Ctx) (now : Nat) (f : ImpFault) : (c.reported now f).fbuf = c.fbuf := rfl
@[simp] theorem Ctx.reported_floors (c : Ctx) (now : Nat) (f : ImpFault) : (c.reported now f).floors = c.floors := rfl
@[simp] theorem Ctx.reported_replay (c : Ctx) (now : Nat) (f : ImpFault) : (c.reported now f).replay = c.replay := rfl
@[simp] theorem Ctx.reported_word (c : Ctx) (now : Nat) (f : ImpFault) : (c.reported now f).word = c.word := rfl

@[simp] theorem Ctx.leaveTrap_live (c : Ctx) (now : Nat) (st : Stall) : (c.leaveTrap now st).live = c.live := rfl
@[simp] theorem Ctx.leaveTrap_g (c : Ctx) (now : Nat) (st : Stall) : (c.leaveTrap now st).g = c.g := rfl
@[simp] theorem Ctx.leaveTrap_v (c : Ctx) (now : Nat) (st : Stall) : (c.leaveTrap now st).v = c.v := rfl
@[simp] theorem Ctx.leaveTrap_p (c : Ctx) (now : Nat) (st : Stall) : (c.leaveTrap now st).p = c.p := rfl
@[simp] theorem Ctx.leaveTrap_hg (c : Ctx) (now : Nat) (st : Stall) : (c.leaveTrap now st).hg = c.hg := rfl
@[simp] theorem Ctx.leaveTrap_rmode (c : Ctx) (now : Nat) (st : Stall) : (c.leaveTrap now st).rmode = c.rmode := rfl
@[simp] theorem Ctx.leaveTrap_tbase (c : Ctx) (now : Nat) (st : Stall) : (c.leaveTrap now st).tbase = c.tbase := rfl
@[simp] theorem Ctx.leaveTrap_cairnpc (c : Ctx) (now : Nat) (st : Stall) : (c.leaveTrap now st).cairnpc = c.cairnpc := rfl
@[simp] theorem Ctx.leaveTrap_cause (c : Ctx) (now : Nat) (st : Stall) : (c.leaveTrap now st).cause = c.cause := rfl
@[simp] theorem Ctx.leaveTrap_epc (c : Ctx) (now : Nat) (st : Stall) : (c.leaveTrap now st).epc = c.epc := rfl
@[simp] theorem Ctx.leaveTrap_faddr (c : Ctx) (now : Nat) (st : Stall) : (c.leaveTrap now st).faddr = c.faddr := rfl
@[simp] theorem Ctx.leaveTrap_finfo (c : Ctx) (now : Nat) (st : Stall) : (c.leaveTrap now st).finfo = c.finfo := rfl
@[simp] theorem Ctx.leaveTrap_fseq (c : Ctx) (now : Nat) (st : Stall) : (c.leaveTrap now st).fseq = c.fseq := rfl
@[simp] theorem Ctx.leaveTrap_mshape (c : Ctx) (now : Nat) (st : Stall) : (c.leaveTrap now st).mshape = c.mshape := rfl
@[simp] theorem Ctx.leaveTrap_image (c : Ctx) (now : Nat) (st : Stall) : (c.leaveTrap now st).image = c.image := rfl
@[simp] theorem Ctx.leaveTrap_pend (c : Ctx) (now : Nat) (st : Stall) : (c.leaveTrap now st).pend = c.pend := rfl
@[simp] theorem Ctx.leaveTrap_park (c : Ctx) (now : Nat) (st : Stall) : (c.leaveTrap now st).park = c.park := rfl
@[simp] theorem Ctx.leaveTrap_anchor (c : Ctx) (now : Nat) (st : Stall) : (c.leaveTrap now st).anchor = c.anchor := rfl
@[simp] theorem Ctx.leaveTrap_dly (c : Ctx) (now : Nat) (st : Stall) : (c.leaveTrap now st).dly = c.dly := rfl
@[simp] theorem Ctx.leaveTrap_suppress (c : Ctx) (now : Nat) (st : Stall) : (c.leaveTrap now st).suppress = c.suppress := rfl
@[simp] theorem Ctx.leaveTrap_issued (c : Ctx) (now : Nat) (st : Stall) : (c.leaveTrap now st).issued = c.issued := rfl
@[simp] theorem Ctx.leaveTrap_fault (c : Ctx) (now : Nat) (st : Stall) : (c.leaveTrap now st).fault = c.fault := rfl
@[simp] theorem Ctx.leaveTrap_defer (c : Ctx) (now : Nat) (st : Stall) : (c.leaveTrap now st).defer = c.defer := rfl
@[simp] theorem Ctx.leaveTrap_left (c : Ctx) (now : Nat) (st : Stall) : (c.leaveTrap now st).left = c.left := rfl
@[simp] theorem Ctx.leaveTrap_answer (c : Ctx) (now : Nat) (st : Stall) : (c.leaveTrap now st).answer = c.answer := rfl
@[simp] theorem Ctx.leaveTrap_fbuf (c : Ctx) (now : Nat) (st : Stall) : (c.leaveTrap now st).fbuf = [] := rfl
@[simp] theorem Ctx.leaveTrap_floors (c : Ctx) (now : Nat) (st : Stall) : (c.leaveTrap now st).floors = c.floors := rfl
@[simp] theorem Ctx.leaveTrap_replay (c : Ctx) (now : Nat) (st : Stall) : (c.leaveTrap now st).replay = c.replay := rfl
@[simp] theorem Ctx.leaveTrap_word (c : Ctx) (now : Nat) (st : Stall) : (c.leaveTrap now st).word = c.word := rfl

end Sys2Proof.Machine
end

