-- ==== Sys2Proof/Laws/Issue.lean ====
section
/-! SUPPORT. What issuing a word does before and after the word's own effect: the checks, the anchor, the issue slot, and
the results under way. -/

namespace Sys2Proof.Machine

set_option Elab.async false

/-! ### The start of a word -/

@[simp] theorem State.begin_act (s : State) : s.begin.act = s.act := rfl
@[simp] theorem State.begin_now (s : State) : s.begin.now = s.now := rfl
@[simp] theorem State.begin_me (s : State) : s.begin.me = s.me.anchored s.now := by
  simp [State.begin, State.me, State.ctx, State.onMyCore, State.onCore, State.setCore, State.core, Core.ctx, Core.setCtx]
@[simp] theorem Ctx.anchored_hm (c : Ctx) (n : Nat) : (c.anchored n).hm = c.hm := rfl
@[simp] theorem Ctx.anchored_gget (c : Ctx) (n : Nat) (r : Reg) : (c.anchored n).gget r = c.gget r := rfl
@[simp] theorem Ctx.anchored_vget (c : Ctx) (n : Nat) (r : VReg) : (c.anchored n).vget r = c.vget r := rfl
@[simp] theorem Ctx.anchored_pget (c : Ctx) (n : Nat) (r : PReg) : (c.anchored n).pget r = c.pget r := rfl
@[simp] theorem State.begin_g (s : State) (r : Reg) : s.begin.g r = s.g r := by simp [State.g]
@[simp] theorem State.begin_v (s : State) (r : VReg) : s.begin.v r = s.v r := by simp [State.v]
@[simp] theorem State.begin_p (s : State) (r : PReg) : s.begin.p r = s.p r := by simp [State.p]
@[simp] theorem State.begin_mode (s : State) : s.begin.mode = s.mode := by simp [State.mode]
theorem State.begin_myCore (s : State) : s.begin.myCore = { s.myCore with
    ctxs := s.begin.myCore.ctxs, last := s.act.2, slotAt := s.now + 1 } := by
  simp [State.begin, State.myCore, State.onMyCore, State.onCore, State.setCore, State.core, Core.setCtx]
theorem State.begin_onlyMe (s : State) : OnlyMe s s.begin := by
  refine ⟨rfl, fun n h => ?_, ?_, fun k h => ?_⟩
  · simp [State.begin, State.onMyCore, State.onCore, h]
  · exact s.begin_myCore
  · simp [State.begin, State.ctx, State.onMyCore, State.onCore, State.setCore, State.core, Core.ctx, Core.setCtx, h]

theorem State.begin_flightVA (s : State) (i : Instr) : s.begin.flightVA i = s.flightVA i := by
  have hw : s.begin.myCore.wins = s.myCore.wins := by rw [s.begin_myCore]
  simp only [State.flightVA, State.mAddr, State.begin_g, hw]
theorem Ctx.scoreboard_anchored (c : Ctx) (n m : Nat) (u : Uses) (L : Nat) :
    scoreboard (c.anchored n) m u L = scoreboard c m u L := rfl
theorem State.begin_board (s : State) (i : Instr) : s.begin.board i = s.board i := by
  have hl : s.begin.lat = s.lat := rfl
  simp only [State.board, State.landsIn, State.begin_flightVA, State.begin_me, State.begin_now,
    Ctx.scoreboard_anchored, hl]

/-- A word whose common checks pass carries out its body. -/
theorem State.issue_ready {i : Instr} {s : State} (h : Ready i s) (body : State → State) :
    s.issue i body = body s.begin := by
  obtain ⟨hf, hl, hc⟩ := h
  have hck : s.begin.myCore.check = s.myCore.check := by rw [s.begin_myCore]
  have hfl : (s.me.anchored s.now).faulted = false := by simp only [Ctx.faulted, Ctx.anchored_fault, hf]
  have hln : (s.act.2 != 0 && namesLeadOnly (uses i)) = false := by rcases hl with h | h <;> simp [h]
  have hb : (if s.myCore.check.getLsbD 0 = true then s.board i else none) = none := by
    rcases hc with h | h
    · rw [if_neg (by rw [h]; exact Bool.false_ne_true)]
    · rw [h, ite_self]
  simp only [State.issue, State.begin_me, State.begin_act, hfl, hln, hck, State.begin_board, hb, Bool.false_and,
    Bool.false_eq_true, if_false]

/-! ### Only the acting context -/

theorem OnlyMe.onMe {s t : State} (h : OnlyMe s t) (ha : t.act = s.act) (f : Ctx → Ctx) : OnlyMe s (t.onMe f) := by
  obtain ⟨h1, h2, h3, h4⟩ := h
  refine ⟨by rw [h1]; rfl, fun n hn => ?_, ?_, fun k hk => ?_⟩
  · rw [← h2 n hn]; simp [State.onMe, State.onCtx, State.setCtx, ha, hn]
  · have e : (t.onMe f).myCore = { t.myCore with ctxs := (t.onMe f).myCore.ctxs } := by
      simp [State.onMe, State.onCtx, State.myCore, State.setCtx, State.setCore, State.core, Core.setCtx]
    rw [e, h3]
  · rw [← h4 k hk]
    simp [State.onMe, State.onCtx, State.setCtx, State.ctx, ha, State.setCore, State.core, Core.ctx, Core.setCtx, hk]

/-! ### Results under way (R132, R133) -/

theorem Ctx.gget_gIn (c : Ctx) (r : Reg) : c.gget r = c.gIn c.hm r := rfl
theorem regIdx_inj {q r : Reg} : regIdx q = regIdx r ↔ q = r := by
  simp [regIdx, Fin.ext_iff, BitVec.toNat_inj]
theorem bankIdx_inj {q r : Reg} (hq : 24 ≤ q.toNat) (hr : 24 ≤ r.toNat) : bankIdx q = bankIdx r ↔ q = r := by
  simp only [bankIdx, Fin.ext_iff, ← BitVec.toNat_inj]
  have := q.isLt; have := r.isLt; omega

theorem Ctx.gIn_zero (c : Ctx) (h : Bool) : c.gIn h 0 = 0 := rfl
theorem Ctx.gsetIn_zero (c : Ctx) (h : Bool) (x : W64) : c.gsetIn h 0 x = c := rfl
theorem Ctx.gIn_of_bank (c : Ctx) {h : Bool} {r : Reg} (e : (h && decide (24 ≤ r.toNat)) = true) :
    c.gIn h r = c.hg.get (bankIdx r) := by
  have : r ≠ 0 := by rintro rfl; simp at e
  rw [Ctx.gIn, if_neg this, if_pos e]
theorem Ctx.gIn_of_file (c : Ctx) {h : Bool} {r : Reg} (hr : r ≠ 0) (e : (h && decide (24 ≤ r.toNat)) = false) :
    c.gIn h r = c.g.get (regIdx r) := by
  rw [Ctx.gIn, if_neg hr, if_neg (by rw [e]; simp)]
theorem Ctx.gsetIn_of_bank (c : Ctx) {h : Bool} {r : Reg} (x : W64) (e : (h && decide (24 ≤ r.toNat)) = true) :
    c.gsetIn h r x = { c with hg := c.hg.set (bankIdx r) x } := by
  have : r ≠ 0 := by rintro rfl; simp at e
  rw [Ctx.gsetIn, if_neg this, if_pos e]
theorem Ctx.gsetIn_of_file (c : Ctx) {h : Bool} {r : Reg} (x : W64) (hr : r ≠ 0) (e : (h && decide (24 ≤ r.toNat)) = false) :
    c.gsetIn h r x = { c with g := c.g.set (regIdx r) x } := by
  rw [Ctx.gsetIn, if_neg hr, if_neg (by rw [e]; simp)]
theorem sameReg_iff {h h' : Bool} {q r : Reg} : sameReg h h' q r = true ↔ q = r ∧ (h = h' ∨ q.toNat < 24) := by
  simp [sameReg]

/-- Writing a register and reading another name of it. -/
theorem Ctx.gIn_gsetIn (c : Ctx) (h h' : Bool) (q r : Reg) (x : W64) (hr : r ≠ 0) :
    (c.gsetIn h' r x).gIn h q = if sameReg h h' q r then x else c.gIn h q := by
  by_cases hq : q = 0
  · subst hq
    have : sameReg h h' 0 r = false := by
      rw [Bool.eq_false_iff]; intro e; exact hr (sameReg_iff.1 e).1.symm
    rw [Ctx.gIn_zero, this, Ctx.gIn_zero]; rfl
  have e0 : ∀ (v : Vector W64 32) (i j : Fin 32), (v.set i.val x i.isLt).get j = if i = j then x else v.get j := by
    intro v i j; change (v.set i.val x i.isLt)[j.val] = _; rw [Vector.getElem_set]; simp only [Fin.ext_iff]; rfl
  have e1 : ∀ (v : Vector W64 8) (i j : Fin 8), (v.set i.val x i.isLt).get j = if i = j then x else v.get j := by
    intro v i j; change (v.set i.val x i.isLt)[j.val] = _; rw [Vector.getElem_set]; simp only [Fin.ext_iff]; rfl
  have key : sameReg h h' q r = true ↔ q = r ∧ (h = h' ∨ q.toNat < 24) := sameReg_iff
  cases a : (h' && decide (24 ≤ r.toNat)) <;> cases b : (h && decide (24 ≤ q.toNat))
  · rw [c.gsetIn_of_file x hr a, Ctx.gIn_of_file _ hq b, c.gIn_of_file hq b]
    show (c.g.set (regIdx r).val x (regIdx r).isLt).get (regIdx q) = _
    rw [e0]
    simp only [regIdx_inj]
    have : r = q ↔ sameReg h h' q r = true := by
      rw [key]; constructor
      · rintro rfl; refine ⟨rfl, ?_⟩; cases h <;> cases h' <;> simp_all
      · exact fun e => e.1.symm
    simp only [this]
  · rw [c.gsetIn_of_file x hr a, Ctx.gIn_of_bank _ b, c.gIn_of_bank b]
    have : sameReg h h' q r = false := by
      rw [Bool.eq_false_iff]; intro e'; have ⟨e2, e⟩ := key.1 e'; subst e2
      simp only [Bool.and_eq_true, decide_eq_true_eq, Bool.and_eq_false_iff, decide_eq_false_iff_not] at a b
      rcases e with e | e
      · subst e; rcases a with a | a <;> simp_all
      · omega
    rw [this]; rfl
  · rw [c.gsetIn_of_bank x a, Ctx.gIn_of_file _ hq b, c.gIn_of_file hq b]
    have : sameReg h h' q r = false := by
      rw [Bool.eq_false_iff]; intro e'; have ⟨e2, e⟩ := key.1 e'; subst e2
      simp only [Bool.and_eq_true, decide_eq_true_eq, Bool.and_eq_false_iff, decide_eq_false_iff_not] at a b
      rcases e with e | e
      · subst e; rcases b with b | b <;> simp_all
      · omega
    rw [this]; rfl
  · rw [c.gsetIn_of_bank x a, Ctx.gIn_of_bank _ b, c.gIn_of_bank b]
    show (c.hg.set (bankIdx r).val x (bankIdx r).isLt).get (bankIdx q) = _
    rw [e1]
    simp only [Bool.and_eq_true, decide_eq_true_eq] at a b
    simp only [bankIdx_inj a.2 b.2]
    have : r = q ↔ sameReg h h' q r = true := by
      rw [key]; constructor
      · rintro rfl; exact ⟨rfl, .inl (by rw [a.1, b.1])⟩
      · exact fun e => e.1.symm
    simp only [this]

/-- A report changes a context's pending fault and its wait, and nothing else. -/
theorem Ctx.reported_frame (c : Ctx) (now : Nat) (f : ImpFault) : c.reported now f = { c with
    fault := (c.reported now f).fault, park := (c.reported now f).park, readyAt := (c.reported now f).readyAt, dly := (c.reported now f).dly } := rfl

/-! ### The order in which results land (R133) -/

theorem Pend.insert_before {p : Pend} {l : List Pend} (h : ∀ q ∈ l, p.time < q.time) : p.insert l = p :: l := by
  cases l with
  | nil => rfl
  | cons q t => rw [Pend.insert, if_pos (h q (by simp))]
theorem Pend.insert_after {p : Pend} {l : List Pend} (h : ∀ q ∈ l, q.time ≤ p.time) : p.insert l = l ++ [p] := by
  induction l with
  | nil => rfl
  | cons q t ih =>
    rw [Pend.insert, if_neg (by have := h q (by simp); omega), ih fun x hx => h x (by simp [hx])]; rfl
theorem Pend.mem_insert {p x : Pend} {l : List Pend} : x ∈ p.insert l ↔ x = p ∨ x ∈ l := by
  induction l with
  | nil => simp [Pend.insert]
  | cons q t ih =>
    rw [Pend.insert]; split
    · simp
    · rw [List.mem_cons, ih, List.mem_cons]; constructor <;> (intro h; rcases h with h | h | h <;> simp [h])
theorem Pend.insert_sorted {p : Pend} {l : List Pend} (h : l.Pairwise fun a b => a.time ≤ b.time) :
    (p.insert l).Pairwise fun a b => a.time ≤ b.time := by
  induction l with
  | nil => simp [Pend.insert]
  | cons q t ih =>
    have h' := List.pairwise_cons.1 h
    rw [Pend.insert]; split
    · rename_i e
      refine List.pairwise_cons.2 ⟨fun x hx => ?_, h⟩
      rcases List.mem_cons.1 hx with rfl | hx
      · omega
      · have := h'.1 x hx; omega
    · refine List.pairwise_cons.2 ⟨fun x hx => ?_, ih h'.2⟩
      rcases Pend.mem_insert.1 hx with rfl | hx
      · omega
      · exact h'.1 x hx
theorem Pend.filter_insert (k : Pend → Bool) {p : Pend} {l : List Pend} (h : l.Pairwise fun a b => a.time ≤ b.time) :
    (p.insert l).filter k = if k p then p.insert (l.filter k) else l.filter k := by
  induction l with
  | nil => cases e : k p <;> simp [Pend.insert, e]
  | cons q t ih =>
    have h' := List.pairwise_cons.1 h
    rw [Pend.insert]; split
    · rename_i lt
      have : ∀ x ∈ (q :: t).filter k, p.time < x.time := by
        intro x hx
        rcases List.mem_cons.1 (List.mem_filter.1 hx).1 with rfl | hx
        · exact lt
        · have := h'.1 x hx; omega
      rw [Pend.insert_before this, List.filter_cons]
    · rename_i nlt
      rw [List.filter_cons, ih h'.2]
      cases kq : k q <;> cases kp : k p <;> simp [List.filter_cons, kq, Pend.insert, nlt]
theorem inTime_append (l : List Pend) (p : Pend) : inTime (l ++ [p]) = p.insert (inTime l) := by
  rw [inTime, List.foldl_append]; rfl
theorem inTime_sorted (l : List Pend) : (inTime l).Pairwise fun a b => a.time ≤ b.time := by
  have : ∀ (l a : List Pend), a.Pairwise (fun a b => a.time ≤ b.time) →
      (l.foldl (fun a p => p.insert a) a).Pairwise fun a b => a.time ≤ b.time := by
    intro l; induction l with
    | nil => exact fun _ h => h
    | cons p l ih => exact fun a h => ih _ (Pend.insert_sorted h)
  exact this l [] List.Pairwise.nil
theorem mem_inTime {x : Pend} {l : List Pend} : x ∈ inTime l ↔ x ∈ l := by
  have : ∀ (l a : List Pend), x ∈ l.foldl (fun a p => p.insert a) a ↔ x ∈ a ∨ x ∈ l := by
    intro l; induction l with
    | nil => intro a; simp
    | cons p l ih =>
      intro a; rw [List.foldl_cons, ih, Pend.mem_insert, List.mem_cons, or_assoc, or_left_comm]
  simpa [inTime] using this l []
/-- Leaving results out does not change the order of the others. -/
theorem inTime_filter (k : Pend → Bool) (l : List Pend) : inTime (l.filter k) = (inTime l).filter k := by
  have : ∀ (l a : List Pend), a.Pairwise (fun a b => a.time ≤ b.time) →
      (l.filter k).foldl (fun a p => p.insert a) (a.filter k) = (l.foldl (fun a p => p.insert a) a).filter k := by
    intro l; induction l with
    | nil => exact fun _ _ => rfl
    | cons p l ih =>
      intro a h
      rw [List.foldl_cons, ← ih _ (Pend.insert_sorted h), Pend.filter_insert k h, List.filter_cons]
      split <;> rfl
  exact this l [] List.Pairwise.nil
/-- A result that changes nothing may land anywhere among the others. -/
theorem foldl_insert_id {β : Type} (f : β → Pend → β) {p : Pend} (h : ∀ b, f b p = b) (l : List Pend) (b : β) :
    (p.insert l).foldl f b = l.foldl f b := by
  induction l generalizing b with
  | nil => exact h b
  | cons q t ih =>
    rw [Pend.insert]; split
    · rw [List.foldl_cons, h]
    · rw [List.foldl_cons, List.foldl_cons, ih]

/-- A landing result changes only what it names. -/
theorem Pend.gIn_land (c : Ctx) (p : Pend) (h : Bool) (q : Reg) : (p.land c).gIn h q = match p with
    | .g _ h' r x => if r ≠ 0 ∧ sameReg h h' q r = true then x else c.gIn h q
    | .v _ _ _ _ => c.gIn h q
    | .p _ _ _ => c.gIn h q
    | .report _ _ => c.gIn h q := by
  cases p with
  | g t h' r x =>
    show (c.gsetIn h' r x).gIn h q = if r ≠ 0 ∧ sameReg h h' q r = true then x else c.gIn h q
    by_cases hr : r = 0
    · subst hr; rw [if_neg fun e => e.1 rfl]; rfl
    · rw [Ctx.gIn_gsetIn c h h' q r x hr]
      by_cases e : sameReg h h' q r = true
      · rw [if_pos e, if_pos ⟨hr, e⟩]
      · rw [if_neg e, if_neg fun k => e k.2]
  | v t r m x => rfl
  | p t r x => simp only [Pend.land, Ctx.pset]; split <;> rfl
  | report t f => simp only [Pend.land]; rw [Ctx.reported_frame]; rfl

/-- What one landing does to the value of one general register. -/
def Pend.onG (h : Bool) (q : Reg) (v : W64) : Pend → W64
  | .g _ h' r x => if r ≠ 0 ∧ sameReg h h' q r = true then x else v
  | .v _ _ _ _ => v
  | .p _ _ _ => v
  | .report _ _ => v
/-- … to the vector registers. -/
def Pend.onV (v : Vector Lanes 32) : Pend → Vector Lanes 32
  | .g _ _ _ _ => v
  | .v _ r m x => v.set (regIdx r) (Vector.ofFn fun i => if m.getLsbD i.val then x.get i else (v.get (regIdx r)).get i)
  | .p _ _ _ => v
  | .report _ _ => v
/-- … to the predicates. -/
def Pend.onP (v : Vector W64 8) : Pend → Vector W64 8
  | .g _ _ _ _ => v
  | .v _ _ _ _ => v
  | .p _ r x => if r = 0 then v else v.set (predIdx r) (x &&& 0xFFFF)
  | .report _ _ => v

theorem Pend.land_gIn (c : Ctx) (p : Pend) (h : Bool) (q : Reg) : (p.land c).gIn h q = p.onG h q (c.gIn h q) := by
  rw [Pend.gIn_land]; cases p <;> rfl
theorem Ctx.gsetIn_v (c : Ctx) (h : Bool) (r : Reg) (x : W64) : (c.gsetIn h r x).v = c.v := by
  simp only [Ctx.gsetIn]; split
  · rfl
  · split <;> rfl
theorem Ctx.gsetIn_p (c : Ctx) (h : Bool) (r : Reg) (x : W64) : (c.gsetIn h r x).p = c.p := by
  simp only [Ctx.gsetIn]; split
  · rfl
  · split <;> rfl
theorem Pend.land_v (c : Ctx) (p : Pend) : (p.land c).v = p.onV c.v := by
  cases p with
  | g t h r x => exact c.gsetIn_v h r x
  | v t r m x => rfl
  | p t r x => simp only [Pend.land, Ctx.pset]; split <;> rfl
  | report t f => simp only [Pend.land]; rw [Ctx.reported_frame]; rfl
theorem Pend.land_p (c : Ctx) (p : Pend) : (p.land c).p = p.onP c.p := by
  cases p with
  | g t h r x => exact c.gsetIn_p h r x
  | v t r m x => rfl
  | p t r x => simp only [Pend.land, Ctx.pset, Pend.onP]; split <;> rfl
  | report t f => simp only [Pend.land]; rw [Ctx.reported_frame]; rfl

theorem foldl_land_gIn (l : List Pend) (c : Ctx) (h : Bool) (q : Reg) :
    (l.foldl Pend.land c).gIn h q = l.foldl (Pend.onG h q) (c.gIn h q) := by
  induction l generalizing c with
  | nil => rfl
  | cons p l ih => simp only [List.foldl_cons, ih, Pend.land_gIn]
theorem foldl_land_v (l : List Pend) (c : Ctx) : (l.foldl Pend.land c).v = l.foldl Pend.onV c.v := by
  induction l generalizing c with
  | nil => rfl
  | cons p l ih => simp only [List.foldl_cons, ih, Pend.land_v]
theorem foldl_land_p (l : List Pend) (c : Ctx) : (l.foldl Pend.land c).p = l.foldl Pend.onP c.p := by
  induction l generalizing c with
  | nil => rfl
  | cons p l ih => simp only [List.foldl_cons, ih, Pend.land_p]

theorem Ctx.landAll_gIn (c : Ctx) (t : Nat) (h : Bool) (q : Reg) :
    (c.landAll t).gIn h q = (inTime (c.pend.filter fun p => decide (p.time ≤ t))).foldl (Pend.onG h q) (c.gIn h q) :=
  foldl_land_gIn _ _ _ _
theorem Ctx.landAll_v (c : Ctx) (t : Nat) :
    (c.landAll t).v = (inTime (c.pend.filter fun p => decide (p.time ≤ t))).foldl Pend.onV c.v := foldl_land_v _ _
theorem Ctx.landAll_p (c : Ctx) (t : Nat) :
    (c.landAll t).p = (inTime (c.pend.filter fun p => decide (p.time ≤ t))).foldl Pend.onP c.p := foldl_land_p _ _

/-- Elements that do nothing may be left out of a fold. -/
theorem foldl_filter_id {α β : Type} (f : β → α → β) (p : α → Bool) (l : List α) (b : β)
    (h : ∀ b a, p a = false → f b a = b) : (l.filter p).foldl f b = l.foldl f b := by
  induction l generalizing b with
  | nil => rfl
  | cons a l ih =>
    cases e : p a
    · rw [List.filter_cons_of_neg (by simp [e]), List.foldl_cons, h _ _ e, ih]
    · rw [List.filter_cons_of_pos e, List.foldl_cons, List.foldl_cons, ih]

/-- The landing of results does not move the mode bit. -/
theorem Pend.land_xstat (c : Ctx) (p : Pend) : (p.land c).xstat = c.xstat := by
  cases p with
  | g t h r x => simp only [Pend.land, Ctx.gsetIn]; split
                 · rfl
                 · split <;> rfl
  | v t r m x => rfl
  | p t r x => simp only [Pend.land, Ctx.pset]; split <;> rfl
  | report t f => simp only [Pend.land]; rw [Ctx.reported_frame]
theorem Ctx.landAll_xstat (c : Ctx) (t : Nat) : (c.landAll t).xstat = c.xstat := by
  have : ∀ (l : List Pend) (c : Ctx), (l.foldl Pend.land c).xstat = c.xstat := by
    intro l; induction l with
    | nil => intro c; rfl
    | cons p l ih => intro c; rw [List.foldl_cons, ih, Pend.land_xstat]
  exact this _ _
theorem Ctx.gAt_eq (c : Ctx) (t : Nat) (r : Reg) : c.gAt t r = (c.landAll t).gIn c.hm r := by
  show (c.landAll t).gIn (c.landAll t).hm r = _
  rw [Ctx.hm, Ctx.landAll_xstat, Ctx.hm]

/-! ### A fixed-latency result (R132, R133) -/

theorem Ctx.gput_zero (c : Ctx) (now l : Nat) (x : W64) : c.gput now l 0 x = c := rfl
theorem Ctx.gput_fast (c : Ctx) (now l : Nat) {r : Reg} (x : W64) (hr : r ≠ 0) (hl : l ≤ 1) :
    c.gput now l r x = { c.gset r x with pend := c.pend.filter fun p => !p.overG c.hm r (now + 1) } := by
  rw [Ctx.gput, if_neg hr, if_pos hl]
theorem Ctx.gput_slow (c : Ctx) (now l : Nat) {r : Reg} (x : W64) (hr : r ≠ 0) (hl : 1 < l) :
    c.gput now l r x = { c with pend := c.pend ++ [.g (now + l) c.hm r x] } := by
  rw [Ctx.gput, if_neg hr, if_neg (by omega)]

/-- The fields a register write leaves alone: all but the two banks and the results under way. -/
theorem Ctx.gput_frame (c : Ctx) (now l : Nat) (r : Reg) (x : W64) :
    c.gput now l r x = { c with g := (c.gput now l r x).g, hg := (c.gput now l r x).hg, pend := (c.gput now l r x).pend } := by
  by_cases hr : r = 0
  · subst hr; rfl
  by_cases hl : l ≤ 1
  · rw [c.gput_fast now l x hr hl, Ctx.gset, Ctx.gsetIn, if_neg hr]; split <;> rfl
  · rw [c.gput_slow now l x hr (by omega)]

theorem Pend.onG_of_overG {h h' : Bool} {q r : Reg} {t : Nat} {p : Pend} (v : W64) (hp : p.overG h' r t = true)
    (hn : sameReg h h' q r = false) : p.onG h q v = v := by
  cases p with
  | g u k r' x =>
    simp only [Pend.overG, Bool.and_eq_true] at hp
    have e := sameReg_iff.1 hp.1
    have : sameReg h k q r' = false := by
      rw [Bool.eq_false_iff] at hn ⊢
      intro e2
      have e2 := sameReg_iff.1 e2
      apply hn; rw [sameReg_iff]
      refine ⟨e2.1.trans e.1, ?_⟩
      rcases e2.2 with a | a
      · rcases e.2 with b | b
        · exact .inl (a.trans b)
        · exact .inr (by rw [e2.1]; exact b)
      · exact .inr a
    simp only [Pend.onG, this, Bool.false_eq_true, and_false, if_false]
  | v _ _ _ _ => rfl
  | p _ _ _ => rfl
  | report _ _ => rfl
theorem Pend.onV_of_overG {h' : Bool} {r : Reg} {t : Nat} {p : Pend} (v) (hp : p.overG h' r t = true) : p.onV v = v := by
  cases p with
  | g _ _ _ _ => rfl
  | v _ _ _ _ => simp [Pend.overG] at hp
  | p _ _ _ => rfl
  | report _ _ => rfl
theorem Pend.onP_of_overG {h' : Bool} {r : Reg} {t : Nat} {p : Pend} (v) (hp : p.overG h' r t = true) : p.onP v = v := by
  cases p with
  | g _ _ _ _ => rfl
  | v _ _ _ _ => rfl
  | p _ _ _ => simp [Pend.overG] at hp
  | report _ _ => rfl

/-- Every other general register holds at every cycle what it would have held. -/
theorem Ctx.gput_keepsG (c : Ctx) (now l : Nat) (r : Reg) (x : W64) : KeepsG c (c.gput now l r x) r := by
  intro t h q hn
  by_cases hr : r = 0
  · subst hr; rfl
  by_cases hl : l ≤ 1
  · rw [c.gput_fast now l x hr hl, Ctx.landAll_gIn, Ctx.landAll_gIn]
    show List.foldl _ ((c.gsetIn c.hm r x).gIn h q) _ = _
    rw [Ctx.gIn_gsetIn _ _ _ _ _ _ hr, hn]
    simp only [Bool.false_eq_true, if_false, List.filter_filter]
    have : (c.pend.filter fun p => decide (p.time ≤ t) && !p.overG c.hm r (now + 1)) =
        (c.pend.filter fun p => decide (p.time ≤ t)).filter fun p => !p.overG c.hm r (now + 1) := by
      rw [List.filter_filter]; congr 1; funext p; rw [Bool.and_comm]
    rw [this, inTime_filter, foldl_filter_id]
    intro v p hp
    exact Pend.onG_of_overG v (by simpa using hp) hn
  · rw [c.gput_slow now l x hr (by omega), Ctx.landAll_gIn, Ctx.landAll_gIn]
    show List.foldl _ (c.gIn h q) (inTime (List.filter _ (c.pend ++ [_]))) = _
    have : ∀ v, Pend.onG h q v (.g (now + l) c.hm r x) = v := fun v => by simp [Pend.onG, hn]
    by_cases e : now + l ≤ t <;> simp [List.filter_append, Pend.time, e, inTime_append, foldl_insert_id _ this]
/-- A register write leaves the vector registers and the predicates alone. -/
theorem Ctx.gput_keepsVP (c : Ctx) (now l : Nat) (r : Reg) (x : W64) : KeepsVP c (c.gput now l r x) := by
  have key : (∀ t, ((c.gput now l r x).landAll t).v = (c.landAll t).v) ∧ ∀ t, ((c.gput now l r x).landAll t).p = (c.landAll t).p := by
    by_cases hr : r = 0
    · subst hr; exact ⟨fun _ => rfl, fun _ => rfl⟩
    have sw : ∀ t, (c.pend.filter fun p => decide (p.time ≤ t) && !p.overG c.hm r (now + 1)) =
        (c.pend.filter fun p => decide (p.time ≤ t)).filter fun p => !p.overG c.hm r (now + 1) := by
      intro t; rw [List.filter_filter]; congr 1; funext p; rw [Bool.and_comm]
    by_cases hl : l ≤ 1
    · rw [c.gput_fast now l x hr hl]
      constructor <;> intro t
      · rw [Ctx.landAll_v, Ctx.landAll_v]
        show List.foldl _ (c.gsetIn c.hm r x).v (inTime (List.filter _ (c.pend.filter _))) = _
        rw [Ctx.gsetIn_v, List.filter_filter, sw, inTime_filter, foldl_filter_id]
        intro v p hp; exact Pend.onV_of_overG v (by simpa using hp)
      · rw [Ctx.landAll_p, Ctx.landAll_p]
        show List.foldl _ (c.gsetIn c.hm r x).p (inTime (List.filter _ (c.pend.filter _))) = _
        rw [Ctx.gsetIn_p, List.filter_filter, sw, inTime_filter, foldl_filter_id]
        intro v p hp; exact Pend.onP_of_overG v (by simpa using hp)
    · rw [c.gput_slow now l x hr (by omega)]
      constructor <;> intro t
      · rw [Ctx.landAll_v, Ctx.landAll_v]
        show List.foldl _ c.v (inTime (List.filter _ (c.pend ++ [_]))) = _
        have : ∀ v, Pend.onV v (.g (now + l) c.hm r x) = v := fun v => rfl
        by_cases e : now + l ≤ t <;> simp [List.filter_append, Pend.time, e, inTime_append, foldl_insert_id _ this]
      · rw [Ctx.landAll_p, Ctx.landAll_p]
        show List.foldl _ c.p (inTime (List.filter _ (c.pend ++ [_]))) = _
        have : ∀ v, Pend.onP v (.g (now + l) c.hm r x) = v := fun v => rfl
        by_cases e : now + l ≤ t <;> simp [List.filter_append, Pend.time, e, inTime_append, foldl_insert_id _ this]
  constructor <;> intro t q
  · simp only [Ctx.vAt, Ctx.vget, key.1]
  · simp only [Ctx.pAt, Ctx.pget, key.2]
/-- The register gets its value `l` cycles later, and not before. -/
theorem Ctx.gput_gAt (c : Ctx) (now : Nat) {l : Nat} (hl : 1 ≤ l) (r : Reg) (x : W64) :
    (c.gput now l r x).gAt (now + l) r = (if r = 0 then 0 else x) ∧
      ∀ u, l ≠ 1 → u < now + l → (c.gput now l r x).gAt u r = c.gAt u r := by
  by_cases hr : r = 0
  · subst hr
    refine ⟨?_, fun u _ _ => rfl⟩
    rw [Ctx.gAt_eq, Ctx.gIn_zero]; rfl
  have hm : (c.gput now l r x).hm = c.hm := by rw [c.gput_frame]; rfl
  rw [if_neg hr]
  by_cases h1 : l = 1
  · subst h1
    refine ⟨?_, fun u h => absurd rfl h⟩
    rw [Ctx.gAt_eq, hm, c.gput_fast now 1 x hr (by omega), Ctx.landAll_gIn]
    show List.foldl _ ((c.gsetIn c.hm r x).gIn c.hm r) _ = _
    have s1 : sameReg c.hm c.hm r r = true := sameReg_iff.2 ⟨rfl, .inl rfl⟩
    rw [Ctx.gIn_gsetIn _ _ _ _ _ _ hr, if_pos s1]
    have : ∀ (l : List Pend), (∀ p ∈ l, p.overG c.hm r (now + 1) = false ∧ p.time ≤ now + 1) →
        l.foldl (Pend.onG c.hm r) x = x := by
      intro l
      induction l with
      | nil => intro _; rfl
      | cons p l ih =>
        intro hp
        have e := hp p (by simp)
        rw [List.foldl_cons]
        have : p.onG c.hm r x = x := by
          cases p with
          | g u k r' y =>
            have e1 := e.1
            simp only [Pend.overG, Bool.and_eq_false_iff, decide_eq_false_iff_not] at e1
            have e2 : u ≤ now + 1 := e.2
            have e3 : sameReg k c.hm r' r = false := by
              rcases e1 with e1 | e1
              · exact e1
              · omega
            have : sameReg c.hm k r r' = false := by
              rw [Bool.eq_false_iff] at e3 ⊢
              intro h; apply e3; rw [sameReg_iff] at h ⊢
              exact ⟨h.1.symm, h.2.elim (fun a => .inl a.symm) fun a => .inr (by rw [← h.1]; exact a)⟩
            simp [Pend.onG, this]
          | v _ _ _ _ => rfl
          | p _ _ _ => rfl
          | report _ _ => rfl
        rw [this, ih fun q hq => hp q (by simp [hq])]
    apply this
    intro p hp
    rw [mem_inTime] at hp
    simp only [List.mem_filter, decide_eq_true_eq, Bool.not_eq_eq_eq_not, Bool.not_true] at hp
    exact ⟨hp.1.2, hp.2⟩
  · have hs := c.gput_slow now l x hr (by omega)
    constructor
    · rw [Ctx.gAt_eq, hm, hs, Ctx.landAll_gIn]
      show List.foldl _ (c.gIn c.hm r) (inTime (List.filter _ (c.pend ++ [_]))) = _
      have s1 : sameReg c.hm c.hm r r = true := sameReg_iff.2 ⟨rfl, .inl rfl⟩
      rw [List.filter_append, List.filter_cons_of_pos (by simp [Pend.time])]
      show List.foldl _ (c.gIn c.hm r) (inTime (_ ++ [_])) = _
      rw [inTime_append, Pend.insert_after (by intro q hq; exact of_decide_eq_true (List.mem_filter.1 (mem_inTime.1 hq)).2), List.foldl_append]
      show (if r ≠ 0 ∧ sameReg c.hm c.hm r r = true then x else _) = x
      rw [if_pos ⟨hr, s1⟩]
    · intro u _ hu
      rw [Ctx.gAt_eq, Ctx.gAt_eq, hm, hs, Ctx.landAll_gIn, Ctx.landAll_gIn]
      show List.foldl _ (c.gIn c.hm r) (inTime (List.filter _ (c.pend ++ [_]))) = _
      rw [List.filter_append, List.filter_cons_of_neg (by show ¬ decide (now + l ≤ u) = true; simp; omega)]
      simp

/-! ### The end of a word -/

/-- A word that writes one general register and is done, from the state its body starts in. -/
theorem State.computes_of {i : Instr} {s : State} {st : Stall} {l : Nat} {d : Reg} {x : W64} (hl : 1 ≤ l)
    (h : exec i s = .next ((s.begin.gput l d x).done st)) : Computes i s st l d x := by
  refine ⟨_, h, ?_⟩
  have hme : ((s.begin.gput l d x).done st).me = ((s.me.anchored s.now).gput s.now l d x).advance s.now st := by
    simp [State.done, State.gput]
  have hpend : ∀ c : Ctx, (c.advance s.now st).pend = c.pend := fun _ => rfl
  have adv : ∀ (c : Ctx) t h q, ((c.advance s.now st).landAll t).gIn h q = (c.landAll t).gIn h q := by
    intro c t h q; rw [Ctx.landAll_gIn, Ctx.landAll_gIn]; rfl
  have advA : ∀ (c : Ctx) t q, (c.advance s.now st).gAt t q = c.gAt t q := by
    intro c t q; rw [Ctx.gAt_eq, Ctx.gAt_eq, adv]; rfl
  have anc : ∀ t h q, ((s.me.anchored s.now).landAll t).gIn h q = (s.me.landAll t).gIn h q := by
    intro t h q; rw [Ctx.landAll_gIn, Ctx.landAll_gIn]; rfl
  have vp : ∀ (c d : Ctx), c.v = d.v → c.p = d.p → c.pend = d.pend → (∀ t q, c.vAt t q = d.vAt t q) ∧ ∀ t q, c.pAt t q = d.pAt t q := by
    intro c d h1 h2 h3
    constructor <;> intro t q
    · simp only [Ctx.vAt, Ctx.vget, Ctx.landAll_v, h1, h3]
    · simp only [Ctx.pAt, Ctx.pget, Ctx.landAll_p, h2, h3]
  have g1 := (s.me.anchored s.now).gput_gAt s.now hl d x
  refine ⟨?_, ?_, ?_, ?_, ?_, ?_⟩
  · constructor
    · rw [hme, advA]; exact g1.1
    · intro u h1 h2; rw [hme, advA, g1.2 u h1 h2, Ctx.gAt_eq, Ctx.gAt_eq, anc]; rfl
  · intro t h q hn
    rw [hme, adv, (s.me.anchored s.now).gput_keepsG s.now l d x t h q hn, anc]
  · have a := vp (((s.me.anchored s.now).gput s.now l d x).advance s.now st) ((s.me.anchored s.now).gput s.now l d x) rfl rfl rfl
    have b := (s.me.anchored s.now).gput_keepsVP s.now l d x
    have c := vp (s.me.anchored s.now) s.me rfl rfl rfl
    rw [hme]
    exact ⟨fun t q => (a.1 t q).trans ((b.1 t q).trans (c.1 t q)), fun t q => (a.2 t q).trans ((b.2 t q).trans (c.2 t q))⟩
  · rw [hme, Ctx.gput_frame]
    exact ⟨rfl, rfl, rfl, rfl, rfl, rfl, rfl, rfl, rfl, rfl, rfl, rfl⟩
  · refine ⟨?_, ?_, ?_⟩ <;> rw [hme, Ctx.gput_frame] <;> rfl
  · exact ((s.begin_onlyMe.onMe rfl _).onMe rfl _)

end Sys2Proof.Machine
end

