-- ==== Sys2Proof/Laws/Words.lean ====
section
/-! SUPPORT. What the common endings of a word do to the registers: a result and the next word, a transfer, a trap. -/

namespace Sys2Proof.Machine

set_option Elab.async false

/-! ### Updates that leave the registers alone -/

theorem Ctx.SameRegs.gIn {c d : Ctx} (e : c.SameRegs d) (t : Nat) (h : Bool) (q : Reg) :
    (d.landAll t).gIn h q = (c.landAll t).gIn h q := by
  rw [Ctx.landAll_gIn, Ctx.landAll_gIn]
  obtain ⟨e1, e2, -, -, e5⟩ := e
  simp only [Ctx.gIn, e1, e2, e5]
theorem Ctx.SameRegs.gAt {c d : Ctx} (e : c.SameRegs d) (hm : d.hm = c.hm) (t : Nat) (q : Reg) : d.gAt t q = c.gAt t q := by
  rw [Ctx.gAt_eq, Ctx.gAt_eq, hm, e.gIn]
theorem Ctx.SameRegs.keepsG {c d : Ctx} (e : c.SameRegs d) (r : Reg) : KeepsG c d r := fun t h q _ => e.gIn t h q
theorem Ctx.SameRegs.keepsVP {c d : Ctx} (e : c.SameRegs d) : KeepsVP c d := by
  obtain ⟨-, -, e3, e4, e5⟩ := e
  constructor <;> intro t q
  · simp only [Ctx.vAt, Ctx.vget, Ctx.landAll_v, e3, e5]
  · simp only [Ctx.pAt, Ctx.pget, Ctx.landAll_p, e4, e5]
theorem Ctx.SameRegs.trans {a b c : Ctx} (h : a.SameRegs b) (k : b.SameRegs c) : a.SameRegs c := by
  obtain ⟨h1, h2, h3, h4, h5⟩ := h
  obtain ⟨k1, k2, k3, k4, k5⟩ := k
  exact ⟨k1.trans h1, k2.trans h2, k3.trans h3, k4.trans h4, k5.trans h5⟩
theorem KeepsG.trans {a b c : Ctx} {r : Reg} (h : KeepsG a b r) (hm : b.hm = a.hm) (k : KeepsG b c r) : KeepsG a c r :=
  fun t m q e => (k t m q (by rw [hm]; exact e)).trans (h t m q e)
theorem KeepsVP.trans {a b c : Ctx} (h : KeepsVP a b) (k : KeepsVP b c) : KeepsVP a c :=
  ⟨fun t q => (k.1 t q).trans (h.1 t q), fun t q => (k.2 t q).trans (h.2 t q)⟩
theorem Ctx.SameRegs.anchored (c : Ctx) (n : Nat) : c.SameRegs (c.anchored n) := ⟨rfl, rfl, rfl, rfl, rfl⟩
theorem Ctx.SameRegs.advance (c : Ctx) (n : Nat) (st : Stall) : c.SameRegs (c.advance n st) := ⟨rfl, rfl, rfl, rfl, rfl⟩
theorem Ctx.SameRegs.redirect (c : Ctx) (n : Nat) (st : Stall) (va) : c.SameRegs (c.redirect n st va) := ⟨rfl, rfl, rfl, rfl, rfl⟩

/-- A word that writes one register and then only moves the acting context on. -/
theorem gets_of {s t : State} {l : Nat} {d : Reg} {x : W64} (hl : 1 ≤ l)
    (e : ((s.me.anchored s.now).gput s.now l d x).SameRegs t.me) (hx : t.me.xstat = s.me.xstat) :
    Gets s t l d x ∧ KeepsG s.me t.me d ∧ KeepsVP s.me t.me := by
  have hm : t.me.hm = s.me.hm := by rw [Ctx.hm, hx, Ctx.hm]
  have hm1 : ((s.me.anchored s.now).gput s.now l d x).hm = s.me.hm := by rw [Ctx.gput_frame]; rfl
  have a := Ctx.SameRegs.anchored s.me s.now
  have g1 := (s.me.anchored s.now).gput_gAt s.now hl d x
  refine ⟨⟨?_, fun u h1 h2 => ?_⟩, ?_, ?_⟩
  · rw [e.gAt (hm.trans hm1.symm)]; exact g1.1
  · rw [e.gAt (hm.trans hm1.symm), g1.2 u h1 h2, a.gAt rfl]
  · exact KeepsG.trans (a.keepsG d) rfl (KeepsG.trans (Ctx.gput_keepsG _ _ _ _ _) (hm1.trans rfl) (e.keepsG d))
  · exact (a.keepsVP).trans ((Ctx.gput_keepsVP _ _ _ _ _).trans e.keepsVP)

theorem Gets_zero {s t : State} (l : Nat) (x : W64) (e : s.me.SameRegs t.me) (hx : t.me.xstat = s.me.xstat) : Gets s t l 0 x := by
  have hm : t.me.hm = s.me.hm := by rw [Ctx.hm, hx, Ctx.hm]
  exact ⟨by rw [e.gAt hm, Ctx.gAt_eq, Ctx.gIn_zero]; rfl, fun u _ _ => by rw [e.gAt hm]⟩

/-- A word that goes on to the next. -/
theorem transfer_stay {i : Instr} {s : State} {st : Stall} {d : Reg} (hd : d = 0) (h : exec i s = .next (s.begin.done st)) :
    Transfers i s st none d := by
  subst hd
  have e : s.me.SameRegs (s.begin.done st).me := by
    simp only [State.done, State.onMe_me, State.begin_me]
    exact (Ctx.SameRegs.anchored _ _).trans (Ctx.SameRegs.advance _ _ _)
  have hm : (s.begin.done st).me = (s.me.anchored s.now).advance s.now st := by simp [State.done]
  exact ⟨_, h, Gets_zero _ _ e (by rw [hm]; rfl), e.keepsG 0, e.keepsVP, by rw [hm]; exact ⟨rfl, rfl, rfl, rfl, rfl, rfl, rfl, rfl, rfl, rfl, rfl, rfl⟩,
    s.begin_onlyMe.onMe rfl _, by rw [GoesOn, hm]; exact ⟨rfl, rfl, rfl⟩⟩
/-- A word that goes somewhere else. -/
theorem transfer_go {i : Instr} {s : State} {st : Stall} {d : Reg} {va : VA}
    (h : exec i s = .next (s.begin.onMe fun c => (c.gput s.now 1 d ((s.me.pc + 4).setWidth 64)).redirect s.now st va)) :
    Transfers i s st (some va) d := by
  have hm : (s.begin.onMe fun c => (c.gput s.now 1 d ((s.me.pc + 4).setWidth 64)).redirect s.now st va).me =
      ((s.me.anchored s.now).gput s.now 1 d ((s.me.pc + 4).setWidth 64)).redirect s.now st va := by simp
  have g := gets_of (s := s) (d := d) (x := (s.me.pc + 4).setWidth 64) (l := 1) (t := _) (by decide)
    (by rw [hm]; exact Ctx.SameRegs.redirect _ _ _ _) (by rw [hm, Ctx.gput_frame]; rfl)
  exact ⟨_, h, g.1, g.2.1, g.2.2, by rw [hm, Ctx.gput_frame]; exact ⟨rfl, rfl, rfl, rfl, rfl, rfl, rfl, rfl, rfl, rfl, rfl, rfl⟩,
    s.begin_onlyMe.onMe rfl _, by rw [hm, Ctx.gput_frame]; exact ⟨rfl, rfl, rfl⟩⟩
theorem mayGo_iff (c : Ctx) (va : VA) : MayGo c va ↔ badTarget c va = false := by
  have := va.isLt
  cases h : c.hm <;> simp [MayGo, badTarget, inLocal, inRope, h]
  omega
theorem goTo_ok {s : State} {st : Stall} {va : VA} {link} (h : MayGo s.me va) (d : Reg)
    (hl : link s.begin = s.begin.onMe fun c => c.gput s.now 1 d ((s.me.pc + 4).setWidth 64)) :
    s.begin.goTo s.begin.me.pc st va link = s.begin.onMe fun c => (c.gput s.now 1 d ((s.me.pc + 4).setWidth 64)).redirect s.now st va := by
  have : badTarget s.begin.me va = false := by rw [State.begin_me]; exact (mayGo_iff _ _).1 h
  rw [State.goTo, this, hl]
  simp only [Bool.false_eq_true, if_false, State.onMe_onMe, State.begin_now]
theorem begin_id (s : State) (x : W64) : id s.begin = s.begin.onMe fun c => c.gput s.now 1 0 x := by
  simp only [Ctx.gput_zero, id, State.begin, State.onMe, State.onMyCore, State.onCtx, State.setCtx, State.onCore, State.ctx]
  simp [State.setCore, State.core, Core.ctx, Core.setCtx]

end Sys2Proof.Machine
end

