-- ==== Sys2Proof/Laws/Events.lean ====
section
/-! SUPPORT. What is to come: an event is put into the list and nothing is lost; what failing a core changes. -/

namespace Sys2Proof.Machine

set_option Elab.async false

/-- An event that is put in is in the list, and so is every other. -/
theorem mem_evInsert (c : Nat) (i : Ev) (q : List (Nat × Ev)) : (c, i) ∈ evInsert c i q ∧ ∀ e, e ∈ q → e ∈ evInsert c i q := by
  induction q with
  | nil => simp [evInsert]
  | cons x q ih =>
    obtain ⟨d, j⟩ := x
    simp only [evInsert]; split
    · exact ⟨by simp, fun e he => by simpa using Or.inr (List.mem_cons.1 he)⟩
    · exact ⟨by simp [ih.1], fun e he => by
        rcases List.mem_cons.1 he with h | h
        · simp [h]
        · simp [ih.2 e h]⟩
theorem State.mem_after (s : State) (d : Nat) (e : Ev) : (s.now + d, e) ∈ (s.after d e).queue := (mem_evInsert _ _ _).1
theorem State.mem_at (s : State) (c : Nat) (e : Ev) : (c, e) ∈ (s.at' c e).queue := (mem_evInsert _ _ _).1
theorem State.mem_after_of_mem {s : State} {x : Nat × Ev} (d : Nat) (e : Ev) (h : x ∈ s.queue) : x ∈ (s.after d e).queue := (mem_evInsert _ _ _).2 x h
theorem State.mem_at_of_mem {s : State} {x : Nat × Ev} (c : Nat) (e : Ev) (h : x ∈ s.queue) : x ∈ (s.at' c e).queue := (mem_evInsert _ _ _).2 x h
/-- An event to come changes nothing but the list. -/
theorem State.after_eq (s : State) (d : Nat) (e : Ev) : s.after d e = { s with queue := (s.after d e).queue } := rfl
theorem State.at_eq (s : State) (c : Nat) (e : Ev) : s.at' c e = { s with queue := (s.at' c e).queue } := rfl

theorem OnlyMe.onlyCtx {s t : State} (h : OnlyMe s t) : OnlyCtx s t := by
  obtain ⟨h1, h2, h3, h4⟩ := h
  exact ⟨by rw [h1], h2, by rw [h3], h4, by rw [h1]; exact fun e h => h⟩
/-- A core fails its task: nothing but the mark of the failure and the step that follows it. -/
theorem OnlyCtx.fail {s t : State} (h : OnlyCtx s t) (ha : t.act = s.act) (r : Nat) : OnlyCtx s (t.fail s.act.1 r) := by
  rw [State.fail]; split
  · exact h
  · obtain ⟨h1, h2, h3, h4, h5⟩ := h
    refine ⟨by rw [h1]; rfl, ?_, ?_, ?_, ?_⟩
    · intro n hn; rw [← h2 n hn]; simp [State.after, State.at', State.core, State.onCore, State.setCore, hn]
    · have : ((t.onCore s.act.1 fun c => { c with failing := some r }).after t.lat.fail (.taskFailure s.act.1)).myCore = { t.myCore with failing := some r } := by
        simp [State.after, State.at', State.core, State.onCore, State.setCore, State.myCore, ha]
      rw [this, h3]
    · intro k hk; rw [← h4 k hk]; simp [State.after, State.at', State.ctx, State.core, State.onCore, State.setCore, Core.ctx]
    · intro e he
      exact (mem_evInsert _ _ _).2 e (h5 e he)
theorem fails_fail {s t : State} (ha : t.act = s.act) (hn : t.now = s.now) (hl : t.lat = s.lat) (hf : t.myCore.failing = s.myCore.failing) (r : Nat) :
    Fails s (t.fail s.act.1 r) r := by
  have e : t.core s.act.1 = t.myCore := by simp [State.myCore, ha]
  rw [Fails, State.fail, e, ← hf]; cases h : t.myCore.failing with
  | none =>
    simp only [Option.isSome_none, Bool.false_eq_true, if_false]
    exact ⟨by simp [State.after, State.at', State.core, State.onCore, State.setCore, State.myCore, ha], by
      rw [← hn, ← hl]; exact (mem_evInsert _ _ _).1⟩
  | some x => simp [h]
/-- Failing a core changes no context. -/
theorem State.fail_me (t : State) (n r : Nat) : (t.fail n r).me = t.me := by
  rw [State.fail]; split
  · rfl
  · simp only [State.after, State.at', State.me, State.ctx, State.core, State.onCore, State.setCore]
    by_cases h : t.act.1 = n
    · subst h; simp [Core.ctx]
    · simp [h]
theorem State.fail_eq (t : State) (n r : Nat) : t.fail n r = { t with cores := (t.fail n r).cores, queue := (t.fail n r).queue } := by
  rw [State.fail]; split <;> rfl
theorem State.myCore_onMe (s : State) (f : Ctx → Ctx) : (s.onMe f).myCore = { s.myCore with ctxs := (s.onMe f).myCore.ctxs } := by
  simp [State.onMe, State.onCtx, State.myCore, State.setCtx, State.setCore, State.core, Core.setCtx]

end Sys2Proof.Machine
end

