-- ==== Sys2Proof/Laws/Memory.lean ====
section
/-! SUPPORT. Memory as cells: every operation on it keeps the canonical form, a byte that is written reads back, and every
other byte reads as before. -/

namespace Sys2Proof.Machine

set_option Elab.async false

/-! ### The keys of a table ascend -/

theorem Table.ascending_cons {α : Type} (k : Nat) (x : α) (t : Table α) :
    Table.ascending ((k, x) :: t) = true ↔ Table.ascending t = true ∧ ∀ e, t.head? = some e → k < e.1 := by
  cases t with
  | nil => simp [Table.ascending]
  | cons e t => simp [Table.ascending, and_comm]
/-- The keys after the first are greater. -/
theorem Table.ascending_mem {α : Type} {k : Nat} {x : α} {t : Table α} (h : Table.ascending ((k, x) :: t) = true) :
    ∀ e ∈ t, k < e.1 := by
  induction t generalizing k x with
  | nil => simp
  | cons e t ih =>
    have h2 := (Table.ascending_cons k x (e :: t)).1 h
    have hk : k < e.1 := h2.2 e rfl
    intro y hy
    rcases List.mem_cons.1 hy with h3 | h3
    · rw [h3]; exact hk
    · exact Nat.lt_trans hk (ih (x := e.2) h2.1 y h3)
theorem Table.ascending_put {α : Type} (k : Nat) (v : α) (t : Table α) (h : Table.ascending t = true) :
    Table.ascending (Table.put k v t) = true := by
  induction t with
  | nil => rfl
  | cons e t ih =>
    obtain ⟨j, x⟩ := e
    have h2 := (Table.ascending_cons j x t).1 h
    simp only [Table.put]; split
    · rename_i hk; exact (Table.ascending_cons k v _).2 ⟨h, fun e he => by cases he; exact hk⟩
    · split
      · rename_i hk; subst hk; exact (Table.ascending_cons k v t).2 h2
      · rename_i h3 h4
        refine (Table.ascending_cons j x _).2 ⟨ih h2.1, fun e he => ?_⟩
        cases t with
        | nil => simp only [Table.put, List.head?_cons, Option.some.injEq] at he; subst he; dsimp; omega
        | cons y t =>
          obtain ⟨i, y⟩ := y
          have hi : j < i := h2.2 _ rfl
          simp only [Table.put] at he; split at he
          · cases he; dsimp; omega
          · split at he <;> cases he <;> dsimp <;> omega
theorem Table.ascending_filter {α : Type} (p : Nat × α → Bool) (t : Table α) (h : Table.ascending t = true) :
    Table.ascending (t.filter p) = true := by
  induction t with
  | nil => rfl
  | cons e t ih =>
    obtain ⟨j, x⟩ := e
    have h2 := (Table.ascending_cons j x t).1 h
    simp only [List.filter]; split
    · refine (Table.ascending_cons j x _).2 ⟨ih h2.1, fun e he => ?_⟩
      exact Table.ascending_mem h e (List.mem_filter.1 (List.mem_of_mem_head? he)).1
    · exact ih h2.1
theorem Table.del_eq_filter {α : Type} (k : Nat) (t : Table α) : Table.del k t = t.filter fun e => e.1 != k := by
  induction t with
  | nil => rfl
  | cons e t ih =>
    obtain ⟨j, x⟩ := e
    by_cases h : j = k
    · simp [Table.del, h, ih]
    · have : (j != k) = true := by simpa using h
      simp [Table.del, h, ih, this]
theorem Table.ascending_del {α : Type} (k : Nat) (t : Table α) (h : Table.ascending t = true) : Table.ascending (Table.del k t) = true := by
  rw [Table.del_eq_filter]; exact Table.ascending_filter _ t h
@[simp] theorem Table.find_del_self {α : Type} (k : Nat) (t : Table α) : Table.find? k (Table.del k t) = none := by
  induction t with
  | nil => rfl
  | cons e t ih =>
    obtain ⟨j, x⟩ := e
    simp only [Table.del]; split
    · exact ih
    · rename_i h; simp [Table.find?, h, ih]
@[simp] theorem Table.find_del_other {α : Type} {j k : Nat} (h : j ≠ k) (t : Table α) : Table.find? j (Table.del k t) = Table.find? j t := by
  induction t with
  | nil => rfl
  | cons e t ih =>
    obtain ⟨i, x⟩ := e
    simp only [Table.del]; split
    · rename_i h2; subst h2; simp [Table.find?, Ne.symm h, ih]
    · simp [Table.find?, ih]
theorem Table.mem_put {α : Type} {k : Nat} {v : α} {t : Table α} {e : Nat × α} (h : e ∈ Table.put k v t) : e = (k, v) ∨ e ∈ t := by
  induction t with
  | nil => simpa [Table.put] using h
  | cons y t ih =>
    obtain ⟨j, x⟩ := y
    simp only [Table.put] at h; split at h
    · rcases List.mem_cons.1 h with h | h
      · exact .inl h
      · exact .inr h
    · split at h
      · rcases List.mem_cons.1 h with h | h
        · exact .inl h
        · exact .inr (List.mem_cons_of_mem _ h)
      · rcases List.mem_cons.1 h with h | h
        · exact .inr (h ▸ List.mem_cons_self)
        · rcases ih h with h | h
          · exact .inl h
          · exact .inr (List.mem_cons_of_mem _ h)

/-! ### The canonical form -/

theorem Memory.wf_iff (m : List Host.Cell) : Memory.wf m = true ↔ Table.ascending m = true ∧ ∀ c ∈ m, c.2 ≠ 0 := by
  simp [Memory.wf, List.all_eq_true]
theorem Memory.wf_filter (p : Host.Cell → Bool) (m : List Host.Cell) (h : Memory.wf m = true) : Memory.wf (m.filter p) = true := by
  rw [Memory.wf_iff] at *
  exact ⟨Table.ascending_filter p m h.1, fun c hc => h.2 c (List.mem_filter.1 hc).1⟩
theorem Memory.wf_cellPut (m : List Host.Cell) (a : Nat) (b : Byte) (h : Memory.wf m = true) : Memory.wf (cellPut m a b) = true := by
  rw [cellPut]; split
  · rw [Table.del_eq_filter]; exact Memory.wf_filter _ m h
  · rename_i hb
    rw [Memory.wf_iff] at *
    refine ⟨Table.ascending_put a b m h.1, fun c hc => ?_⟩
    rcases Table.mem_put hc with h2 | h2
    · rw [h2]; exact hb
    · exact h.2 c h2
theorem Memory.wf_cellsPutLE (n : Nat) : ∀ (m : List Host.Cell) (a x : Nat), Memory.wf m = true → Memory.wf (cellsPutLE m a n x) = true := by
  induction n with
  | zero => exact fun _ _ _ h => h
  | succ n ih => exact fun m a x h => ih _ _ _ (Memory.wf_cellPut m a _ h)
theorem Memory.wf_cellsPut (bs : List Byte) : ∀ (m : List Host.Cell) (a : Nat), Memory.wf m = true → Memory.wf (cellsPut m a bs) = true := by
  induction bs with
  | nil => exact fun _ _ h => h
  | cons b bs ih => exact fun m a h => ih _ _ (Memory.wf_cellPut m a b h)

/-! ### Reading what was written -/

@[simp] theorem cellGet_put_self (m : List Host.Cell) (a : Nat) (b : Byte) : cellGet (cellPut m a b) a = b := by
  rw [cellPut]; split
  · rename_i h; subst h; simp [cellGet]
  · simp [cellGet]
@[simp] theorem cellGet_put_other {m : List Host.Cell} {a c : Nat} (b : Byte) (h : c ≠ a) : cellGet (cellPut m a b) c = cellGet m c := by
  rw [cellPut]; split <;> simp [cellGet, h]
theorem cellGet_putLE_other (n : Nat) : ∀ (m : List Host.Cell) (a x c : Nat), c < a ∨ a + n ≤ c → cellGet (cellsPutLE m a n x) c = cellGet m c := by
  induction n with
  | zero => exact fun _ _ _ _ _ => rfl
  | succ n ih =>
    intro m a x c h
    rw [cellsPutLE, ih _ _ _ _ (by omega), cellGet_put_other _ (by omega)]
theorem cellGet_puts_other (bs : List Byte) : ∀ (m : List Host.Cell) (a c : Nat), c < a ∨ a + bs.length ≤ c →
    cellGet (cellsPut m a bs) c = cellGet m c := by
  induction bs with
  | nil => exact fun _ _ _ _ => rfl
  | cons b bs ih =>
    intro m a c h
    simp only [List.length_cons] at h
    rw [cellsPut, ih _ _ _ (by omega), cellGet_put_other _ (by omega)]
theorem cellGet_puts (bs : List Byte) : ∀ (m : List Host.Cell) (a i : Nat) (h : i < bs.length), cellGet (cellsPut m a bs) (a + i) = bs[i] := by
  induction bs with
  | nil => intro _ _ _ h; simp at h
  | cons b bs ih =>
    intro m a i h
    rw [cellsPut]
    cases i with
    | zero => rw [cellGet_puts_other _ _ _ _ (by omega)]; simp
    | succ i =>
      have := ih (cellPut m a b) (a + 1) i (by simpa using h)
      simpa [Nat.add_assoc, Nat.add_comm 1 i] using this
theorem cellsLE_congr {m m' : List Host.Cell} (n : Nat) : ∀ (a : Nat), (∀ c, a ≤ c → c < a + n → cellGet m c = cellGet m' c) →
    cellsLE m a n = cellsLE m' a n := by
  induction n with
  | zero => exact fun _ _ => rfl
  | succ n ih => exact fun a h => by rw [cellsLE, cellsLE, h a (by omega) (by omega), ih (a + 1) fun c h1 h2 => h c (by omega) (by omega)]
theorem cellsLE_putLE (n : Nat) : ∀ (m : List Host.Cell) (a x : Nat), cellsLE (cellsPutLE m a n x) a n = x % 2 ^ (8 * n) := by
  induction n with
  | zero => intro _ _ x; simp [cellsLE, Nat.mod_one]
  | succ n ih =>
    intro m a x
    rw [cellsPutLE, cellsLE, ih, cellGet_putLE_other _ _ _ _ _ (by omega), cellGet_put_self]
    simp only [BitVec.toNat_ofNat]
    rw [show 2 ^ (8 * (n + 1)) = 256 * 2 ^ (8 * n) by rw [Nat.mul_add, Nat.pow_add]; omega]
    rw [Nat.mod_mul]
theorem cellsLE_lt (n : Nat) : ∀ (m : List Host.Cell) (a : Nat), cellsLE m a n < 2 ^ (8 * n) := by
  induction n with
  | zero => intro _ _; simp [cellsLE]
  | succ n ih =>
    intro m a
    have h1 := ih m (a + 1)
    have h2 := (cellGet m a).isLt
    rw [cellsLE, show 2 ^ (8 * (n + 1)) = 256 * 2 ^ (8 * n) by rw [Nat.mul_add, Nat.pow_add]; omega]
    omega

/-! ### Physical memory -/

theorem State.setPhys_wf (s : State) (pa n x : Nat) (h : Memory.wf s.mem = true) : Memory.wf (s.setPhys pa n x).mem = true :=
  Memory.wf_cellsPutLE n s.mem pa x h
theorem State.setBytes_wf (s : State) (pa : Nat) (bs : List Byte) (h : Memory.wf s.mem = true) : Memory.wf (s.setBytes pa bs).mem = true :=
  Memory.wf_cellsPut bs s.mem pa h
/-- A write of physical memory changes the bytes of its range and nothing else of the machine. -/
theorem State.setPhys_byte_other (s : State) {pa n a : Nat} (x : Nat) (h : a < pa ∨ pa + n ≤ a) : (s.setPhys pa n x).byte a = s.byte a :=
  cellGet_putLE_other n s.mem pa x a h
theorem State.phys_setPhys (s : State) (pa n x : Nat) : (s.setPhys pa n x).phys pa n = x % 2 ^ (8 * n) := cellsLE_putLE n s.mem pa x
@[simp] theorem State.phys64_setPhys (s : State) (pa : Nat) (x : W64) : (s.setPhys pa 8 x.toNat).phys64 pa = x := by
  rw [State.phys64, State.phys_setPhys]; apply BitVec.eq_of_toNat_eq; simp; omega
theorem State.phys_setPhys_other (s : State) {pa n a k : Nat} (x : Nat) (h : a + k ≤ pa ∨ pa + n ≤ a) : (s.setPhys pa n x).phys a k = s.phys a k :=
  cellsLE_congr k a fun _ _ _ => cellGet_putLE_other n s.mem pa x _ (by omega)
theorem State.setBytes_byte (s : State) (pa i : Nat) (bs : List Byte) (h : i < bs.length) : (s.setBytes pa bs).byte (pa + i) = bs[i] :=
  cellGet_puts bs s.mem pa i h
theorem State.setBytes_byte_other (s : State) {pa a : Nat} (bs : List Byte) (h : a < pa ∨ pa + bs.length ≤ a) :
    (s.setBytes pa bs).byte a = s.byte a := cellGet_puts_other bs s.mem pa a h
theorem State.setPhys_eq (s : State) (pa n x : Nat) : s.setPhys pa n x = { s with mem := (s.setPhys pa n x).mem } := rfl
theorem State.setBytes_eq (s : State) (pa : Nat) (bs : List Byte) : s.setBytes pa bs = { s with mem := (s.setBytes pa bs).mem } := rfl
/-- Dirty bytes of a location reach memory: nothing but memory and that location changes. -/
theorem State.writeBack_wf (s : State) (key : Nat) (l : Loc) (h : Memory.wf s.mem = true) : Memory.wf (s.writeBack key l).mem = true := by
  rw [State.writeBack]; split
  · exact h
  · exact s.setPhys_wf l.pa 8 _ h
theorem State.writeBack_eq (s : State) (key : Nat) (l : Loc) :
    s.writeBack key l = { s with mem := (s.writeBack key l).mem, locs := (s.writeBack key l).locs } := by
  rw [State.writeBack]; split <;> rfl
theorem State.foldl_wf {α : Type} (f : State → α → State) (h : ∀ s x, Memory.wf s.mem = true → Memory.wf (f s x).mem = true) (xs : List α) :
    ∀ s : State, Memory.wf s.mem = true → Memory.wf (xs.foldl f s).mem = true := by
  induction xs with
  | nil => exact fun _ h => h
  | cons x xs ih => exact fun s hs => ih _ (h s x hs)
/-- What a page's heat counts changes nothing else. -/
theorem State.heatUp_eq (s : State) (pa : Nat) (w : Bool) : s.heatUp pa w = { s with heat := (s.heatUp pa w).heat } := by
  rw [State.heatUp]; split
  · rfl
  · split <;> rfl
theorem State.foldl_frame {α : Type} (k : State → State → State) (hk : ∀ s t u, k (k s t) u = k s u) (h0 : ∀ s, s = k s s)
    (f : State → α → State) (hf : ∀ s x, f s x = k s (f s x)) (xs : List α) : ∀ s : State, xs.foldl f s = k s (xs.foldl f s) := by
  induction xs with
  | nil => exact h0
  | cons x xs ih => exact fun s => (ih (f s x)).trans ((congrArg (fun y => k y (xs.foldl f (f s x))) (hf s x)).trans (hk _ _ _))
/-- Dirty bytes of chosen words reach memory: memory, the words and the heat counts change, and nothing else. -/
theorem State.writeBackAll_wf (s : State) (p : Nat → Bool) (h : Memory.wf s.mem = true) : Memory.wf (s.writeBackAll p).mem = true := by
  rw [State.writeBackAll]
  refine State.foldl_wf _ (fun s x hs => ?_) _ _ (State.foldl_wf (fun (s : State) (e : Nat × Loc) => s.writeBack e.1 e.2) (fun s e => s.writeBack_wf e.1 e.2) _ s h)
  rw [State.heatUp_eq]; exact hs
theorem State.writeBackAll_eq (s : State) (p : Nat → Bool) :
    s.writeBackAll p = { s with mem := (s.writeBackAll p).mem, locs := (s.writeBackAll p).locs, heat := (s.writeBackAll p).heat } := by
  let k : State → State → State := fun s t => { s with mem := t.mem, locs := t.locs, heat := t.heat }
  have h1 := State.foldl_frame k (fun _ _ _ => rfl) (fun _ => rfl) (fun (s : State) (e : Nat × Loc) => s.writeBack e.1 e.2) (fun s x => by
    conv => lhs; rw [s.writeBack_eq]
    rw [show k s (s.writeBack x.1 x.2) = { s with mem := _, locs := _, heat := (s.writeBack x.1 x.2).heat } from rfl]; rw [s.writeBack_eq])
  have h2 := State.foldl_frame k (fun _ _ _ => rfl) (fun _ => rfl) (fun (s : State) (n : Nat) => s.heatUp (128 * n) true) (fun s x => by
    rw [show k s (s.heatUp (128 * x) true) = { s with mem := (s.heatUp (128 * x) true).mem, locs := (s.heatUp (128 * x) true).locs, heat := _ } from rfl]
    rw [s.heatUp_eq])
  show s.writeBackAll p = k s (s.writeBackAll p)
  rw [State.writeBackAll]
  have key : ∀ A R : State, A = k s A → k A R = k s R := fun A R h => by have e := congrArg (fun y => k y R) h; exact e
  exact (h2 _ _).trans (key _ _ (h1 _ _))
theorem Memory.reset_wf : Memory.wf State.reset.mem = true := rfl

end Sys2Proof.Machine
end

