-- ==== Sys2Proof/Laws/PerInstr.lean ====
section
/-! SUPPORT. The family Encoding, one lemma for each constructor: the fields that encode a well-formed instruction decode to it.
A step of the device has no fields. -/

set_option linter.unusedSimpArgs false

namespace Sys2Proof.Laws.Encoding

set_option Elab.async false

/-- The fields of a well-formed instruction that has a word decode to it (R107, R110, R126). -/
def Statement (i : Instr) : Prop := ∀ p, i.wf = true → encodeParts i = some p → decodeParts p = some i

/-! ### Fields put together and taken apart -/

theorem cat_lo {m n : Nat} (x : BitVec m) (y : BitVec n) : (x ++ y).extractLsb' 0 n = y := by
  apply BitVec.eq_of_getLsbD_eq; intro i hi; simp [BitVec.getLsbD_append, hi]
theorem cat_hi {m n : Nat} (x : BitVec m) (y : BitVec n) : (x ++ y).extractLsb' n m = x := by
  apply BitVec.eq_of_getLsbD_eq; intro i hi; simp [BitVec.getLsbD_append, hi]
theorem cut14 (i : BitVec 14) : (i.extractLsb' 9 5 ++ i.extractLsb' 0 9 : BitVec 14) = i := by
  apply BitVec.eq_of_getLsbD_eq; intro k hk; simp only [BitVec.getLsbD_append, BitVec.getLsbD_extractLsb']
  by_cases h : k < 9
  · simp [h]
  · simp [h, show k - 9 < 5 by omega, show 9 + (k - 9) = k by omega]
theorem cut19 (i : BitVec 19) : (i.extractLsb' 14 5 ++ i.extractLsb' 9 5 ++ i.extractLsb' 0 9 : BitVec 19) = i := by
  apply BitVec.eq_of_getLsbD_eq; intro k hk; simp only [BitVec.getLsbD_append, BitVec.getLsbD_extractLsb']
  by_cases h : k < 9
  · simp [h]
  · by_cases h2 : k < 14
    · simp [h, show k - 9 < 5 by omega, show 9 + (k - 9) = k by omega]
    · simp [h, show ¬ k - 9 < 5 by omega, show k - 9 - 5 < 5 by omega, show 14 + (k - 9 - 5) = k by omega]
theorem cut24 (i : BitVec 24) : (i.extractLsb' 19 5 ++ i.extractLsb' 14 5 ++ i.extractLsb' 9 5 ++ i.extractLsb' 0 9 : BitVec 24) = i := by
  apply BitVec.eq_of_getLsbD_eq; intro k hk; simp only [BitVec.getLsbD_append, BitVec.getLsbD_extractLsb']
  by_cases h : k < 9
  · simp [h]
  · by_cases h2 : k < 14
    · simp [h, show k - 9 < 5 by omega, show 9 + (k - 9) = k by omega]
    · by_cases h3 : k < 19
      · simp [h, show ¬ k - 9 < 5 by omega, show k - 9 - 5 < 5 by omega, show 14 + (k - 9 - 5) = k by omega]
      · simp [h, show ¬ k - 9 < 5 by omega, show ¬ k - 9 - 5 < 5 by omega, show k - 9 - 5 - 5 < 5 by omega, show 19 + (k - 9 - 5 - 5) = k by omega]
theorem cut11 (i : BitVec 11) : (i.extractLsb' 9 2 ++ i.extractLsb' 0 9 : BitVec 11) = i := by
  apply BitVec.eq_of_getLsbD_eq; intro k hk; simp only [BitVec.getLsbD_append, BitVec.getLsbD_extractLsb']
  by_cases h : k < 9
  · simp [h]
  · simp [h, show k - 9 < 2 by omega, show 9 + (k - 9) = k by omega]
theorem cut6 (i : BitVec 6) : (i.extractLsb' 5 1 ++ i.extractLsb' 0 5 : BitVec 6) = i := by
  apply BitVec.eq_of_getLsbD_eq; intro k hk; simp only [BitVec.getLsbD_append, BitVec.getLsbD_extractLsb']
  by_cases h : k < 5
  · simp [h]
  · simp [h, show k - 5 < 1 by omega, show 5 + (k - 5) = k by omega]

theorem cat_mid {k m n : Nat} (x : BitVec k) (y : BitVec m) (z : BitVec n) : (x ++ y ++ z).extractLsb' n m = y := by
  apply BitVec.eq_of_getLsbD_eq; intro i hi
  simp [BitVec.getLsbD_append, hi, show ¬ n + i < n by omega]
theorem cat_top {k m n : Nat} (x : BitVec k) (y : BitVec m) (z : BitVec n) : (x ++ y ++ z).extractLsb' (m + n) k = x := by
  apply BitVec.eq_of_getLsbD_eq; intro i hi
  simp [BitVec.getLsbD_append, hi, show ¬ m + n + i < n by omega, show ¬ m + n + i - n < m by omega, show m + n + i - n - m = i by omega]

/-! ### Codes -/

theorem of_codeSgn (c : Sgn) : Sgn.ofCode c.code = some c := by cases c <;> decide
theorem of_codeExtW (c : ExtW) : ExtW.ofCode c.code = some c := by cases c <;> decide
theorem of_codeFTy (c : FTy) : FTy.ofCode c.code = some c := by cases c <;> decide
theorem of_codeRnd (c : Rnd) : Rnd.ofCode c.code = some c := by cases c <;> decide
theorem of_codeFmt (c : Fmt) : Fmt.ofCode c.code = some c := by cases c <;> decide
theorem of_codeCvtSrc (c : CvtSrc) : CvtSrc.ofCode c.code = some c := by cases c <;> decide
theorem of_codeVSrc (c : VSrc) : VSrc.ofCode c.code = some c := by cases c <;> decide
theorem of_codeLdTy (c : LdTy) : LdTy.ofCode c.code = some c := by cases c <;> decide
theorem of_codeStTy (c : StTy) : StTy.ofCode c.code = some c := by cases c <;> decide
theorem of_codeScope (c : Scope) : Scope.ofCode c.code = some c := by cases c <;> decide
theorem of_codeAOp (c : AOp) : AOp.ofCode c.code = some c := by cases c <;> decide
theorem of_codeATy (c : ATy) : ATy.ofCode c.code = some c := by cases c <;> decide
theorem of_codeTile (c : Tile) : Tile.ofCode c.code = some c := by cases c <;> decide
theorem of_codeLSrc (c : LSrc) : LSrc.ofCode c.code = some c := by cases c <;> decide
theorem of_codeROp (c : ROp) : ROp.ofCode c.code = some c := by cases c <;> decide
theorem of_codeCReg (c : CReg) : CReg.ofCode c.code = some c := by cases c <;> decide

/-! ### Majors -/

theorem maj00 (p : Parts) (h : p.op = 0x00) : decodeParts p = decode00 p := by simp [decodeParts, h]
theorem maj01 (p : Parts) (h : p.op = 0x01) : decodeParts p = decode01 p := by simp [decodeParts, h]
theorem maj02 (p : Parts) (h : p.op = 0x02) : decodeParts p = decode02 p := by simp [decodeParts, h]
theorem maj0E (p : Parts) (h : p.op = 0x0E) : decodeParts p = decode0E p := by simp [decodeParts, h]
theorem maj16 (p : Parts) (h : p.op = 0x16) : decodeParts p = decode16 p := by simp [decodeParts, h]
theorem maj17 (p : Parts) (h : p.op = 0x17) : decodeParts p = decode17 p := by simp [decodeParts, h]
theorem maj18 (p : Parts) (h : p.op = 0x18) : decodeParts p = decode18 p := by simp [decodeParts, h]
theorem maj19 (p : Parts) (h : p.op = 0x19) : decodeParts p = decode19 p := by simp [decodeParts, h]
theorem maj20 (p : Parts) (h : p.op = 0x20) : decodeParts p = decodeM p := by simp [decodeParts, h]
theorem maj21 (p : Parts) (h : p.op = 0x21) : decodeParts p = decodeM p := by simp [decodeParts, h]
theorem maj22 (p : Parts) (h : p.op = 0x22) : decodeParts p = decodeM p := by simp [decodeParts, h]
theorem maj23 (p : Parts) (h : p.op = 0x23) : decodeParts p = decodeM p := by simp [decodeParts, h]
theorem maj24 (p : Parts) (h : p.op = 0x24) : decodeParts p = decodeM p := by simp [decodeParts, h]
theorem maj25 (p : Parts) (h : p.op = 0x25) : decodeParts p = decode25 p := by simp [decodeParts, h]
theorem maj26 (p : Parts) (h : p.op = 0x26) : decodeParts p = decode26 p := by simp [decodeParts, h]
theorem maj28 (p : Parts) (h : p.op = 0x28) : decodeParts p = decodeAtom p := by simp [decodeParts, h]
theorem maj29 (p : Parts) (h : p.op = 0x29) : decodeParts p = decodeAtom p := by simp [decodeParts, h]
theorem maj2A (p : Parts) (h : p.op = 0x2A) : decodeParts p = decode2A p := by simp [decodeParts, h]
theorem maj2B (p : Parts) (h : p.op = 0x2B) : decodeParts p = decode2B p := by simp [decodeParts, h]
theorem maj2C (p : Parts) (h : p.op = 0x2C) : decodeParts p = decode2C p := by simp [decodeParts, h]
theorem maj2D (p : Parts) (h : p.op = 0x2D) : decodeParts p = decode2D p := by simp [decodeParts, h]
theorem maj2E (p : Parts) (h : p.op = 0x2E) : decodeParts p = decode2E p := by simp [decodeParts, h]
theorem maj30 (p : Parts) (h : p.op = 0x30) : decodeParts p = decode30 p := by simp [decodeParts, h]
theorem maj31 (p : Parts) (h : p.op = 0x31) : decodeParts p = decode31 p := by simp [decodeParts, h]
theorem maj32 (p : Parts) (h : p.op = 0x32) : decodeParts p = decode32 p := by simp [decodeParts, h]
theorem maj33 (p : Parts) (h : p.op = 0x33) : decodeParts p = decode33 p := by simp [decodeParts, h]
theorem maj34 (p : Parts) (h : p.op = 0x34) : decodeParts p = decode34 p := by simp [decodeParts, h]
theorem maj35 (p : Parts) (h : p.op = 0x35) : decodeParts p = decode35 p := by simp [decodeParts, h]
theorem maj38 (p : Parts) (h : p.op = 0x38) : decodeParts p = decode38 p := by simp [decodeParts, h]
theorem maj39 (p : Parts) (h : p.op = 0x39) : decodeParts p = decode39 p := by simp [decodeParts, h]
theorem maj3A (p : Parts) (h : p.op = 0x3A) : decodeParts p = decode3A p := by simp [decodeParts, h]
theorem maj3B (p : Parts) (h : p.op = 0x3B) : decodeParts p = decode3B p := by simp [decodeParts, h]
theorem maj3C (p : Parts) (h : p.op = 0x3C) : decodeParts p = decode3C p := by simp [decodeParts, h]
theorem maj3D (p : Parts) (h : p.op = 0x3D) : decodeParts p = decode3D p := by simp [decodeParts, h]
theorem maj3E (p : Parts) (h : p.op = 0x3E) : decodeParts p = decode3E p := by simp [decodeParts, h]

/-! ### The constructors -/

theorem add (st : Stall) (d a b : Reg) : Statement (.add st d a b) := by
  intro q w h; cases h
  rw [maj00 _ rfl]
  simp [decode00, onlyIf]
theorem sub (st : Stall) (d a b : Reg) : Statement (.sub st d a b) := by
  intro q w h; cases h
  rw [maj00 _ rfl]
  simp [decode00, onlyIf]
theorem mul (st : Stall) (d a b : Reg) : Statement (.mul st d a b) := by
  intro q w h; cases h
  rw [maj00 _ rfl]
  simp [decode00, onlyIf]
theorem mulh (st : Stall) (t : Sgn) (d a b : Reg) : Statement (.mulh st t d a b) := by
  intro q w h; cases h
  rw [maj00 _ rfl]
  revert w; cases t <;> simp [decode00, onlyIf, Sgn.code, Sgn.ofCode, Instr.wf, belayScopeWf]
theorem div (st : Stall) (t : Sgn) (d a b : Reg) : Statement (.div st t d a b) := by
  intro q w h; cases h
  rw [maj00 _ rfl]
  revert w; cases t <;> simp [decode00, onlyIf, Sgn.code, Sgn.ofCode, Instr.wf, belayScopeWf]
theorem rem (st : Stall) (t : Sgn) (d a b : Reg) : Statement (.rem st t d a b) := by
  intro q w h; cases h
  rw [maj00 _ rfl]
  revert w; cases t <;> simp [decode00, onlyIf, Sgn.code, Sgn.ofCode, Instr.wf, belayScopeWf]
theorem min (st : Stall) (t : Sgn) (d a b : Reg) : Statement (.min st t d a b) := by
  intro q w h; cases h
  rw [maj00 _ rfl]
  revert w; cases t <;> simp [decode00, onlyIf, Sgn.code, Sgn.ofCode, Instr.wf, belayScopeWf]
theorem max (st : Stall) (t : Sgn) (d a b : Reg) : Statement (.max st t d a b) := by
  intro q w h; cases h
  rw [maj00 _ rfl]
  revert w; cases t <;> simp [decode00, onlyIf, Sgn.code, Sgn.ofCode, Instr.wf, belayScopeWf]
theorem and (st : Stall) (d a b : Reg) : Statement (.and st d a b) := by
  intro q w h; cases h
  rw [maj01 _ rfl]
  simp [decode01, onlyIf]
theorem or (st : Stall) (d a b : Reg) : Statement (.or st d a b) := by
  intro q w h; cases h
  rw [maj01 _ rfl]
  simp [decode01, onlyIf]
theorem xor (st : Stall) (d a b : Reg) : Statement (.xor st d a b) := by
  intro q w h; cases h
  rw [maj01 _ rfl]
  simp [decode01, onlyIf]
theorem andn (st : Stall) (d a b : Reg) : Statement (.andn st d a b) := by
  intro q w h; cases h
  rw [maj01 _ rfl]
  simp [decode01, onlyIf]
theorem shl (st : Stall) (d a b : Reg) : Statement (.shl st d a b) := by
  intro q w h; cases h
  rw [maj01 _ rfl]
  simp [decode01, onlyIf]
theorem shr (st : Stall) (d a b : Reg) : Statement (.shr st d a b) := by
  intro q w h; cases h
  rw [maj01 _ rfl]
  simp [decode01, onlyIf]
theorem sra (st : Stall) (d a b : Reg) : Statement (.sra st d a b) := by
  intro q w h; cases h
  rw [maj01 _ rfl]
  simp [decode01, onlyIf]
theorem rotr (st : Stall) (d a b : Reg) : Statement (.rotr st d a b) := by
  intro q w h; cases h
  rw [maj01 _ rfl]
  simp [decode01, onlyIf]
theorem clz (st : Stall) (d a : Reg) : Statement (.clz st d a) := by
  intro q w h; cases h
  rw [maj01 _ rfl]
  simp [decode01, onlyIf]
theorem ctz (st : Stall) (d a : Reg) : Statement (.ctz st d a) := by
  intro q w h; cases h
  rw [maj01 _ rfl]
  simp [decode01, onlyIf]
theorem popc (st : Stall) (d a : Reg) : Statement (.popc st d a) := by
  intro q w h; cases h
  rw [maj01 _ rfl]
  simp [decode01, onlyIf]
theorem slt (st : Stall) (t : Sgn) (d a b : Reg) : Statement (.slt st t d a b) := by
  intro q w h; cases h
  rw [maj02 _ rfl]
  revert w; cases t <;> simp [decode02, onlyIf, Sgn.code, Sgn.ofCode, Instr.wf, belayScopeWf]
theorem seq (st : Stall) (d a b : Reg) : Statement (.seq st d a b) := by
  intro q w h; cases h
  rw [maj02 _ rfl]
  simp [decode02, onlyIf]
theorem sne (st : Stall) (d a b : Reg) : Statement (.sne st d a b) := by
  intro q w h; cases h
  rw [maj02 _ rfl]
  simp [decode02, onlyIf]
theorem sext (st : Stall) (w : ExtW) (d a : Reg) : Statement (.sext st w d a) := by
  intro q w h; cases h
  rw [maj02 _ rfl]
  revert w; cases w <;> simp [decode02, onlyIf, ExtW.code, ExtW.ofCode, Instr.wf, belayScopeWf]
theorem zext (st : Stall) (w : ExtW) (d a : Reg) : Statement (.zext st w d a) := by
  intro q w h; cases h
  rw [maj02 _ rfl]
  revert w; cases w <;> simp [decode02, onlyIf, ExtW.code, ExtW.ofCode, Instr.wf, belayScopeWf]
theorem addi (st : Stall) (d a : Reg) (imm : BitVec 14) : Statement (.addi st d a imm) := by
  intro q w h; cases h
  simp only [decodeParts, mkI, Parts.imm14, cut14]
  simp [onlyIf]
theorem andi (st : Stall) (d a : Reg) (imm : BitVec 14) : Statement (.andi st d a imm) := by
  intro q w h; cases h
  simp only [decodeParts, mkI, Parts.imm14, cut14]
  simp [onlyIf]
theorem ori (st : Stall) (d a : Reg) (imm : BitVec 14) : Statement (.ori st d a imm) := by
  intro q w h; cases h
  simp only [decodeParts, mkI, Parts.imm14, cut14]
  simp [onlyIf]
theorem xori (st : Stall) (d a : Reg) (imm : BitVec 14) : Statement (.xori st d a imm) := by
  intro q w h; cases h
  simp only [decodeParts, mkI, Parts.imm14, cut14]
  simp [onlyIf]
theorem slti (st : Stall) (d a : Reg) (imm : BitVec 14) : Statement (.slti st d a imm) := by
  intro q w h; cases h
  simp only [decodeParts, mkI, Parts.imm14, cut14]
  simp [onlyIf]
theorem shli (st : Stall) (d a : Reg) (sh : BitVec 6) : Statement (.shli st d a sh) := by
  intro q w h; cases h
  simp only [decodeParts, mkI, Parts.imm14, cut14, cat_lo, cat_hi]
  simp [onlyIf]
theorem shri (st : Stall) (d a : Reg) (sh : BitVec 6) : Statement (.shri st d a sh) := by
  intro q w h; cases h
  simp only [decodeParts, mkI, Parts.imm14, cut14, cat_lo, cat_hi]
  simp [onlyIf]
theorem srai (st : Stall) (d a : Reg) (sh : BitVec 6) : Statement (.srai st d a sh) := by
  intro q w h; cases h
  simp only [decodeParts, mkI, Parts.imm14, cut14, cat_lo, cat_hi]
  simp [onlyIf]
theorem lui (st : Stall) (d : Reg) (imm : BitVec 19) : Statement (.lui st d imm) := by
  intro q w h; cases h
  simp only [decodeParts, mkU, Parts.imm19, cut19]
  simp [onlyIf]
theorem lcat (st : Stall) (d : Reg) (imm : BitVec 19) : Statement (.lcat st d imm) := by
  intro q w h; cases h
  simp only [decodeParts, mkU, Parts.imm19, cut19]
  simp [onlyIf]
theorem lpc (st : Stall) (d : Reg) (imm : BitVec 19) : Statement (.lpc st d imm) := by
  intro q w h; cases h
  simp only [decodeParts, mkU, Parts.imm19, cut19]
  simp [onlyIf]
theorem adda (st : Stall) (d a b : Reg) : Statement (.adda st d a b) := by
  intro q w h; cases h
  rw [maj0E _ rfl]
  simp [decode0E, onlyIf]
theorem tagset (st : Stall) (d a b : Reg) : Statement (.tagset st d a b) := by
  intro q w h; cases h
  rw [maj0E _ rfl]
  simp [decode0E, onlyIf]
theorem tagget (st : Stall) (d a : Reg) : Statement (.tagget st d a) := by
  intro q w h; cases h
  rw [maj0E _ rfl]
  simp [decode0E, onlyIf]
theorem suba (st : Stall) (d a b : Reg) : Statement (.suba st d a b) := by
  intro q w h; cases h
  rw [maj0E _ rfl]
  simp [decode0E, onlyIf]
theorem addai (st : Stall) (d a : Reg) (imm : BitVec 14) : Statement (.addai st d a imm) := by
  intro q w h; cases h
  simp only [decodeParts, mkI, Parts.imm14, cut14]
  simp [onlyIf]
theorem beq (st : Stall) (a b : Reg) (disp : BitVec 14) : Statement (.beq st a b disp) := by
  intro q w h; cases h
  simp only [decodeParts, mkI, Parts.imm14, cut14]
  simp [onlyIf]
theorem bne (st : Stall) (a b : Reg) (disp : BitVec 14) : Statement (.bne st a b disp) := by
  intro q w h; cases h
  simp only [decodeParts, mkI, Parts.imm14, cut14]
  simp [onlyIf]
theorem blt (st : Stall) (a b : Reg) (disp : BitVec 14) : Statement (.blt st a b disp) := by
  intro q w h; cases h
  simp only [decodeParts, mkI, Parts.imm14, cut14]
  simp [onlyIf]
theorem bge (st : Stall) (a b : Reg) (disp : BitVec 14) : Statement (.bge st a b disp) := by
  intro q w h; cases h
  simp only [decodeParts, mkI, Parts.imm14, cut14]
  simp [onlyIf]
theorem jmp (st : Stall) (disp : BitVec 24) : Statement (.jmp st disp) := by
  intro q w h; cases h
  simp only [decodeParts, mkJ, Parts.disp24, cut24]
  simp [onlyIf]
theorem call (st : Stall) (disp : BitVec 24) : Statement (.call st disp) := by
  intro q w h; cases h
  simp only [decodeParts, mkJ, Parts.disp24, cut24]
  simp [onlyIf]
theorem jr (st : Stall) (a : Reg) : Statement (.jr st a) := by
  intro q w h; cases h
  rw [maj16 _ rfl]
  simp [decode16, onlyIf]
theorem callr (st : Stall) (d a : Reg) : Statement (.callr st d a) := by
  intro q w h; cases h
  rw [maj16 _ rfl]
  simp [decode16, onlyIf]
theorem nop (st : Stall) : Statement (.nop st) := by
  intro q w h; cases h
  rw [maj16 _ rfl]
  simp [decode16, onlyIf]
theorem cairn (st : Stall) : Statement (.cairn st) := by
  intro q w h; cases h
  rw [maj16 _ rfl]
  simp [decode16, onlyIf]
theorem dly (st : Stall) (a : Reg) : Statement (.dly st a) := by
  intro q w h; cases h
  rw [maj16 _ rfl]
  simp [decode16, onlyIf]
theorem tsync (st : Stall) : Statement (.tsync st) := by
  intro q w h; cases h
  rw [maj16 _ rfl]
  simp [decode16, onlyIf]
theorem hstart (st : Stall) (d a : Reg) : Statement (.hstart st d a) := by
  intro q w h; cases h
  rw [maj17 _ rfl]
  simp [decode17, onlyIf]
theorem hexit (st : Stall) : Statement (.hexit st) := by
  intro q w h; cases h
  rw [maj17 _ rfl]
  simp [decode17, onlyIf]
theorem hwait (st : Stall) (a : Reg) : Statement (.hwait st a) := by
  intro q w h; cases h
  rw [maj17 _ rfl]
  simp [decode17, onlyIf]
theorem tdone (st : Stall) : Statement (.tdone st) := by
  intro q w h; cases h
  rw [maj17 _ rfl]
  simp [decode17, onlyIf]
theorem tdec (st : Stall) (a : Reg) : Statement (.tdec st a) := by
  intro q w h; cases h
  rw [maj17 _ rfl]
  simp [decode17, onlyIf]
theorem tcancel (st : Stall) (d a : Reg) : Statement (.tcancel st d a) := by
  intro q w h; cases h
  rw [maj17 _ rfl]
  simp [decode17, onlyIf]
theorem tid (st : Stall) (d : Reg) : Statement (.tid st d) := by
  intro q w h; cases h
  rw [maj17 _ rfl]
  simp [decode17, onlyIf]
theorem fadd (st : Stall) (t : FTy) (r : Rnd) (d a b : Reg) : Statement (.fadd st t r d a b) := by
  intro q w h; cases h
  rw [maj18 _ rfl]
  cases t <;> cases r <;> simp [decode18, onlyIf, FTy.code, Rnd.code, FTy.ofCode, Rnd.ofCode]
theorem fsub (st : Stall) (t : FTy) (r : Rnd) (d a b : Reg) : Statement (.fsub st t r d a b) := by
  intro q w h; cases h
  rw [maj18 _ rfl]
  cases t <;> cases r <;> simp [decode18, onlyIf, FTy.code, Rnd.code, FTy.ofCode, Rnd.ofCode]
theorem fmul (st : Stall) (t : FTy) (r : Rnd) (d a b : Reg) : Statement (.fmul st t r d a b) := by
  intro q w h; cases h
  rw [maj18 _ rfl]
  cases t <;> cases r <;> simp [decode18, onlyIf, FTy.code, Rnd.code, FTy.ofCode, Rnd.ofCode]
theorem fdiv (st : Stall) (t : FTy) (r : Rnd) (d a b : Reg) : Statement (.fdiv st t r d a b) := by
  intro q w h; cases h
  rw [maj18 _ rfl]
  cases t <;> cases r <;> simp [decode18, onlyIf, FTy.code, Rnd.code, FTy.ofCode, Rnd.ofCode]
theorem fsqrt (st : Stall) (t : FTy) (r : Rnd) (d a : Reg) : Statement (.fsqrt st t r d a) := by
  intro q w h; cases h
  rw [maj18 _ rfl]
  cases t <;> cases r <;> simp [decode18, onlyIf, FTy.code, Rnd.code, FTy.ofCode, Rnd.ofCode]
theorem fma (st : Stall) (t : FTy) (r : Rnd) (d a b : Reg) : Statement (.fma st t r d a b) := by
  intro q w h; cases h
  rw [maj18 _ rfl]
  cases t <;> cases r <;> simp [decode18, onlyIf, FTy.code, Rnd.code, FTy.ofCode, Rnd.ofCode]
theorem fmin (st : Stall) (t : FTy) (d a b : Reg) : Statement (.fmin st t d a b) := by
  intro q w h; cases h
  rw [maj18 _ rfl]
  cases t <;> simp [decode18, onlyIf, FTy.code, Rnd.code, FTy.ofCode, Rnd.ofCode]
theorem fmax (st : Stall) (t : FTy) (d a b : Reg) : Statement (.fmax st t d a b) := by
  intro q w h; cases h
  rw [maj18 _ rfl]
  cases t <;> simp [decode18, onlyIf, FTy.code, Rnd.code, FTy.ofCode, Rnd.ofCode]
theorem feq (st : Stall) (t : FTy) (d a b : Reg) : Statement (.feq st t d a b) := by
  intro q w h; cases h
  rw [maj18 _ rfl]
  cases t <;> simp [decode18, onlyIf, FTy.code, Rnd.code, FTy.ofCode, Rnd.ofCode]
theorem flt (st : Stall) (t : FTy) (d a b : Reg) : Statement (.flt st t d a b) := by
  intro q w h; cases h
  rw [maj18 _ rfl]
  cases t <;> simp [decode18, onlyIf, FTy.code, Rnd.code, FTy.ofCode, Rnd.ofCode]
theorem fle (st : Stall) (t : FTy) (d a b : Reg) : Statement (.fle st t d a b) := by
  intro q w h; cases h
  rw [maj18 _ rfl]
  cases t <;> simp [decode18, onlyIf, FTy.code, Rnd.code, FTy.ofCode, Rnd.ofCode]
theorem fclass (st : Stall) (t : FTy) (d a : Reg) : Statement (.fclass st t d a) := by
  intro q w h; cases h
  rw [maj18 _ rfl]
  cases t <;> simp [decode18, onlyIf, FTy.code, Rnd.code, FTy.ofCode, Rnd.ofCode]
theorem fexp2 (st : Stall) (t : FTy) (d a : Reg) : Statement (.fexp2 st t d a) := by
  intro q w h; cases h
  rw [maj18 _ rfl]
  cases t <;> simp [decode18, onlyIf, FTy.code, Rnd.code, FTy.ofCode, Rnd.ofCode]
theorem fneg (st : Stall) (t : FTy) (d a : Reg) : Statement (.fneg st t d a) := by
  intro q w h; cases h
  rw [maj18 _ rfl]
  cases t <;> simp [decode18, onlyIf, FTy.code, Rnd.code, FTy.ofCode, Rnd.ofCode]
theorem fabs (st : Stall) (t : FTy) (d a : Reg) : Statement (.fabs st t d a) := by
  intro q w h; cases h
  rw [maj18 _ rfl]
  cases t <;> simp [decode18, onlyIf, FTy.code, Rnd.code, FTy.ofCode, Rnd.ofCode]
theorem fcvt (st : Stall) (tgt : Fmt) (src : CvtSrc) (r : Rnd) (nsat : Bool) (d a : Reg) : Statement (.fcvt st tgt src r nsat d a) := by
  intro q w h; cases h
  rw [maj19 _ rfl]
  have e : (tgt.code ++ src.code ++ r.code : BitVec 9).extractLsb' 5 4 = tgt.code := cat_top _ _ _
  simp only [decode19, cat_lo, cat_mid, e, of_codeCvtSrc, of_codeFmt, of_codeRnd]
  cases nsat <;> simp [onlyIf] <;> exact w
theorem ld (st : Stall) (t : LdTy) (d b : Reg) (off : BitVec 11) : Statement (.ld st t d b off) := by
  intro q w h; cases h
  rw [maj20 _ rfl]
  simp only [decodeM, mkM, Parts.m, Parts.off, cat_lo, cat_hi, cut11, of_codeLdTy]; rfl
theorem ldFresh (st : Stall) (t : LdTy) (d b : Reg) (off : BitVec 11) : Statement (.ldFresh st t d b off) := by
  intro q w h; cases h
  rw [maj21 _ rfl]
  simp only [decodeM, mkM, Parts.m, Parts.off, cat_lo, cat_hi, cut11, of_codeLdTy]; rfl
theorem st (st : Stall) (t : StTy) (d b : Reg) (off : BitVec 11) : Statement (.st st t d b off) := by
  intro q w h; cases h
  rw [maj22 _ rfl]
  simp only [decodeM, mkM, Parts.m, Parts.off, cat_lo, cat_hi, cut11, of_codeStTy]; rfl
theorem ldAcq (st : Stall) (sc : Scope) (d b : Reg) (off : BitVec 11) : Statement (.ldAcq st sc d b off) := by
  intro q w h; cases h
  rw [maj23 _ rfl]
  simp only [decodeM, mkM, Parts.m, Parts.off, cat_lo, cat_hi, cut11, of_codeScope]; rfl
theorem stRel (st : Stall) (sc : Scope) (d b : Reg) (off : BitVec 11) : Statement (.stRel st sc d b off) := by
  intro q w h; cases h
  rw [maj24 _ rfl]
  simp only [decodeM, mkM, Parts.m, Parts.off, cat_lo, cat_hi, cut11, of_codeScope]; rfl
theorem ldw (st : Stall) (t : LdTy) (d : Reg) (w : BitVec 3) (b : Reg) : Statement (.ldw st t d w b) := by
  intro q w h; cases h
  rw [maj25 _ rfl]
  simp only [decode25]; cases t <;> simp only [cat_lo, cat_hi] <;> simp [onlyIf, LdTy.code]
theorem ldxF32 (st : Stall) (d a b : Reg) : Statement (.ldxF32 st d a b) := by
  intro q w h; cases h
  rw [maj25 _ rfl]
  simp [decode25, onlyIf]
theorem ldxS32 (st : Stall) (d a b : Reg) : Statement (.ldxS32 st d a b) := by
  intro q w h; cases h
  rw [maj25 _ rfl]
  simp [decode25, onlyIf]
theorem stx (st : Stall) (d a b : Reg) : Statement (.stx st d a b) := by
  intro q w h; cases h
  rw [maj25 _ rfl]
  simp [decode25, onlyIf]
theorem stxNsat (st : Stall) (d a b : Reg) : Statement (.stxNsat st d a b) := by
  intro q w h; cases h
  rw [maj25 _ rfl]
  simp [decode25, onlyIf]
theorem pref (st : Stall) (a b : Reg) : Statement (.pref st a b) := by
  intro q w h; cases h
  rw [maj25 _ rfl]
  simp [decode25, onlyIf]
theorem spresize (st : Stall) (a : Reg) : Statement (.spresize st a) := by
  intro q w h; cases h
  rw [maj26 _ rfl]
  simp [decode26, onlyIf]
theorem renew (st : Stall) (a b : Reg) : Statement (.renew st a b) := by
  intro q w h; cases h
  rw [maj26 _ rfl]
  simp [decode26, onlyIf]
theorem flush (st : Stall) (a b : Reg) : Statement (.flush st a b) := by
  intro q w h; cases h
  rw [maj26 _ rfl]
  simp [decode26, onlyIf]
theorem flushinv (st : Stall) (a b : Reg) : Statement (.flushinv st a b) := by
  intro q w h; cases h
  rw [maj26 _ rfl]
  simp [decode26, onlyIf]
theorem seqset (st : Stall) (a b : Reg) : Statement (.seqset st a b) := by
  intro q w h; cases h
  rw [maj26 _ rfl]
  simp [decode26, onlyIf]
theorem seqget (st : Stall) (d a : Reg) : Statement (.seqget st d a) := by
  intro q w h; cases h
  rw [maj26 _ rfl]
  simp [decode26, onlyIf]
theorem icinv (st : Stall) (sc : Scope) (a b : Reg) : Statement (.icinv st sc a b) := by
  intro q w h; cases h
  rw [maj26 _ rfl]
  revert w; cases sc <;> simp [decode26, onlyIf, Scope.code, Scope.ofCode, Instr.wf, belayScopeWf]
theorem atom (st : Stall) (op : AOp) (t : ATy) (d a b : Reg) : Statement (.atom st op t d a b) := by
  intro q w h; cases h
  rw [maj28 _ rfl]
  have e : (op.code ++ t.code : BitVec 9).extractLsb' 4 5 = op.code := cat_hi _ _
  simp only [decodeAtom, cat_lo, e, of_codeAOp, of_codeATy]
  simp [onlyIf, w]
theorem atomnr (st : Stall) (op : AOp) (t : ATy) (a b : Reg) : Statement (.atomnr st op t a b) := by
  intro q w h; cases h
  rw [maj29 _ rfl]
  have e : (op.code ++ t.code : BitVec 9).extractLsb' 4 5 = op.code := cat_hi _ _
  simp only [decodeAtom, cat_lo, e, of_codeAOp, of_codeATy]
  simp [onlyIf, w]
theorem fenceAcq (st : Stall) (sc : Scope) : Statement (.fenceAcq st sc) := by
  intro q w h; cases h
  rw [maj2A _ rfl]
  revert w; cases sc <;> simp [decode2A, onlyIf, Scope.code, Scope.ofCode, Instr.wf, belayScopeWf]
theorem fenceRel (st : Stall) (sc : Scope) : Statement (.fenceRel st sc) := by
  intro q w h; cases h
  rw [maj2A _ rfl]
  revert w; cases sc <;> simp [decode2A, onlyIf, Scope.code, Scope.ofCode, Instr.wf, belayScopeWf]
theorem fenceAr (st : Stall) (sc : Scope) : Statement (.fenceAr st sc) := by
  intro q w h; cases h
  rw [maj2A _ rfl]
  revert w; cases sc <;> simp [decode2A, onlyIf, Scope.code, Scope.ofCode, Instr.wf, belayScopeWf]
theorem belay (st : Stall) (sc : Scope) (a : Reg) : Statement (.belay st sc a) := by
  intro q w h; cases h
  rw [maj2B _ rfl]
  revert w; cases sc <;> simp [decode2B, onlyIf, belayScope, Scope.ofCode, Instr.wf, belayScopeWf]
theorem barr (st : Stall) (sc : Scope) (d a : Reg) : Statement (.barr st sc d a) := by
  intro q w h; cases h
  rw [maj2B _ rfl]
  revert w; cases sc <;> simp [decode2B, onlyIf, belayScope, Scope.ofCode, Instr.wf, belayScopeWf]
theorem bwait (st : Stall) (sc : Scope) (a b : Reg) : Statement (.bwait st sc a b) := by
  intro q w h; cases h
  rw [maj2B _ rfl]
  revert w; cases sc <;> simp [decode2B, onlyIf, belayScope, Scope.ofCode, Instr.wf, belayScopeWf]
theorem wfe (st : Stall) (d a : Reg) : Statement (.wfe st d a) := by
  intro q w h; cases h
  rw [maj2C _ rfl]
  simp [decode2C, onlyIf]
theorem evsig (st : Stall) (a : Reg) : Statement (.evsig st a) := by
  intro q w h; cases h
  rw [maj2C _ rfl]
  simp [decode2C, onlyIf]
theorem cwait (st : Stall) (a b : Reg) : Statement (.cwait st a b) := by
  intro q w h; cases h
  rw [maj2C _ rfl]
  simp [decode2C, onlyIf]
theorem cwaitb (st : Stall) (d a b : Reg) : Statement (.cwaitb st d a b) := by
  intro q w h; cases h
  rw [maj2C _ rfl]
  simp [decode2C, onlyIf]
theorem qpush (st : Stall) (a b : Reg) : Statement (.qpush st a b) := by
  intro q w h; cases h
  rw [maj2C _ rfl]
  simp [decode2C, onlyIf]
theorem qpop (st : Stall) (d a : Reg) : Statement (.qpop st d a) := by
  intro q w h; cases h
  rw [maj2C _ rfl]
  simp [decode2C, onlyIf]
theorem qpopb (st : Stall) (d a b : Reg) : Statement (.qpopb st d a b) := by
  intro q w h; cases h
  rw [maj2C _ rfl]
  simp [decode2C, onlyIf]
theorem futwait (st : Stall) (d a : Reg) : Statement (.futwait st d a) := by
  intro q w h; cases h
  rw [maj2D _ rfl]
  simp [decode2D, onlyIf]
theorem futset (st : Stall) (d a b : Reg) : Statement (.futset st d a b) := by
  intro q w h; cases h
  rw [maj2D _ rfl]
  simp [decode2D, onlyIf]
theorem futwaitb (st : Stall) (d a b : Reg) : Statement (.futwaitb st d a b) := by
  intro q w h; cases h
  rw [maj2D _ rfl]
  simp [decode2D, onlyIf]
theorem send (st : Stall) (d a b : Reg) : Statement (.send st d a b) := by
  intro q w h; cases h
  rw [maj2E _ rfl]
  simp [decode2E, onlyIf]
theorem sendb (st : Stall) (d a b : Reg) : Statement (.sendb st d a b) := by
  intro q w h; cases h
  rw [maj2E _ rfl]
  simp [decode2E, onlyIf]
theorem recv (st : Stall) (d : Reg) : Statement (.recv st d) := by
  intro q w h; cases h
  rw [maj2E _ rfl]
  simp [decode2E, onlyIf]
theorem recvb (st : Stall) (d a : Reg) : Statement (.recvb st d a) := by
  intro q w h; cases h
  rw [maj2E _ rfl]
  simp [decode2E, onlyIf]
theorem vadd (st : Stall) (d a b : VReg) (p : PReg) : Statement (.vadd st d a b p) := by
  intro q w h; cases h
  rw [maj30 _ rfl]
  simp only [decode30, mkV, Parts.p, Parts.fn6, cat_lo, cat_hi]
  simp [onlyIf]
theorem vsub (st : Stall) (d a b : VReg) (p : PReg) : Statement (.vsub st d a b p) := by
  intro q w h; cases h
  rw [maj30 _ rfl]
  simp only [decode30, mkV, Parts.p, Parts.fn6, cat_lo, cat_hi]
  simp [onlyIf]
theorem vmul (st : Stall) (d a b : VReg) (p : PReg) : Statement (.vmul st d a b p) := by
  intro q w h; cases h
  rw [maj30 _ rfl]
  simp only [decode30, mkV, Parts.p, Parts.fn6, cat_lo, cat_hi]
  simp [onlyIf]
theorem vfma (st : Stall) (d a b : VReg) (p : PReg) : Statement (.vfma st d a b p) := by
  intro q w h; cases h
  rw [maj30 _ rfl]
  simp only [decode30, mkV, Parts.p, Parts.fn6, cat_lo, cat_hi]
  simp [onlyIf]
theorem vdiv (st : Stall) (d a b : VReg) (p : PReg) : Statement (.vdiv st d a b p) := by
  intro q w h; cases h
  rw [maj30 _ rfl]
  simp only [decode30, mkV, Parts.p, Parts.fn6, cat_lo, cat_hi]
  simp [onlyIf]
theorem vsqrt (st : Stall) (d a : VReg) (p : PReg) : Statement (.vsqrt st d a p) := by
  intro q w h; cases h
  rw [maj30 _ rfl]
  simp only [decode30, mkV, Parts.p, Parts.fn6, cat_lo, cat_hi]
  simp [onlyIf]
theorem vmin (st : Stall) (d a b : VReg) (p : PReg) : Statement (.vmin st d a b p) := by
  intro q w h; cases h
  rw [maj30 _ rfl]
  simp only [decode30, mkV, Parts.p, Parts.fn6, cat_lo, cat_hi]
  simp [onlyIf]
theorem vmax (st : Stall) (d a b : VReg) (p : PReg) : Statement (.vmax st d a b p) := by
  intro q w h; cases h
  rw [maj30 _ rfl]
  simp only [decode30, mkV, Parts.p, Parts.fn6, cat_lo, cat_hi]
  simp [onlyIf]
theorem vexp2 (st : Stall) (d a : VReg) (p : PReg) : Statement (.vexp2 st d a p) := by
  intro q w h; cases h
  rw [maj30 _ rfl]
  simp only [decode30, mkV, Parts.p, Parts.fn6, cat_lo, cat_hi]
  simp [onlyIf]
theorem vabs (st : Stall) (d a : VReg) (p : PReg) : Statement (.vabs st d a p) := by
  intro q w h; cases h
  rw [maj30 _ rfl]
  simp only [decode30, mkV, Parts.p, Parts.fn6, cat_lo, cat_hi]
  simp [onlyIf]
theorem vneg (st : Stall) (d a : VReg) (p : PReg) : Statement (.vneg st d a p) := by
  intro q w h; cases h
  rw [maj30 _ rfl]
  simp only [decode30, mkV, Parts.p, Parts.fn6, cat_lo, cat_hi]
  simp [onlyIf]
theorem viadd (st : Stall) (d a b : VReg) (p : PReg) : Statement (.viadd st d a b p) := by
  intro q w h; cases h
  rw [maj31 _ rfl]
  simp only [decode31, mkV, Parts.p, Parts.fn6, cat_lo, cat_hi]
  simp [onlyIf]
theorem visub (st : Stall) (d a b : VReg) (p : PReg) : Statement (.visub st d a b p) := by
  intro q w h; cases h
  rw [maj31 _ rfl]
  simp only [decode31, mkV, Parts.p, Parts.fn6, cat_lo, cat_hi]
  simp [onlyIf]
theorem vimul (st : Stall) (d a b : VReg) (p : PReg) : Statement (.vimul st d a b p) := by
  intro q w h; cases h
  rw [maj31 _ rfl]
  simp only [decode31, mkV, Parts.p, Parts.fn6, cat_lo, cat_hi]
  simp [onlyIf]
theorem viminS32 (st : Stall) (d a b : VReg) (p : PReg) : Statement (.viminS32 st d a b p) := by
  intro q w h; cases h
  rw [maj31 _ rfl]
  simp only [decode31, mkV, Parts.p, Parts.fn6, cat_lo, cat_hi]
  simp [onlyIf]
theorem viminZ32 (st : Stall) (d a b : VReg) (p : PReg) : Statement (.viminZ32 st d a b p) := by
  intro q w h; cases h
  rw [maj31 _ rfl]
  simp only [decode31, mkV, Parts.p, Parts.fn6, cat_lo, cat_hi]
  simp [onlyIf]
theorem vimaxS32 (st : Stall) (d a b : VReg) (p : PReg) : Statement (.vimaxS32 st d a b p) := by
  intro q w h; cases h
  rw [maj31 _ rfl]
  simp only [decode31, mkV, Parts.p, Parts.fn6, cat_lo, cat_hi]
  simp [onlyIf]
theorem vimaxZ32 (st : Stall) (d a b : VReg) (p : PReg) : Statement (.vimaxZ32 st d a b p) := by
  intro q w h; cases h
  rw [maj31 _ rfl]
  simp only [decode31, mkV, Parts.p, Parts.fn6, cat_lo, cat_hi]
  simp [onlyIf]
theorem vand (st : Stall) (d a b : VReg) (p : PReg) : Statement (.vand st d a b p) := by
  intro q w h; cases h
  rw [maj31 _ rfl]
  simp only [decode31, mkV, Parts.p, Parts.fn6, cat_lo, cat_hi]
  simp [onlyIf]
theorem vor (st : Stall) (d a b : VReg) (p : PReg) : Statement (.vor st d a b p) := by
  intro q w h; cases h
  rw [maj31 _ rfl]
  simp only [decode31, mkV, Parts.p, Parts.fn6, cat_lo, cat_hi]
  simp [onlyIf]
theorem vxor (st : Stall) (d a b : VReg) (p : PReg) : Statement (.vxor st d a b p) := by
  intro q w h; cases h
  rw [maj31 _ rfl]
  simp only [decode31, mkV, Parts.p, Parts.fn6, cat_lo, cat_hi]
  simp [onlyIf]
theorem vshl (st : Stall) (d a b : VReg) (p : PReg) : Statement (.vshl st d a b p) := by
  intro q w h; cases h
  rw [maj31 _ rfl]
  simp only [decode31, mkV, Parts.p, Parts.fn6, cat_lo, cat_hi]
  simp [onlyIf]
theorem vshr (st : Stall) (d a b : VReg) (p : PReg) : Statement (.vshr st d a b p) := by
  intro q w h; cases h
  rw [maj31 _ rfl]
  simp only [decode31, mkV, Parts.p, Parts.fn6, cat_lo, cat_hi]
  simp [onlyIf]
theorem vsra (st : Stall) (d a b : VReg) (p : PReg) : Statement (.vsra st d a b p) := by
  intro q w h; cases h
  rw [maj31 _ rfl]
  simp only [decode31, mkV, Parts.p, Parts.fn6, cat_lo, cat_hi]
  simp [onlyIf]
theorem vfcmpEq (st : Stall) (d : PReg) (a b : VReg) (p : PReg) : Statement (.vfcmpEq st d a b p) := by
  intro q w h; cases h
  rw [maj32 _ rfl]
  simp only [decode32, mkV, Parts.p, Parts.fn6, cat_lo, cat_hi]
  simp [onlyIf]
theorem vfcmpLt (st : Stall) (d : PReg) (a b : VReg) (p : PReg) : Statement (.vfcmpLt st d a b p) := by
  intro q w h; cases h
  rw [maj32 _ rfl]
  simp only [decode32, mkV, Parts.p, Parts.fn6, cat_lo, cat_hi]
  simp [onlyIf]
theorem vfcmpLe (st : Stall) (d : PReg) (a b : VReg) (p : PReg) : Statement (.vfcmpLe st d a b p) := by
  intro q w h; cases h
  rw [maj32 _ rfl]
  simp only [decode32, mkV, Parts.p, Parts.fn6, cat_lo, cat_hi]
  simp [onlyIf]
theorem vicmpEq (st : Stall) (d : PReg) (a b : VReg) (p : PReg) : Statement (.vicmpEq st d a b p) := by
  intro q w h; cases h
  rw [maj32 _ rfl]
  simp only [decode32, mkV, Parts.p, Parts.fn6, cat_lo, cat_hi]
  simp [onlyIf]
theorem vicmpLtS32 (st : Stall) (d : PReg) (a b : VReg) (p : PReg) : Statement (.vicmpLtS32 st d a b p) := by
  intro q w h; cases h
  rw [maj32 _ rfl]
  simp only [decode32, mkV, Parts.p, Parts.fn6, cat_lo, cat_hi]
  simp [onlyIf]
theorem vicmpLtZ32 (st : Stall) (d : PReg) (a b : VReg) (p : PReg) : Statement (.vicmpLtZ32 st d a b p) := by
  intro q w h; cases h
  rw [maj32 _ rfl]
  simp only [decode32, mkV, Parts.p, Parts.fn6, cat_lo, cat_hi]
  simp [onlyIf]
theorem vsel (st : Stall) (d a b : VReg) (p : PReg) : Statement (.vsel st d a b p) := by
  intro q w h; cases h
  rw [maj32 _ rfl]
  simp only [decode32, mkV, Parts.p, Parts.fn6, cat_lo, cat_hi]
  simp [onlyIf]
theorem vpset (st : Stall) (d : PReg) (a : VReg) (p : PReg) : Statement (.vpset st d a p) := by
  intro q w h; cases h
  rw [maj32 _ rfl]
  simp only [decode32, mkV, Parts.p, Parts.fn6, cat_lo, cat_hi]
  simp [onlyIf]
theorem vpget (st : Stall) (d : VReg) (a : PReg) (p : PReg) : Statement (.vpget st d a p) := by
  intro q w h; cases h
  rw [maj32 _ rfl]
  simp only [decode32, mkV, Parts.p, Parts.fn6, cat_lo, cat_hi]
  simp [onlyIf]
theorem vperm (st : Stall) (d a b : VReg) (p : PReg) : Statement (.vperm st d a b p) := by
  intro q w h; cases h
  rw [maj32 _ rfl]
  simp only [decode32, mkV, Parts.p, Parts.fn6, cat_lo, cat_hi]
  simp [onlyIf]
theorem vcvt (st : Stall) (tgt : Fmt) (src : VSrc) (nsat : Bool) (d a : VReg) (p : PReg) : Statement (.vcvt st tgt src nsat d a p) := by
  intro q w h; cases h
  rw [maj33 _ rfl]
  have e : (tgt.code ++ src.code : BitVec 6).extractLsb' 2 4 = tgt.code := cat_hi _ _
  simp only [decode33, mkV, Parts.p, Parts.fn6, cat_lo, cat_hi, e, of_codeFmt, of_codeVSrc]
  cases nsat <;> simp [onlyIf] <;> exact w
theorem vradd (st : Stall) (d a : VReg) (p : PReg) : Statement (.vradd st d a p) := by
  intro q w h; cases h
  rw [maj34 _ rfl]
  simp only [decode34, mkV, Parts.p, Parts.fn6, cat_lo, cat_hi]
  simp [onlyIf]
theorem vrmax (st : Stall) (d a : VReg) (p : PReg) : Statement (.vrmax st d a p) := by
  intro q w h; cases h
  rw [maj34 _ rfl]
  simp only [decode34, mkV, Parts.p, Parts.fn6, cat_lo, cat_hi]
  simp [onlyIf]
theorem vrmin (st : Stall) (d a : VReg) (p : PReg) : Statement (.vrmin st d a p) := by
  intro q w h; cases h
  rw [maj34 _ rfl]
  simp only [decode34, mkV, Parts.p, Parts.fn6, cat_lo, cat_hi]
  simp [onlyIf]
theorem vriadd (st : Stall) (d a : VReg) (p : PReg) : Statement (.vriadd st d a p) := by
  intro q w h; cases h
  rw [maj34 _ rfl]
  simp only [decode34, mkV, Parts.p, Parts.fn6, cat_lo, cat_hi]
  simp [onlyIf]
theorem vrimaxS32 (st : Stall) (d a : VReg) (p : PReg) : Statement (.vrimaxS32 st d a p) := by
  intro q w h; cases h
  rw [maj34 _ rfl]
  simp only [decode34, mkV, Parts.p, Parts.fn6, cat_lo, cat_hi]
  simp [onlyIf]
theorem vrimaxZ32 (st : Stall) (d a : VReg) (p : PReg) : Statement (.vrimaxZ32 st d a p) := by
  intro q w h; cases h
  rw [maj34 _ rfl]
  simp only [decode34, mkV, Parts.p, Parts.fn6, cat_lo, cat_hi]
  simp [onlyIf]
theorem vriminS32 (st : Stall) (d a : VReg) (p : PReg) : Statement (.vriminS32 st d a p) := by
  intro q w h; cases h
  rw [maj34 _ rfl]
  simp only [decode34, mkV, Parts.p, Parts.fn6, cat_lo, cat_hi]
  simp [onlyIf]
theorem vriminZ32 (st : Stall) (d a : VReg) (p : PReg) : Statement (.vriminZ32 st d a p) := by
  intro q w h; cases h
  rw [maj34 _ rfl]
  simp only [decode34, mkV, Parts.p, Parts.fn6, cat_lo, cat_hi]
  simp [onlyIf]
theorem vld (st : Stall) (v : VReg) (d a : Reg) : Statement (.vld st v d a) := by
  intro q w h; cases h
  rw [maj35 _ rfl]
  simp only [decode35, mkX, Parts.xa, cat_lo, cat_hi]
  simp [onlyIf]
theorem vst (st : Stall) (v : VReg) (d a : Reg) : Statement (.vst st v d a) := by
  intro q w h; cases h
  rw [maj35 _ rfl]
  simp only [decode35, mkX, Parts.xa, cat_lo, cat_hi]
  simp [onlyIf]
theorem vldx (st : Stall) (v : VReg) (d a : Reg) : Statement (.vldx st v d a) := by
  intro q w h; cases h
  rw [maj35 _ rfl]
  simp only [decode35, mkX, Parts.xa, cat_lo, cat_hi]
  simp [onlyIf]
theorem vstx (st : Stall) (v : VReg) (d a : Reg) : Statement (.vstx st v d a) := by
  intro q w h; cases h
  rw [maj35 _ rfl]
  simp only [decode35, mkX, Parts.xa, cat_lo, cat_hi]
  simp [onlyIf]
theorem vgather (st : Stall) (v : VReg) (d a : Reg) : Statement (.vgather st v d a) := by
  intro q w h; cases h
  rw [maj35 _ rfl]
  simp only [decode35, mkX, Parts.xa, cat_lo, cat_hi]
  simp [onlyIf]
theorem vscatter (st : Stall) (v : VReg) (d a : Reg) : Statement (.vscatter st v d a) := by
  intro q w h; cases h
  rw [maj35 _ rfl]
  simp only [decode35, mkX, Parts.xa, cat_lo, cat_hi]
  simp [onlyIf]
  simpa [Instr.wf] using w
theorem vbcast (st : Stall) (v : VReg) (a : Reg) : Statement (.vbcast st v a) := by
  intro q w h; cases h
  rw [maj35 _ rfl]
  simp only [decode35, mkX, Parts.xa, cat_lo, cat_hi]
  simp [onlyIf]
theorem vins (st : Stall) (v : VReg) (d a : Reg) : Statement (.vins st v d a) := by
  intro q w h; cases h
  rw [maj35 _ rfl]
  simp only [decode35, mkX, Parts.xa, cat_lo, cat_hi]
  simp [onlyIf]
theorem vext (st : Stall) (v : VReg) (d a : Reg) : Statement (.vext st v d a) := by
  intro q w h; cases h
  rw [maj35 _ rfl]
  simp only [decode35, mkX, Parts.xa, cat_lo, cat_hi]
  simp [onlyIf]
theorem mmul (st : Stall) (t : Tile) (a b c : Reg) : Statement (.mmul st t a b c) := by
  intro q w h; cases h
  rw [maj38 _ rfl]
  revert w; cases t <;> simp [decode38, onlyIf, Tile.code, Tile.ofCode, Instr.wf, belayScopeWf]
theorem mmac (st : Stall) (t : Tile) (a b c : Reg) : Statement (.mmac st t a b c) := by
  intro q w h; cases h
  rw [maj38 _ rfl]
  revert w; cases t <;> simp [decode38, onlyIf, Tile.code, Tile.ofCode, Instr.wf, belayScopeWf]
theorem mrun (st : Stall) (t : Tile) (a b c : Reg) : Statement (.mrun st t a b c) := by
  intro q w h; cases h
  rw [maj38 _ rfl]
  revert w; cases t <;> simp [decode38, onlyIf, Tile.code, Tile.ofCode, Instr.wf, belayScopeWf]
theorem mread (st : Stall) (t : Tile) (a b c : Reg) : Statement (.mread st t a b c) := by
  intro q w h; cases h
  rw [maj38 _ rfl]
  revert w; cases t <;> simp [decode38, onlyIf, Tile.code, Tile.ofCode, Instr.wf, belayScopeWf]
theorem mzero (st : Stall) (t : Tile) (c : Reg) : Statement (.mzero st t c) := by
  intro q w h; cases h
  rw [maj38 _ rfl]
  revert w; cases t <;> simp [decode38, onlyIf, Tile.code, Tile.ofCode, Instr.wf, belayScopeWf]
theorem mcomb (st : Stall) (t : Tile) (a c : Reg) : Statement (.mcomb st t a c) := by
  intro q w h; cases h
  rw [maj38 _ rfl]
  revert w; cases t <;> simp [decode38, onlyIf, Tile.code, Tile.ofCode, Instr.wf, belayScopeWf]
theorem mprog (st : Stall) (a c : Reg) : Statement (.mprog st a c) := by
  intro q w h; cases h
  rw [maj38 _ rfl]
  simp [decode38, onlyIf, Tile.ofCode]
theorem mload (st : Stall) (t : Tile) (a b c : Reg) : Statement (.mload st t a b c) := by
  intro q w h; cases h
  rw [maj38 _ rfl]
  revert w; cases t <;> simp [decode38, onlyIf, Tile.code, Tile.ofCode, Instr.wf, belayScopeWf]
theorem lease (st : Stall) : Statement (.lease st) := by
  intro q w h; cases h
  rw [maj39 _ rfl]
  simp [decode39, onlyIf]
theorem leaseb (st : Stall) (a : Reg) : Statement (.leaseb st a) := by
  intro q w h; cases h
  rw [maj39 _ rfl]
  simp [decode39, onlyIf]
theorem leasend (st : Stall) : Statement (.leasend st) := by
  intro q w h; cases h
  rw [maj39 _ rfl]
  simp [decode39, onlyIf]
theorem leaseq (st : Stall) (d : Reg) : Statement (.leaseq st d) := by
  intro q w h; cases h
  rw [maj39 _ rfl]
  simp [decode39, onlyIf]
theorem mdim (st : Stall) (a : Reg) : Statement (.mdim st a) := by
  intro q w h; cases h
  rw [maj39 _ rfl]
  simp [decode39, onlyIf]
theorem mseq (st : Stall) (a : Reg) : Statement (.mseq st a) := by
  intro q w h; cases h
  rw [maj39 _ rfl]
  simp [decode39, onlyIf]
theorem lcfg (st : Stall) (a c : Reg) : Statement (.lcfg st a c) := by
  intro q w h; cases h
  rw [maj3A _ rfl]
  simp [decode3A, onlyIf, LSrc.ofCode]
theorem lwgt (st : Stall) (a c : Reg) : Statement (.lwgt st a c) := by
  intro q w h; cases h
  rw [maj3A _ rfl]
  simp [decode3A, onlyIf, LSrc.ofCode]
theorem lstep (st : Stall) (src : LSrc) (a c : Reg) : Statement (.lstep st src a c) := by
  intro q w h; cases h
  rw [maj3A _ rfl]
  revert w; cases src <;> simp [decode3A, onlyIf, LSrc.code, LSrc.ofCode, Instr.wf, belayScopeWf]
theorem lread (st : Stall) (a c : Reg) : Statement (.lread st a c) := by
  intro q w h; cases h
  rw [maj3A _ rfl]
  simp [decode3A, onlyIf, LSrc.ofCode]
theorem lrung (st : Stall) (a b c : Reg) : Statement (.lrung st a b c) := by
  intro q w h; cases h
  rw [maj3A _ rfl]
  simp [decode3A, onlyIf, LSrc.ofCode]
theorem lclr (st : Stall) (c : Reg) : Statement (.lclr st c) := by
  intro q w h; cases h
  rw [maj3A _ rfl]
  simp [decode3A, onlyIf, LSrc.ofCode]
theorem copy (st : Stall) (a b c : Reg) : Statement (.copy st a b c) := by
  intro q w h; cases h
  rw [maj3B _ rfl]
  simp [decode3B, onlyIf]
theorem copyApnd (st : Stall) (a b c : Reg) : Statement (.copyApnd st a b c) := by
  intro q w h; cases h
  rw [maj3B _ rfl]
  simp [decode3B, onlyIf]
theorem copyl (st : Stall) (a b c : Reg) : Statement (.copyl st a b c) := by
  intro q w h; cases h
  rw [maj3B _ rfl]
  simp [decode3B, onlyIf]
theorem copyz (st : Stall) (a b c : Reg) : Statement (.copyz st a b c) := by
  intro q w h; cases h
  rw [maj3B _ rfl]
  simp [decode3B, onlyIf]
theorem cbump (st : Stall) (a b c : Reg) : Statement (.cbump st a b c) := by
  intro q w h; cases h
  rw [maj3B _ rfl]
  simp [decode3B, onlyIf]
theorem lroot (st : Stall) (d a : Reg) : Statement (.lroot st d a) := by
  intro q w h; cases h
  rw [maj3C _ rfl]
  simp [decode3C, onlyIf]
theorem fork (st : Stall) (d a b : Reg) : Statement (.fork st d a b) := by
  intro q w h; cases h
  rw [maj3C _ rfl]
  simp [decode3C, onlyIf]
theorem flatten (st : Stall) (d a : Reg) : Statement (.flatten st d a) := by
  intro q w h; cases h
  rw [maj3C _ rfl]
  simp [decode3C, onlyIf]
theorem rebase (st : Stall) (d a b : Reg) : Statement (.rebase st d a b) := by
  intro q w h; cases h
  rw [maj3C _ rfl]
  simp [decode3C, onlyIf]
theorem ldrop (st : Stall) (a : Reg) : Statement (.ldrop st a) := by
  intro q w h; cases h
  rw [maj3C _ rfl]
  simp [decode3C, onlyIf]
theorem linfo (st : Stall) (d a b : Reg) : Statement (.linfo st d a b) := by
  intro q w h; cases h
  rw [maj3C _ rfl]
  simp [decode3C, onlyIf]
theorem ldl (st : Stall) (d a b : Reg) : Statement (.ldl st d a b) := by
  intro q w h; cases h
  rw [maj3C _ rfl]
  simp [decode3C, onlyIf]
theorem vclaim (st : Stall) (a : Reg) : Statement (.vclaim st a) := by
  intro q w h; cases h
  rw [maj3C _ rfl]
  simp [decode3C, onlyIf]
theorem apnd (st : Stall) (d a b : Reg) : Statement (.apnd st d a b) := by
  intro q w h; cases h
  rw [maj3C _ rfl]
  simp [decode3C, onlyIf]
theorem tailset (st : Stall) (a b : Reg) : Statement (.tailset st a b) := by
  intro q w h; cases h
  rw [maj3C _ rfl]
  simp [decode3C, onlyIf]
end Sys2Proof.Laws.Encoding

theorem Sys2Proof.Laws.Encoding.seal (st : Stall) (a : Reg) : Statement (.seal st a) := by
  intro q w h; cases h
  rw [maj3C _ rfl]
  simp [decode3C, onlyIf]

namespace Sys2Proof.Laws.Encoding

theorem vfree (st : Stall) (a : Reg) : Statement (.vfree st a) := by
  intro q w h; cases h
  rw [maj3C _ rfl]
  simp [decode3C, onlyIf]
theorem vtail (st : Stall) (d a : Reg) : Statement (.vtail st d a) := by
  intro q w h; cases h
  rw [maj3C _ rfl]
  simp [decode3C, onlyIf]
theorem fput (st : Stall) (a : Reg) : Statement (.fput st a) := by
  intro q w h; cases h
  rw [maj3D _ rfl]
  simp [decode3D, onlyIf]
theorem fget (st : Stall) (a : Reg) : Statement (.fget st a) := by
  intro q w h; cases h
  rw [maj3D _ rfl]
  simp [decode3D, onlyIf]
theorem fmcast (st : Stall) (a : Reg) : Statement (.fmcast st a) := by
  intro q w h; cases h
  rw [maj3D _ rfl]
  simp [decode3D, onlyIf]
theorem fsync (st : Stall) : Statement (.fsync st) := by
  intro q w h; cases h
  rw [maj3D _ rfl]
  simp [decode3D, onlyIf]
theorem fred (st : Stall) (op : ROp) (a b : Reg) : Statement (.fred st op a b) := by
  intro q w h; cases h
  rw [maj3D _ rfl]
  revert w; cases op <;> simp [decode3D, onlyIf, ROp.code, ROp.ofCode, Instr.wf, belayScopeWf]
theorem crd (st : Stall) (cr : CReg) (d : Reg) : Statement (.crd st cr d) := by
  intro q w h; cases h
  rw [maj3E _ rfl]
  simp only [decode3E, mkS, Parts.xa, Parts.arg, cat_lo, cat_hi, cut6, of_codeCReg]
  simp [onlyIf, of_codeCReg]
theorem cwr (st : Stall) (cr : CReg) (a : Reg) : Statement (.cwr st cr a) := by
  intro q w h; cases h
  rw [maj3E _ rfl]
  simp only [decode3E, mkS, Parts.xa, Parts.arg, cat_lo, cat_hi, cut6, of_codeCReg]
  simp [onlyIf, of_codeCReg]
theorem cset (st : Stall) (cr : CReg) (a : Reg) : Statement (.cset st cr a) := by
  intro q w h; cases h
  rw [maj3E _ rfl]
  simp only [decode3E, mkS, Parts.xa, Parts.arg, cat_lo, cat_hi, cut6, of_codeCReg]
  simp [onlyIf, of_codeCReg]
theorem cclr (st : Stall) (cr : CReg) (a : Reg) : Statement (.cclr st cr a) := by
  intro q w h; cases h
  rw [maj3E _ rfl]
  simp only [decode3E, mkS, Parts.xa, Parts.arg, cat_lo, cat_hi, cut6, of_codeCReg]
  simp [onlyIf, of_codeCReg]
theorem trap (st : Stall) (n : BitVec 6) : Statement (.trap st n) := by
  intro q w h; cases h
  rw [maj3E _ rfl]
  simp only [decode3E, mkS, Parts.xa, Parts.arg, cat_lo, cat_hi, cut6]
  simp [onlyIf]
theorem eret (st : Stall) : Statement (.eret st) := by
  intro q w h; cases h
  rw [maj3E _ rfl]
  simp only [decode3E, mkS, Parts.xa, Parts.arg, cat_lo, cat_hi, cut6]
  simp [onlyIf]
theorem ctxsv (st : Stall) (a : Reg) : Statement (.ctxsv st a) := by
  intro q w h; cases h
  rw [maj3E _ rfl]
  simp only [decode3E, mkS, Parts.xa, Parts.arg, cat_lo, cat_hi, cut6]
  simp [onlyIf]
theorem ctxld (st : Stall) (a : Reg) : Statement (.ctxld st a) := by
  intro q w h; cases h
  rw [maj3E _ rfl]
  simp only [decode3E, mkS, Parts.xa, Parts.arg, cat_lo, cat_hi, cut6]
  simp [onlyIf]
theorem bxch (st : Stall) : Statement (.bxch st) := by
  intro q w h; cases h
  rw [maj3E _ rfl]
  simp only [decode3E, mkS, Parts.xa, Parts.arg, cat_lo, cat_hi, cut6]
  simp [onlyIf]
theorem cresume (st : Stall) : Statement (.cresume st) := by
  intro q w h; cases h
  rw [maj3E _ rfl]
  simp only [decode3E, mkS, Parts.xa, Parts.arg, cat_lo, cat_hi, cut6]
  simp [onlyIf]
theorem hostRegisterWrite (t : HostTarget) (size : Nat) (val : W64) : Statement (.hostRegisterWrite t size val) := fun _ _ h => nomatch h
theorem qtailWrite (q : Nat) (v : W32) : Statement (.qtailWrite q v) := fun _ _ h => nomatch h
theorem queueEnable (q : Nat) (en : Bool) : Statement (.queueEnable q en) := fun _ _ h => nomatch h
theorem queueClear (q : Nat) : Statement (.queueClear q) := fun _ _ h => nomatch h
theorem submitRecord (q : Nat) : Statement (.submitRecord q) := fun _ _ h => nomatch h
theorem cancelRecord (q : Nat) : Statement (.cancelRecord q) := fun _ _ h => nomatch h
theorem markerRecord (q : Nat) : Statement (.markerRecord q) := fun _ _ h => nomatch h
theorem recordSettle (id : Nat) : Statement (.recordSettle id) := fun _ _ h => nomatch h
theorem curatorBind (core slot : Nat) (start delay spill : W64) : Statement (.curatorBind core slot start delay spill) := fun _ _ h => nomatch h
theorem dispatchBind (core slot : Nat) : Statement (.dispatchBind core slot) := fun _ _ h => nomatch h
theorem dispatchStart (core slot : Nat) : Statement (.dispatchStart core slot) := fun _ _ h => nomatch h
theorem dispatchSelect (core : Nat) : Statement (.dispatchSelect core) := fun _ _ h => nomatch h
theorem preemptTake (core : Nat) : Statement (.preemptTake core) := fun _ _ h => nomatch h
theorem handlerEntry (core ctx : Nat) (ent : BitVec 3) : Statement (.handlerEntry core ctx ent) := fun _ _ h => nomatch h
theorem taskFailure (core : Nat) : Statement (.taskFailure core) := fun _ _ h => nomatch h
theorem impreciseFaultTaken (core ctx : Nat) : Statement (.impreciseFaultTaken core ctx) := fun _ _ h => nomatch h
theorem ageInterval : Statement (.ageInterval) := fun _ _ h => nomatch h
theorem tick : Statement (.tick) := fun _ _ h => nomatch h
theorem watchdogExpiry (core slot : Nat) : Statement (.watchdogExpiry core slot) := fun _ _ h => nomatch h
theorem granuleCheckerVisit (core g : Nat) : Statement (.granuleCheckerVisit core g) := fun _ _ h => nomatch h
theorem cacheLineSweep (core : Nat) (asid : Asid) (line : Nat) : Statement (.cacheLineSweep core asid line) := fun _ _ h => nomatch h
theorem cacheLineExpire (core : Nat) (asid : Asid) (line : Nat) : Statement (.cacheLineExpire core asid line) := fun _ _ h => nomatch h
theorem fifoEntrySpill (core bank : Nat) : Statement (.fifoEntrySpill core bank) := fun _ _ h => nomatch h
theorem leaseGrant (rope : Nat) : Statement (.leaseGrant rope) := fun _ _ h => nomatch h
theorem leaseRunEnd (rope granted : Nat) : Statement (.leaseRunEnd rope granted) := fun _ _ h => nomatch h
theorem engineCommandStart (core id : Nat) : Statement (.engineCommandStart core id) := fun _ _ h => nomatch h
theorem retryResume (core ctx : Nat) : Statement (.retryResume core ctx) := fun _ _ h => nomatch h
theorem engineCommandComplete (core id : Nat) : Statement (.engineCommandComplete core id) := fun _ _ h => nomatch h
theorem copyComplete (core id : Nat) : Statement (.copyComplete core id) := fun _ _ h => nomatch h
theorem boundedWaitExpiry (core ctx token : Nat) : Statement (.boundedWaitExpiry core ctx token) := fun _ _ h => nomatch h
theorem wfeTimeout (core ctx token : Nat) : Statement (.wfeTimeout core ctx token) := fun _ _ h => nomatch h
theorem loadAnswered (id : Nat) : Statement (.loadAnswered id) := fun _ _ h => nomatch h
theorem storePerformed (id : Nat) : Statement (.storePerformed id) := fun _ _ h => nomatch h
theorem atomicPerformed (id : Nat) : Statement (.atomicPerformed id) := fun _ _ h => nomatch h
theorem predsDecrement (asid : Asid) (tcb : VA) (pa : Nat) : Statement (.predsDecrement asid tcb pa) := fun _ _ h => nomatch h
theorem pageReclassify (asid : Asid) (va : VA) : Statement (.pageReclassify asid va) := fun _ _ h => nomatch h
theorem pageFaultAnswer (who : FaultWho) (pte : Nat) (w0 w8 : W64) : Statement (.pageFaultAnswer who pte w0 w8) := fun _ _ h => nomatch h
theorem pageFaultDenial (who : FaultWho) : Statement (.pageFaultDenial who) := fun _ _ h => nomatch h
theorem xlatInvalidatePage (func : Option (BitVec 6)) : Statement (.xlatInvalidatePage func) := fun _ _ h => nomatch h
theorem xlatInvalidateAll (func : Option (BitVec 6)) : Statement (.xlatInvalidateAll func) := fun _ _ h => nomatch h
theorem xlatInvalidateComplete : Statement (.xlatInvalidateComplete) := fun _ _ h => nomatch h
theorem migrationRequest : Statement (.migrationRequest) := fun _ _ h => nomatch h
theorem heatHalve : Statement (.heatHalve) := fun _ _ h => nomatch h
theorem heatArrayWrite (die : Nat) : Statement (.heatArrayWrite die) := fun _ _ h => nomatch h
theorem rlctlGo : Statement (.rlctlGo) := fun _ _ h => nomatch h
theorem retirementListLoad : Statement (.retirementListLoad) := fun _ _ h => nomatch h
theorem memoryEccError (pa : Nat) (uncorrectable : Bool) : Statement (.memoryEccError pa uncorrectable) := fun _ _ h => nomatch h
theorem uncorrectableError (site : EccSite) : Statement (.uncorrectableError site) := fun _ _ h => nomatch h
theorem vitrineDataWritten (asid : Asid) (page claim : Nat) : Statement (.vitrineDataWritten asid page claim) := fun _ _ h => nomatch h
theorem recallAck (asid : Asid) (page holder : Nat) : Statement (.recallAck asid page holder) := fun _ _ h => nomatch h
theorem ropeNetStoreArrival (core : Nat) (ends : NetEnds) (bytes : List WByte) : Statement (.ropeNetStoreArrival core ends bytes) := fun _ _ h => nomatch h
theorem seqsetTagWrite (core task slot : Nat) (tag : BitVec 16) : Statement (.seqsetTagWrite core task slot tag) := fun _ _ h => nomatch h
theorem queueEntryArrival (core task q : Nat) (val : W64) : Statement (.queueEntryArrival core task q val) := fun _ _ h => nomatch h
theorem messageDelivery (core : Nat) (taskid : W32) (asid : Asid) (val : W64) (fromCore fromCtx token : Nat) : Statement (.messageDelivery core taskid asid val fromCore fromCtx token) := fun _ _ h => nomatch h
theorem eventSignalArrival (core : Nat) (asid : Asid) : Statement (.eventSignalArrival core asid) := fun _ _ h => nomatch h
theorem belayArrival (node : BKey) (expect child : Nat) (word : W64) : Statement (.belayArrival node expect child word) := fun _ _ h => nomatch h
theorem belayRelease (node : BKey) : Statement (.belayRelease node) := fun _ _ h => nomatch h
theorem fabricLanding (head : FlitHead) (off : Nat) (data : List Byte) : Statement (.fabricLanding head off data) := fun _ _ h => nomatch h
theorem fabricTransferComplete (id : Nat) : Statement (.fabricTransferComplete id) := fun _ _ h => nomatch h
theorem reductionPartialArrival (key : RedKey) (seq : W32) (port : Nat) (op : ROp) (elems : Nat) (vals : List W32) (bad : Bool) : Statement (.reductionPartialArrival key seq port op elems vals bad) := fun _ _ h => nomatch h
theorem reductionOutcomeArrival (key : RedKey) (seq : W32) (bad : Bool) (res : Option (List W32)) : Statement (.reductionOutcomeArrival key seq bad res) := fun _ _ h => nomatch h
theorem remoteAccessTimeout (id : Nat) : Statement (.remoteAccessTimeout id) := fun _ _ h => nomatch h
theorem fabricLinkChange (port : Nat) (up : Bool) (pkg : BitVec 10) : Statement (.fabricLinkChange port up pkg) := fun _ _ h => nomatch h
theorem reclamationEntryWrite (asid : Asid) (kind : BitVec 2) (handle : BitVec 24) (range : DRange) (since : Nat) : Statement (.reclamationEntryWrite asid kind handle range since) := fun _ _ h => nomatch h
theorem crtailWrite (v : W32) : Statement (.crtailWrite v) := fun _ _ h => nomatch h
theorem thermalLevelStep (temp : Nat) : Statement (.thermalLevelStep temp) := fun _ _ h => nomatch h
theorem coreOvertempHalt (core : Nat) : Statement (.coreOvertempHalt core) := fun _ _ h => nomatch h
theorem telemUpdate (watts : BitVec 12) (temp : BitVec 8) : Statement (.telemUpdate watts temp) := fun _ _ h => nomatch h
theorem fwGo : Statement (.fwGo) := fun _ _ h => nomatch h
theorem fwVerifyComplete (edOk mlOk : Bool) : Statement (.fwVerifyComplete edOk mlOk) := fun _ _ h => nomatch h
theorem attestGo : Statement (.attestGo) := fun _ _ h => nomatch h
theorem attestReportComplete : Statement (.attestReportComplete) := fun _ _ h => nomatch h
theorem hostLinkTraining (cxl : Bool) : Statement (.hostLinkTraining cxl) := fun _ _ h => nomatch h
theorem packageReset : Statement (.packageReset) := fun _ _ h => nomatch h
theorem functionLevelReset (f : BitVec 6) : Statement (.functionLevelReset f) := fun _ _ h => nomatch h
theorem flrComplete (f : BitVec 6) : Statement (.flrComplete f) := fun _ _ h => nomatch h
theorem bivouacSpill (core : Nat) : Statement (.bivouacSpill core) := fun _ _ h => nomatch h
theorem spillLoadBack (core slot : Nat) : Statement (.spillLoadBack core slot) := fun _ _ h => nomatch h
theorem haltedFaultRecovery (core : Nat) : Statement (.haltedFaultRecovery core) := fun _ _ h => nomatch h
theorem icinvComplete (core ctx : Nat) : Statement (.icinvComplete core ctx) := fun _ _ h => nomatch h
theorem flushWalkComplete (core ctx : Nat) : Statement (.flushWalkComplete core ctx) := fun _ _ h => nomatch h
theorem illegalInstruction (word : W32) : Statement (.illegalInstruction word) := fun _ _ h => nomatch h
theorem instructionFetch (core ctx : Nat) : Statement (.instructionFetch core ctx) := fun _ _ h => nomatch h
theorem curatorCancel (asid : Asid) (tcb : VA) : Statement (.curatorCancel asid tcb) := fun _ _ h => nomatch h

end Sys2Proof.Laws.Encoding
end

