-- ==== Sys2Proof/Laws/Place.lean ====
section
/-! SUPPORT. Where an access goes does not depend on the contexts: the place of an access at the start of a word. -/
namespace Sys2Proof.Machine

set_option Elab.async false
theorem State.begin_tick (s : State) : s.begin.tick = s.tick := rfl
theorem State.begin_core_other (s : State) {n : Nat} (h : n ≠ s.act.1) : s.begin.core n = s.core n := by
  simp [State.begin, State.onMyCore, State.onCore, h]
theorem State.begin_core (s : State) (n : Nat) : s.begin.core n = { s.core n with
    ctxs := (s.begin.core n).ctxs, last := (s.begin.core n).last, slotAt := (s.begin.core n).slotAt } := by
  by_cases h : n = s.act.1
  · subst h; simp [State.begin, State.onMyCore, State.onCore, Core.setCtx]
  · rw [s.begin_core_other h]
theorem State.begin_banks (s : State) (n : Nat) : (s.begin.core n).banks = (s.core n).banks := by rw [s.begin_core]
theorem State.begin_task (s : State) (n : Nat) : (s.begin.core n).task = (s.core n).task := by rw [s.begin_core]; rfl
theorem State.begin_coreAsid (s : State) (n : Nat) : (s.begin.core n).asid = (s.core n).asid := by rw [s.begin_core]; rfl
theorem State.begin_on (s : State) (n : Nat) : (s.begin.core n).on = (s.core n).on := by rw [s.begin_core]
theorem State.begin_placeLocal (s : State) (n : Nat) (va : VA) (z : Nat) (r : Bool) : s.begin.placeLocal n va z r = s.placeLocal n va z r := by
  simp only [State.placeLocal, s.begin_banks, s.begin_tick]
theorem State.begin_placeRope (s : State) (n : Nat) (a) (va : VA) (z : Nat) : s.begin.placeRope n a va z = s.placeRope n a va z := by
  simp only [State.placeRope, s.begin_banks, s.begin_on, s.begin_coreAsid]
theorem State.begin_eq (s : State) : s.begin = { s with cores := s.begin.cores } := rfl
theorem State.bucketScan_cores (s : State) (C base z va) (n : Nat) :
    State.bucketScan { s with cores := C } base z va n = s.bucketScan base z va n := by
  induction n with
  | zero => rfl
  | succ n ih => rw [State.bucketScan, State.bucketScan, ih]; rfl
theorem State.keyScan_cores (s : State) (C base log z b va) (n : Nat) :
    State.keyScan { s with cores := C } base log z b va n = s.keyScan base log z b va n := by
  induction n with
  | zero => rfl
  | succ n ih => simp only [State.keyScan, ih, s.bucketScan_cores C]
theorem State.walk_cores (s : State) (C a va) : State.walk { s with cores := C } a va = s.walk a va := by
  have h1 : State.ptLog { s with cores := C } a = s.ptLog a := rfl
  have h2 : State.ptBase { s with cores := C } a = s.ptBase a := rfl
  simp only [State.walk, s.keyScan_cores C, h1, h2]
theorem State.cached_cores (s : State) (C a va) : State.cached { s with cores := C } a va = s.cached a va := by
  simp only [State.cached]
theorem State.xlate_cores (s : State) (C) (a va) : State.xlate { s with cores := C } a va = s.xlate a va := by
  simp only [State.xlate, s.walk_cores C, s.cached_cores C]
theorem State.classCheck_cores (s : State) (C k a va z e) : State.classCheck { s with cores := C } k a va z e = s.classCheck k a va z e := by
  cases k <;> cases h : e.cls <;> simp only [State.classCheck, State.vrec, h]
theorem State.refusedAt_cores (s : State) (C k a va e) : State.refusedAt { s with cores := C } k a va e = s.refusedAt k a va e := rfl
theorem State.poisoned_cores (s : State) (C pa) : State.poisoned { s with cores := C } pa = s.poisoned pa := by
  simp only [State.poisoned, State.noRoute]
theorem State.physOk_cores (s : State) (C pa) : State.physOk { s with cores := C } pa = s.physOk pa := by
  simp only [State.physOk]
theorem State.noRoute_cores (s : State) (C pa) : State.noRoute { s with cores := C } pa = s.noRoute pa := rfl
theorem State.check_cores (s : State) (C) (k a va z) : State.check { s with cores := C } k a va z = s.check k a va z := by
  simp only [State.check, s.xlate_cores C, s.classCheck_cores C, s.refusedAt_cores C, s.poisoned_cores C, s.physOk_cores C, s.noRoute_cores C]
theorem State.replicaHit_cores (s : State) (C) (n a va z) : State.replicaHit { s with cores := C } n a va z = s.replicaHit n a va z := by
  simp only [State.replicaHit, State.vrec, State.fresh]
theorem State.begin_xlate (s : State) (a va) : s.begin.xlate a va = s.xlate a va := by rw [s.begin_eq, s.xlate_cores]
theorem State.begin_check (s : State) (k a va z) : s.begin.check k a va z = s.check k a va z := by rw [s.begin_eq, s.check_cores]
theorem State.begin_replicaHit (s : State) (n a va z) : s.begin.replicaHit n a va z = s.replicaHit n a va z := by rw [s.begin_eq, s.replicaHit_cores]
theorem State.begin_poisoned (s : State) (pa) : s.begin.poisoned pa = s.poisoned pa := by rw [s.begin_eq, s.poisoned_cores]
theorem State.begin_place (s : State) (n k va z) : s.begin.place n k va z = s.place n k va z := by
  simp only [State.place, s.begin_coreAsid, s.begin_placeLocal, s.begin_placeRope, s.begin_check, s.begin_xlate, s.begin_replicaHit, s.begin_poisoned]
end Sys2Proof.Machine
end

