-- ==== Sys2Proof/Tests/Base.lean ====
section
/-! SUPPORT. Small states that the tests and the witnesses are about: one core with a task, its registers, a scratch, and a page
table of nine pages of identifier 5. -/

namespace Sys2Proof.Tests

set_option Elab.async false

open Sys2Proof Sys2Proof.Machine

/-- The lead of a task, live at 0x10000. -/
def lead : Ctx := { Ctx.init with live := true, pc := 0x10000 }
/-- A bound task of identifier 5 on its core: TCB at 0x40100, bind 1. -/
def task : Slot := { Slot.init with v := true, bound := true, asid := 5, taskid := 7, tcb := 0x40100, bind := 1 }
/-- Banks with 4 KiB of scratch (one bank) and no FIFO; SPCFG as R92 lays it out. -/
def scratch : Banks := Banks.init.resized 4096 0 0
/-- A core whose slot 0 holds the task, with its lead live. -/
def oneCore : Core := { Core.init with ctxs := [(0, lead)], slots := [(0, task)], on := some 0, banks := scratch }
/-- One core, nothing in memory, no event to come. -/
def base : State := { State.reset with cores := [(0, oneCore)], queue := [] }
/-- A general register, a vector register and a predicate of the acting context set. -/
def g (r : Reg) (x : W64) (s : State) : State := s.onMe fun c => { c with g := c.g.set (regIdx r) x }
def v (r : VReg) (f : Nat → W32) (s : State) : State := s.onMe fun c => { c with v := c.v.set (regIdx r) (Vector.ofFn fun j => f j.val) }
def p (r : PReg) (x : W64) (s : State) : State := s.onMe fun c => { c with p := c.p.set (predIdx r) x }
def gs (xs : List (Reg × W64)) (s : State) : State := xs.foldl (fun s e => g e.1 e.2 s) s
/-- The acting context, core and task changed. -/
def me (f : Ctx → Ctx) (s : State) : State := s.onMe f
def core (f : Core → Core) (s : State) : State := s.onMyCore f
def slot (f : Slot → Slot) (s : State) : State := s.onMyCore fun c => c.onTask f
/-- Scratch bytes of the acting core from offset 0. -/
def scr (bs : List Byte) (s : State) : State :=
  core (fun c => { c with banks := { c.banks with bytes := cellsPut c.banks.bytes 0 bs } }) s
def scrAt (t : State) (o : Nat) : Byte := cellGet (t.core 0).banks.bytes o
/-- The first address of scratch (R95). -/
abbrev S0 : W64 := 0x00FFFFFFFFF01000
/-- Words of memory by rising addresses, as listed bytes. -/
def words (ws : List (Nat × W64)) : List Host.Cell :=
  ws.flatMap fun e => ((List.range 8).map fun i => (e.1 + i, e.2.extractLsb' (8 * i) 8)).filter fun c => c.2 != 0
/-- An entry of the page table of identifier 5 at a bucket. -/
def entry (bucket : Nat) (vpn w8 : W64) : List (Nat × W64) := [(0x20000 + 128 * bucket, 0x8000000000000000 ||| vpn), (0x20008 + 128 * bucket, w8)]
/-- The identifier table at 0x10000, with identifier 5, and its page table at 0x20000 (R69, R213, R214): pages 3 (PRIVATE to core 0),
4 (SHARED), 5 (uncached), 6 and 12 (VITRINE), 7 (FUTURE), 8 (DEVICE), 9 (on package 1), 10 (read-only). -/
def tables : List (Nat × W64) :=
  [(0x100A0, 0x20000), (0x100A8, 0x8000040600000000), (0x100B0, 0x40000)] ++
  entry 5 5 0x2600000000000015 ++ entry 11 10 0x042000000000001A ++ entry 20 7 0x8600000000000017 ++ entry 26 12 0x4600000000000019 ++ entry 30 4 0x0720000000000014 ++
  entry 35 9 0x0620000802000019 ++ entry 45 6 0x4600000000000016 ++ entry 54 3 0x0600000000000013 ++ entry 60 8 0xC600000000800018
/-- The core of `base` over memory that holds the tables and more words above them. -/
def paged (ws : List (Nat × W64)) : State := { base with mem := words (tables ++ ws), regs := { HostRegs.init with idtbase := 0x10000 } }
/-- The translations of those pages. -/
def pte (bucket : Nat) (vpn w8 : W64) : Pte := ⟨0x20000 + 128 * bucket, 0x8000000000000000 ||| vpn, w8⟩
def pPriv : Pte := pte 54 3 0x0600000000000013
def pShared : Pte := pte 30 4 0x0720000000000014
def pUc : Pte := pte 5 5 0x2600000000000015
def pVit : Pte := pte 45 6 0x4600000000000016
def pVit2 : Pte := pte 26 12 0x4600000000000019
def pFut : Pte := pte 20 7 0x8600000000000017
def pDev : Pte := pte 60 8 0xC600000000800018
def pRemote : Pte := pte 35 9 0x0620000802000019
def pRo : Pte := pte 11 10 0x042000000000001A
/-- Words as bytes. -/
def leBytes (ws : List W64) : List Byte := ws.flatMap fun w => (List.range 8).map fun i => w.extractLsb' (8 * i) 8
/-- The state after a step that goes on. -/
def next? (o : Host.Outcome State Fault Refusal) : Option State := match o with | .next t => some t | _ => none
/-- A view of the state after an instruction of the acting context. -/
def after {α : Type} (i : Instr) (s : State) (f : State → α) : Option α := (next? (exec i s)).map f
/-- The cause and FADDR that an instruction's trap leaves, with the acting context's PC. -/
def trapOf (i : Instr) (s : State) : Option (W64 × W64 × VA) := after i s fun t => (t.me.cause, t.me.faddr, t.me.pc)

end Sys2Proof.Tests
end

