-- ==== Sys2Proof/Tests/Slice0.lean ====
section
/-! SUPPORT. The tests of this model: ill-formed terms that `Instr.wf` refuses, words of the manual's worked chapters and encoding
tables that decode to their instructions, and single steps on small states. Expected values are worked out from the rules named. -/

namespace Sys2Proof.Tests

-- One thread: each theorem of this file would otherwise take a thread of its own, with its own stack.
set_option Elab.async false

open Sys2Proof Sys2Proof.Machine

/-! ### WellFormed: one ill-formed term for each check -/

theorem test_wf_fcvt_nsat_to_integer : Instr.wf (.fcvt 0 .int8 .f32 .rne true 3 4) = false := by decide
theorem test_wf_fcvt_raw : Instr.wf (.fcvt 0 .raw .f32 .rne false 3 4) = false := by decide
theorem test_wf_vcvt_nsat_to_dp8 : Instr.wf (.vcvt 0 .dp8 .f32 true 3 4 0) = false := by decide
theorem test_wf_icinv_system : Instr.wf (.icinv 0 .system 3 4) = false := by decide
theorem test_wf_atom_min_f32 : Instr.wf (.atom 0 .min .f32 3 4 5) = false := by decide
theorem test_wf_atom_fadd_z32 : Instr.wf (.atom 0 .fadd .z32 3 4 5) = false := by decide
theorem test_wf_atom_add_s32 : Instr.wf (.atom 0 .add .s32 3 4 5) = false := by decide
theorem test_wf_atomnr_swap : Instr.wf (.atomnr 0 .swap .z64 4 5) = false := by decide
theorem test_wf_atomnr_cas : Instr.wf (.atomnr 0 .cas .z64 4 5) = false := by decide
theorem test_wf_belay_core : Instr.wf (.belay 0 .core 3) = false := by decide
theorem test_wf_barr_system : Instr.wf (.barr 0 .system 3 4) = false := by decide
theorem test_wf_bwait_core : Instr.wf (.bwait 0 .core 3 4) = false := by decide
theorem test_wf_vscatter_v31 : Instr.wf (.vscatter 0 31 3 4) = false := by decide
theorem test_wf_lstep_tile_with_operand : Instr.wf (.lstep 0 .t0 4 5) = false := by decide
theorem test_wf_rest : Instr.wf (.add 3 31 31 31) = true ∧ Instr.wf (.fcvt 0 .e4m3 .f32 .rne true 3 4) = true := by decide

/-! ### Decoding: words of spec/17–22 and of the encoding tables -/

theorem test_decode_integer : decode 0x00190A01 = some (.add 0 3 4 5) ∧ decode 0x01A48009 = some (.ctz 0 20 18) ∧
    decode 0x01A2C00A = some (.popc 0 20 11) ∧ decode 0x03280075 = some (.addi 0 5 0 0x75) := by decide +kernel
theorem test_decode_control : decode 0x135CBFFA = some (.bge 0 11 18 0x3FFA) ∧ decode 0x16000002 = some (.nop 0) ∧
    decode 0x16000003 = some (.cairn 0) ∧ decode 0x16058004 = some (.dly 0 22) ∧ decode 0x16000005 = some (.tsync 0) := by decide +kernel
theorem test_decode_tasks : decode 0x17848000 = some (.hstart 0 16 18) ∧ decode 0x17000003 = some (.tdone 0) := by decide +kernel
theorem test_decode_float : decode 0x18190A00 = some (.fadd 0 .f32 .mode 3 4 5) ∧ decode 0x1831D0AA = some (.fma 0 .bf16 .rtz 6 7 8) ∧
    decode 0x19190281 = some (.fcvt 0 .e4m3 .f32 .rne true 3 4) := by decide +kernel
theorem test_decode_memory : decode 0x21BE1800 = some (.ldFresh 0 .z64 23 24 0) ∧ decode 0x22089800 = some (.st 0 .z64 1 2 0) ∧
    decode 0x2229A803 = some (.st 0 .hi4 5 6 3) ∧ decode 0x23EF9800 = some (.ldAcq 0 .device 29 30 0) ∧
    decode 0x25200003 = some (.ldw 0 .z64 4 0 0) ∧ decode 0x2600C000 = some (.spresize 0 3) ∧ decode 0x26052A01 = some (.renew 0 20 21) := by
  decide +kernel
theorem test_decode_sync : decode 0x2828C801 = some (.atom 0 .add .z64 5 3 4) ∧ decode 0x2830CE71 = some (.atom 0 .cas .z64 6 3 7) ∧
    decode 0x2900C894 = some (.atomnr 0 .fmax .f32 3 4) ∧ decode 0x2A000003 = some (.fenceAcq 0 .device) ∧
    decode 0x2A00000B = some (.fenceRel 0 .device) ∧ decode 0x2A000011 = some (.fenceAr 0 .rope) ∧
    decode 0x2B044000 = some (.belay 0 .rope 17) ∧ decode 0x2B9C4005 = some (.barr 0 .die 19 17) ∧
    decode 0x2B046409 = some (.bwait 0 .die 17 18) ∧ decode 0x2C021202 = some (.cwait 0 8 9) := by decide +kernel
theorem test_decode_vector : decode 0x30184440 = some (.vadd 0 3 1 2 1) ∧ decode 0x33314210 = some (.vcvt 0 .e4m3 .f32 true 6 5 0) := by
  decide +kernel
theorem test_decode_engines : decode 0x3A402000 = some (.lcfg 0 8 16) ∧ decode 0x3A982250 = some (.lstep 0 .scr 19 17) ∧
    decode 0x3A702260 = some (.lread 0 14 17) ∧ decode 0x3B73E200 = some (.copy 0 14 15 17) ∧ decode 0x3B634C00 = some (.copy 0 12 13 6) ∧
    decode 0x3BD70C01 = some (.copyApnd 0 26 28 6) := by decide +kernel
theorem test_decode_lineage_fabric : decode 0x3CCEB601 = some (.fork 0 25 26 27) ∧ decode 0x3C298E06 = some (.ldl 0 5 6 7) ∧
    decode 0x3C068010 = some (.vclaim 0 26) ∧ decode 0x3C06B612 = some (.tailset 0 26 27) ∧ decode 0x3C068013 = some (.seal 0 26) ∧
    decode 0x3D014616 = some (.fred 0 .rsc 5 3) := by decide +kernel
theorem test_decode_system : decode 0x3E14C150 = some (.cwr 0 .spkeep 21) ∧ decode 0x7E052C00 = some (.crd 1 .resinfo 22) ∧
    decode 0x3E054A00 = some (.crd 0 .cycle 5) ∧ decode 0x3E31C070 = some (.cclr 0 .rmode 7) ∧ decode 0x3E484000 = some (.trap 0 33) ∧
    decode 0x3E500000 = some (.eret 0) ∧ decode 0x3E600190 = some (.ctxsv 0 25) ∧ decode 0x3E700190 = some (.ctxld 0 25) ∧
    decode 0x3E800000 = some (.bxch 0) ∧ decode 0x3E900000 = some (.cresume 0) := by decide +kernel
/-- R118: word 0 and a reserved field are no instruction. -/
theorem test_decode_refuses : decode 0 = none ∧ decode 0xFFFFFFFF = none ∧ decode 0x16000802 = none := by decide +kernel
/-- R110: an encoder's word, bit by bit: `SUB g1, g2, g3` is major 0x00, d 1, a 2, b 3, fn 0x002. -/
theorem test_encode : encode (.add 2 3 4 5) = some 0x80190A01 := by decide +kernel
/-- R109: the step fetches the word that stands at its PC and runs it. -/
theorem test_step_runs_placed_word : (next? (step (State.reset.withFetchWord 32 0x03280075))).map (fun t => (t.me.gget 5, t.me.pc)) = some (0x75, 0x10004) := by
  decide +kernel

/-! ### Integer words (R143–R148, R157) -/

/-- What register `d` reads `l` cycles after the word. -/
def res (i : Instr) (l : Nat) (d : Reg) (xs : List (Reg × W64)) : Option W64 :=
  after i (gs xs base) fun t => t.me.gAt (t.now + l) d

theorem test_add_wraps : res (.add 0 3 4 5) 1 3 [(4, 0xFFFFFFFFFFFFFFFF), (5, 2)] = some 1 := by decide +kernel
theorem test_add_g0 : res (.add 0 0 4 5) 1 0 [(4, 7), (5, 2)] = some 0 := by decide +kernel
theorem test_sub_borrows : res (.sub 0 3 4 5) 1 3 [(4, 1), (5, 2)] = some 0xFFFFFFFFFFFFFFFF := by decide +kernel
theorem test_mul_low : res (.mul 0 3 4 5) 3 3 [(4, 0xFFFFFFFF), (5, 0xFFFFFFFF)] = some 0xFFFFFFFE00000001 := by decide +kernel
theorem test_mul_not_yet : res (.mul 0 3 4 5) 2 3 [(3, 9), (4, 2), (5, 2)] = some 9 := by decide +kernel
theorem test_mulh_signed : res (.mulh 0 .s64 3 4 5) 4 3 [(4, 0xFFFFFFFFFFFFFFFF), (5, 0xFFFFFFFFFFFFFFFF)] = some 0 := by decide +kernel
theorem test_mulh_unsigned : res (.mulh 0 .z64 3 4 5) 4 3 [(4, 0xFFFFFFFFFFFFFFFF), (5, 0xFFFFFFFFFFFFFFFF)] = some 0xFFFFFFFFFFFFFFFE := by
  decide +kernel
theorem test_div_by_zero : res (.div 0 .s64 3 4 5) 24 3 [(4, 7)] = some 0xFFFFFFFFFFFFFFFF := by decide +kernel
theorem test_div_most_negative : res (.div 0 .s64 3 4 5) 24 3 [(4, 0x8000000000000000), (5, 0xFFFFFFFFFFFFFFFF)] = some 0x8000000000000000 := by
  decide +kernel
theorem test_rem_sign : res (.rem 0 .s64 3 4 5) 24 3 [(4, 0xFFFFFFFFFFFFFFF9), (5, 2)] = some 0xFFFFFFFFFFFFFFFF := by decide +kernel
theorem test_rem_by_zero : res (.rem 0 .z64 3 4 5) 24 3 [(4, 7)] = some 7 := by decide +kernel
theorem test_min_signed : res (.min 0 .s64 3 4 5) 1 3 [(4, 0xFFFFFFFFFFFFFFFF), (5, 2)] = some 0xFFFFFFFFFFFFFFFF := by decide +kernel
theorem test_max_unsigned : res (.max 0 .z64 3 4 5) 1 3 [(4, 0xFFFFFFFFFFFFFFFF), (5, 2)] = some 0xFFFFFFFFFFFFFFFF := by decide +kernel
theorem test_and : res (.and 0 3 4 5) 1 3 [(4, 6), (5, 12)] = some 4 := by decide +kernel
theorem test_or : res (.or 0 3 4 5) 1 3 [(4, 6), (5, 12)] = some 14 := by decide +kernel
theorem test_xor : res (.xor 0 3 4 5) 1 3 [(4, 6), (5, 12)] = some 10 := by decide +kernel
theorem test_andn : res (.andn 0 3 4 5) 1 3 [(4, 6), (5, 12)] = some 2 := by decide +kernel
theorem test_shl_modulo_64 : res (.shl 0 3 4 5) 1 3 [(4, 3), (5, 65)] = some 6 := by decide +kernel
theorem test_shr : res (.shr 0 3 4 5) 1 3 [(4, 0x8000000000000000), (5, 63)] = some 1 := by decide +kernel
theorem test_sra_sign : res (.sra 0 3 4 5) 1 3 [(4, 0x8000000000000000), (5, 63)] = some 0xFFFFFFFFFFFFFFFF := by decide +kernel
theorem test_rotr : res (.rotr 0 3 4 5) 1 3 [(4, 1), (5, 1)] = some 0x8000000000000000 := by decide +kernel
theorem test_clz_zero : res (.clz 0 3 4) 1 3 [] = some 64 := by decide +kernel
theorem test_ctz : res (.ctz 0 3 4) 1 3 [(4, 8)] = some 3 := by decide +kernel
theorem test_popc : res (.popc 0 3 4) 1 3 [(4, 0xF0F0)] = some 8 := by decide +kernel
theorem test_slt_signed : res (.slt 0 .s64 3 4 5) 1 3 [(4, 0xFFFFFFFFFFFFFFFF), (5, 0)] = some 1 := by decide +kernel
theorem test_slt_unsigned : res (.slt 0 .z64 3 4 5) 1 3 [(4, 0xFFFFFFFFFFFFFFFF), (5, 0)] = some 0 := by decide +kernel
theorem test_seq : res (.seq 0 3 4 5) 1 3 [(4, 5), (5, 5)] = some 1 := by decide +kernel
theorem test_sne : res (.sne 0 3 4 5) 1 3 [(4, 5), (5, 5)] = some 0 := by decide +kernel
theorem test_sext : res (.sext 0 .w8 3 4) 1 3 [(4, 0x180)] = some 0xFFFFFFFFFFFFFF80 := by decide +kernel
theorem test_zext : res (.zext 0 .w16 3 4) 1 3 [(4, 0x18001)] = some 0x8001 := by decide +kernel
theorem test_addi_negative : res (.addi 0 3 4 0x3FFF) 1 3 [(4, 5)] = some 4 := by decide +kernel
theorem test_andi_sign : res (.andi 0 3 4 0x2000) 1 3 [(4, 0xFFFFFFFFFFFFFFFF)] = some 0xFFFFFFFFFFFFE000 := by decide +kernel
theorem test_ori : res (.ori 0 3 4 1) 1 3 [(4, 6)] = some 7 := by decide +kernel
theorem test_xori : res (.xori 0 3 4 7) 1 3 [(4, 6)] = some 1 := by decide +kernel
theorem test_slti : res (.slti 0 3 4 0x3FFF) 1 3 [(4, 0xFFFFFFFFFFFFFFFE)] = some 1 := by decide +kernel
theorem test_shli : res (.shli 0 3 4 63) 1 3 [(4, 3)] = some 0x8000000000000000 := by decide +kernel
theorem test_shri : res (.shri 0 3 4 4) 1 3 [(4, 0x80)] = some 8 := by decide +kernel
theorem test_srai : res (.srai 0 3 4 4) 1 3 [(4, 0xFFFFFFFFFFFFFF80)] = some 0xFFFFFFFFFFFFFFF8 := by decide +kernel
theorem test_lui : res (.lui 0 3 1) 1 3 [] = some 0x2000 := by decide +kernel
theorem test_lcat : res (.lcat 0 3 5) 1 3 [(3, 1)] = some 0x80005 := by decide +kernel
theorem test_lpc : res (.lpc 0 3 2) 1 3 [] = some 0x10008 := by decide +kernel
theorem test_adda_keeps_tag : res (.adda 0 3 4 5) 1 3 [(4, 0x1200000000000010), (5, 0xFFFFFFFFFFFFFFF0)] = some 0x1200000000000000 := by
  decide +kernel
theorem test_suba_below_zero : trapOf (.suba 0 3 4 5) (gs [(4, 0x1200000000000010), (5, 0x11)] base) =
    some (0x07, 0x1200000000000010, 0xFFFFFFFFFF0000) := by decide +kernel
theorem test_addai : res (.addai 0 3 4 8) 1 3 [(4, 0xFF00000000000000)] = some 0xFF00000000000008 := by decide +kernel
theorem test_tagset : res (.tagset 0 3 4 5) 1 3 [(4, 0x1200000000000034), (5, 0x1FE)] = some 0xFE00000000000034 := by decide +kernel
theorem test_tagget : res (.tagget 0 3 4) 1 3 [(4, 0x1200000000000034)] = some 0x12 := by decide +kernel
theorem test_tid : res (.tid 0 3) 1 3 [] = some 7 := by decide +kernel

/-! ### Control transfer, timing, helpers (R149–R154) -/

def goes (i : Instr) (xs : List (Reg × W64)) : Option (VA × Nat) := after i (gs xs base) fun t => (t.me.pc, t.me.readyAt)
theorem test_beq_taken : goes (.beq 0 4 5 0x3FFF) [] = some (0xFFFC, 3) := by decide +kernel
theorem test_bne_falls_through : goes (.bne 0 4 5 9) [] = some (0x10004, 1) := by decide +kernel
theorem test_blt_signed : goes (.blt 0 4 5 2) [(4, 0xFFFFFFFFFFFFFFFF)] = some (0x10008, 3) := by decide +kernel
theorem test_bge_equal : goes (.bge 2 4 5 2) [] = some (0x10008, 5) := by decide +kernel
theorem test_jmp_back : goes (.jmp 0 0xFFFFFF) [] = some (0xFFFC, 3) := by decide +kernel
theorem test_call_links : after (.call 0 2) base (fun t => (t.me.pc, t.me.gget 31)) = some (0x10008, 0x10004) := by decide +kernel
theorem test_jr : goes (.jr 0 4) [(4, 0x30000)] = some (0x30000, 3) := by decide +kernel
theorem test_jr_misaligned : trapOf (.jr 0 4) (g 4 0x30002 base) = some (0x03, 0x30002, 0xFFFFFFFFFF0000) := by decide +kernel
theorem test_callr_same_register : after (.callr 0 4 4) (g 4 0x30000 base) (fun t => (t.me.pc, t.me.gget 4)) = some (0x30000, 0x10004) := by
  decide +kernel
theorem test_nop_stall : goes (.nop 3) [] = some (0x10004, 4) := by decide +kernel
theorem test_dly : goes (.dly 0 4) [(4, 0x100000007)] = some (0x10004, 8) := by decide +kernel
theorem test_tsync : after (.tsync 0) base (fun t => t.me.tbase) = some 1 := by decide +kernel
theorem test_cairn : after (.cairn 0) base (fun t => (t.me.cairnpc, t.me.issued)) = some (0x8000000000010004, 0) := by decide +kernel
theorem test_hstart : after (.hstart 0 3 4) (g 4 0x30000 base) (fun t => (t.me.gAt 4 3, (t.ctx 0 1).pc, (t.ctx 0 1).readyAt)) = some (1, 0x30000, 4) := by
  decide +kernel
theorem test_hexit_by_lead : trapOf (.hexit 0) base = some (0x02, 0, 0xFFFFFFFFFF0000) := by decide +kernel
theorem test_hwait_no_helper : goes (.hwait 0 4) [(4, 3)] = some (0x10004, 1) := by decide +kernel
theorem test_tdone_frees : after (.tdone 0) base (fun t => ((t.core 0).on, (t.core 0).live)) = some (none, []) := by decide +kernel

/-! ### Scalar floating point (R158–R161) -/

theorem test_fadd : res (.fadd 0 .f32 .rne 3 4 5) 4 3 [(4, 0x3F800000), (5, 0x40000000)] = some 0x40400000 := by decide +kernel
theorem test_fadd_inexact : after (.fadd 0 .f32 .rne 3 4 5) (gs [(4, 0x3F800000), (5, 0x2F800000)] base) (fun t => (t.me.gAt 4 3, t.me.rmode)) =
    some (0x3F800000, 0x100) := by decide +kernel
theorem test_fsub_zero_sign : res (.fsub 0 .f32 .rdn 3 4 5) 4 3 [(4, 0x3F800000), (5, 0x3F800000)] = some 0x80000000 := by decide +kernel
theorem test_fmul : res (.fmul 0 .f32 .rne 3 4 5) 4 3 [(4, 0x40400000), (5, 0x40000000)] = some 0x40C00000 := by decide +kernel
theorem test_fdiv_by_zero : res (.fdiv 0 .f32 .rne 3 4 5) 16 3 [(4, 0x3F800000)] = some 0x7F800000 := by decide +kernel
theorem test_fsqrt : res (.fsqrt 0 .f32 .rne 3 4) 16 3 [(4, 0x40800000)] = some 0x40000000 := by decide +kernel
theorem test_fma : res (.fma 0 .f32 .rne 3 4 5) 4 3 [(3, 0x3F800000), (4, 0x40000000), (5, 0x40400000)] = some 0x40E00000 := by decide +kernel
theorem test_fmin_number : res (.fmin 0 .f32 3 4 5) 4 3 [(4, 0x7FC00000), (5, 0x40000000)] = some 0x40000000 := by decide +kernel
theorem test_fmax_zeros : res (.fmax 0 .f32 3 4 5) 4 3 [(4, 0x80000000), (5, 0)] = some 0 := by decide +kernel
theorem test_feq_zeros : res (.feq 0 .f32 3 4 5) 2 3 [(4, 0x80000000), (5, 0)] = some 1 := by decide +kernel
theorem test_flt : res (.flt 0 .f32 3 4 5) 2 3 [(4, 0xBF800000), (5, 0)] = some 1 := by decide +kernel
theorem test_fle_nan : res (.fle 0 .f32 3 4 5) 2 3 [(4, 0x7FC00000), (5, 0)] = some 0 := by decide +kernel
theorem test_fclass_negative_zero : res (.fclass 0 .f32 3 4) 2 3 [(4, 0x80000000)] = some 8 := by decide +kernel
theorem test_fneg_bf16 : res (.fneg 0 .bf16 3 4) 1 3 [(4, 0x3F80)] = some 0xBF80 := by decide +kernel
theorem test_fabs : res (.fabs 0 .f32 3 4) 1 3 [(4, 0xBF800000)] = some 0x3F800000 := by decide +kernel
theorem test_fexp2 : res (.fexp2 0 .f32 3 4) 8 3 [(4, 0x40000000)] = some 0x40800000 := by decide +kernel
theorem test_fcvt_to_integer : res (.fcvt 0 .int8 .f32 .rtz false 3 4) 3 3 [(4, 0xC0200000)] = some 0xFFFFFFFFFFFFFFFE := by decide +kernel
theorem test_fcvt_saturates : res (.fcvt 0 .e4m3 .f32 .rne false 3 4) 3 3 [(4, 0x44000000)] = some 0x7E := by decide +kernel

/-! ### Scalar memory (R233–R246) -/

theorem test_ld_little_endian : after (.ld 0 .z16 3 4 1) (scr [1, 2, 3, 4] (g 4 S0 base)) (fun t => t.me.gget 3) = some 0x0403 := by decide +kernel
theorem test_ld_sign : after (.ld 0 .s8 3 4 0) (scr [0x80] (g 4 S0 base)) (fun t => t.me.gget 3) = some 0xFFFFFFFFFFFFFF80 := by decide +kernel
theorem test_ld_misaligned : trapOf (.ld 0 .z32 3 4 0) (g 4 (S0 + 2) base) = some (0x03, S0 + 2, 0xFFFFFFFFFF0000) := by decide +kernel
theorem test_ld_guard_reads_zero : after (.ld 0 .z64 3 4 0) (gs [(3, 9), (4, S0 + 0x1000)] base) (fun t => (t.me.gget 3, t.myCore.guardrec.getLsbD 63)) =
    some (0, true) := by decide +kernel
theorem test_ld_page_flies : after (.ld 0 .z64 3 4 0) (g 4 0x40000 (paged [])) (fun t => (t.flights.length, t.me.pc)) = some (1, 0x10004) := by decide +kernel
theorem test_ld_unmapped_parks : after (.ld 0 .z64 3 4 0) (g 4 0xB0000 base) (fun t => t.me.park) = some (.pageFault 5 0xB0000 false) := by
  decide +kernel
theorem test_st_hi4 : after (.st 0 .hi4 3 4 0) (scr [0x12] (gs [(3, 0xF5), (4, S0)] base)) (fun t => scrAt t 0) = some 0x52 := by decide +kernel
theorem test_st_z32 : after (.st 0 .z32 3 4 1) (gs [(3, 0x1122334455667788), (4, S0)] base) (fun t => (scrAt t 4, scrAt t 7, scrAt t 8)) =
    some (0x88, 0x55, 0) := by decide +kernel
theorem test_st_read_only : trapOf (.st 0 .z64 3 4 0) (g 4 0xA0000 (paged [])) = some (0x06, 0xA0000, 0xFFFFFFFFFF0000) := by decide +kernel
theorem test_st_vitrine : trapOf (.st 0 .z64 3 4 0) (g 4 0x60000 (paged [])) = some (0x10, 0x60000, 0xFFFFFFFFFF0000) := by decide +kernel
theorem test_ldw_empty_window : (trapOf (.ldw 0 .z64 3 0 0) base).map (·.1) = some 0x14 := by decide +kernel
theorem test_ldw_beyond : after (.ldw 0 .z64 3 1 4) (g 4 1 (core (fun c => { c with wins := c.wins.set 1 (S0, 8) }) base)) (fun t => (t.me.gget 3, t.myCore.wstat)) =
    some (0, 0x201) := by decide +kernel
theorem test_ldx_bad_tag : (trapOf (.ldxF32 0 3 4 5) (g 4 0xFF00000000000000 base)).map (·.1) = some 0x07 := by decide +kernel
theorem test_pref_goes_on : goes (.pref 0 4 5) [(4, 0xB0000)] = some (0x10004, 1) := by decide +kernel
theorem test_spresize_too_large : (trapOf (.spresize 0 4) (g 4 294913 base)).map (·.1) = some 0x01 := by decide +kernel
theorem test_renew_outside : trapOf (.renew 0 4 5) (gs [(4, S0 + 0xFF8), (5, 16)] base) = some (0x06, S0 + 0x1000, 0xFFFFFFFFFF0000) := by decide +kernel
theorem test_seqset_sends : after (.seqset 0 4 5) (gs [(4, S0 + 2048), (5, 9)] base) (fun t => t.queue) = some [(12, .seqsetTagWrite 0 1 1 9)] := by
  decide +kernel
theorem test_seqget_rope_hole : (trapOf (.seqget 0 3 4) (g 4 0xFFFFFFFF800000 base)).isSome = true := by decide +kernel
theorem test_ldacq_waits : after (.ldAcq 0 .device 3 4 0) (g 4 0x40000 (paged [(0x140000, 0x55)])) (fun t => (t.me.gget 3, t.me.park)) =
    some (0x55, .home 60) := by decide +kernel
theorem test_strel_writes : after (.stRel 0 .device 3 4 0) (gs [(3, 0x77), (4, 0x50000)] (paged [])) (fun t => t.phys64 0x150000) = some 0x77 := by
  decide +kernel

/-! ### Synchronisation (R283–R300) -/

theorem test_atom_add_wraps : after (.atom 0 .add .z32 3 4 5) (scr [0xFF, 0xFF, 0xFF, 0xFF, 9] (gs [(4, S0), (5, 2)] base))
    (fun t => (t.me.gget 3, scrAt t 0, scrAt t 3, scrAt t 4)) = some (0xFFFFFFFF, 1, 0, 9) := by decide +kernel
theorem test_atom_cas_fails : after (.atom 0 .cas .z64 3 4 5) (scr [7] (gs [(3, 8), (4, S0), (5, 2)] base)) (fun t => (t.me.gget 3, scrAt t 0)) =
    some (7, 7) := by decide +kernel
theorem test_atomnr_fmax : after (.atomnr 0 .fmax .f32 4 5) (scr [0, 0, 0x80, 0x3F] (gs [(4, S0), (5, 0x40000000)] base)) (fun t => scrAt t 3) =
    some 0x40 := by decide +kernel
theorem test_fence_goes_on : goes (.fenceAr 0 .system) [] = some (0x10004, 1) := by decide +kernel
theorem test_belay_bad_count : (trapOf (.belay 0 .rope 4) base).map (·.1) = some 0x01 := by decide +kernel
theorem test_belay_parks : after (.belay 0 .rope 4) (g 4 2 base) (fun t => t.me.park) = some (.belay .rope 0 0) := by decide +kernel
theorem test_barr_alone_releases : after (.barr 0 .rope 3 4) (g 4 1 base) (fun t => (t.me.gget 3, (t.belayAt ⟨0, 0, .rope, 0⟩).gen)) = some (0, 1) := by
  decide +kernel
theorem test_bwait_parks : after (.bwait 0 .rope 4 5) base (fun t => t.me.park) = some (.cond ⟨0, none, 0, .bwait 0 .rope 4 5, 0⟩) := by decide +kernel
theorem test_wfe_takes_latch : after (.wfe 0 3 4) (slot (fun t => { t with event := true }) base) (fun t => (t.me.gget 3, t.myCore.task.event)) =
    some (1, false) := by decide +kernel
theorem test_evsig_reserved : (trapOf (.evsig 0 4) (g 4 0x800 base)).map (·.1) = some 0x01 := by decide +kernel
theorem test_cwait_reached : after (.cwait 0 4 5) (scr [5] (gs [(4, S0), (5, 5)] base)) (fun t => t.me.pc) = some 0x10004 := by decide +kernel
theorem test_cwaitb_value : after (.cwaitb 0 3 4 5) (scr [6] (gs [(3, 9), (4, S0), (5, 5)] base)) (fun t => t.me.gget 3) = some 6 := by decide +kernel
theorem test_qpush_no_queue : (trapOf (.qpush 0 4 5) base).map (·.1) = some 0x06 := by decide +kernel
theorem test_qpop_reserved : (trapOf (.qpop 0 3 4) (g 4 1 base)).map (·.1) = some 0x01 := by decide +kernel
theorem test_futset_counts : after (.futset 0 3 4 5) (gs [(4, 0x70000), (5, 0x99)] (paged [(0x170008, 6)])) (fun t => (t.me.gget 3, t.phys64 0x170000, t.phys64 0x170008)) =
    some (7, 0x99, 7) := by decide +kernel
theorem test_futwait_value : after (.futwait 0 3 4) (gs [(3, 6), (4, 0x70000)] (paged [(0x170000, 0x99), (0x170008, 6)])) (fun t => t.me.gget 3) = some 0x99 := by
  decide +kernel
theorem test_send_reserved : (trapOf (.send 0 3 4 5) (g 4 0x800 base)).map (·.1) = some 0x01 := by decide +kernel
theorem test_recv_takes_oldest : after (.recv 0 3) (slot (fun t => { t with msgs := [⟨1, 0x42, 0, false⟩, ⟨2, 0x43, 0, false⟩] }) base)
    (fun t => (t.me.gget 3, t.myCore.task.msgs.length)) = some (0x42, 1) := by decide +kernel

/-! ### Vector words (R163–R178) -/

theorem test_viadd_masked : after (.viadd 0 3 1 2 1) (p 1 2 (v 3 (fun _ => 9) (v 1 (fun _ => 0xFFFFFFFF) (v 2 (fun _ => 3) base))))
    (fun t => ((t.me.vAt 1 3).get 0, (t.me.vAt 1 3).get 1)) = some (9, 2) := by decide +kernel
theorem test_vadd : after (.vadd 0 3 1 2 0) (v 1 (fun _ => 0x3F800000) (v 2 (fun _ => 0x40000000) base)) (fun t => (t.me.vAt 4 3).get 15) =
    some 0x40400000 := by decide +kernel
theorem test_vriadd : after (.vriadd 0 3 1 1) (p 1 7 (v 1 (fun j => BitVec.ofNat 32 (j + 1)) base)) (fun t => (t.me.vAt 6 3).get 9) = some 6 := by
  decide +kernel
theorem test_vicmp : after (.vicmpLtS32 0 2 1 3 1) (p 1 3 (v 1 (fun _ => 0xFFFFFFFF) base)) (fun t => t.me.pAt 2 2) = some 3 := by decide +kernel
theorem test_vsel : after (.vsel 0 3 1 2 1) (p 1 1 (v 1 (fun _ => 4) (v 2 (fun _ => 5) base))) (fun t => ((t.me.vAt 2 3).get 0, (t.me.vAt 2 3).get 1)) =
    some (4, 5) := by decide +kernel
theorem test_vperm : after (.vperm 0 3 1 2 0) (v 1 (fun j => BitVec.ofNat 32 j) (v 2 (fun _ => 0x15) base)) (fun t => (t.me.vAt 2 3).get 7) = some 5 := by
  decide +kernel
theorem test_vbcast : after (.vbcast 0 3 4) (g 4 0x1FFFFFFFF base) (fun t => (t.me.vAt 1 3).get 15) = some 0xFFFFFFFF := by decide +kernel
theorem test_vins_lane : after (.vins 0 3 4 5) (gs [(4, 17), (5, 8)] base) (fun t => ((t.me.vAt 1 3).get 0, (t.me.vAt 1 3).get 1)) = some (0, 8) := by
  decide +kernel
theorem test_vext : after (.vext 0 1 3 4) (g 4 2 (v 1 (fun j => BitVec.ofNat 32 (j + 0x80000000)) base)) (fun t => t.me.gAt 2 3) = some 0x80000002 := by
  decide +kernel
theorem test_vld_scratch : after (.vld 0 3 4 5) (scr [1, 0, 0, 0, 2] (g 4 S0 base)) (fun t => ((t.me.vget 3).get 0, (t.me.vget 3).get 1)) = some (1, 2) := by
  decide +kernel
theorem test_vst_scratch : after (.vst 0 1 4 5) (g 4 S0 (v 1 (fun j => BitVec.ofNat 32 (j + 1)) base)) (fun t => (scrAt t 0, scrAt t 60)) = some (1, 16) := by
  decide +kernel
theorem test_vld_misaligned : (trapOf (.vld 0 3 4 5) (g 4 (S0 + 2) base)).map (·.1) = some 0x03 := by decide +kernel

/-! ### Engines, pages, lineage, fabric (R138, R189–R208, R248–R262, R302–R303) -/

theorem test_mzero_issues : after (.mzero 0 .t0 4) (g 4 100 base) (fun t => t.queue) = some [(100, .engineCommandStart 0 0)] := by decide +kernel
theorem test_copy_no_earlier_than_8 : after (.copy 0 3 4 5) base (fun t => t.queue) = some [(8, .engineCommandStart 0 0)] := by decide +kernel
theorem test_mdim_reserved : (trapOf (.mdim 0 4) (g 4 0x80 base)).map (·.1) = some 0x01 := by decide +kernel
theorem test_leaseq_free : after (.leaseq 0 3) base (fun t => t.me.gget 3) = some 0x8000000 := by decide +kernel
theorem test_vclaim_makes_record : after (.vclaim 0 4) (g 4 0x60000 (paged [])) (fun t => (t.vrec 5 0x60000).map (·.holder)) = some (some (some ⟨0, 0, 1⟩)) := by
  decide +kernel
theorem test_apnd_without_record : (trapOf (.apnd 0 3 4 5) (g 4 0x60000 (paged []))).map (·.1) = some 0x10 := by decide +kernel
theorem test_ldrop_handle_zero : (after (.ldrop 0 4) (paged []) fun t => (t.me.cause, t.me.finfo)) = some (0x0F, 1) := by decide +kernel
theorem test_fsync_idle : goes (.fsync 0) [] = some (0x10004, 1) := by decide +kernel
theorem test_fput_misaligned : (trapOf (.fput 0 4) (g 4 (S0 + 4) base)).map (·.1) = some 0x03 := by decide +kernel

/-! ### System words (R308–R331) -/

theorem test_trap_enters_handler : after (.trap 0 33) base (fun t => (t.me.cause, t.me.finfo, t.me.epc, t.me.pc, t.me.hm, t.me.readyAt)) =
    some (0x20, 33, 0x10000, 0xFFFFFFFFFF0000, true, 12) := by decide +kernel
theorem test_trap_delegated : after (.trap 0 5) (core (fun c => { c with utmask := 0x100000000, utvec := 0x30000 }) base) (fun t => (t.me.pc, t.me.ut, t.me.hm)) =
    some (0x30000, true, false) := by decide +kernel
theorem test_eret_user : (trapOf (.eret 0) base).map (·.1) = some 0x02 := by decide +kernel
theorem test_eret_returns : after (.eret 0) (me (fun c => { c with xstat := 0x4000000000000000, epc := 0x20004 }) base) (fun t => (t.me.pc, t.me.ut)) =
    some (0x20004, false) := by decide +kernel
theorem test_crd_coord : after (.crd 0 .coord 3) base (fun t => t.me.gAt 2 3) = some 0 := by decide +kernel
theorem test_cwr_rmode_reserved : (trapOf (.cwr 0 .rmode 4) (g 4 4 base)).map (·.1) = some 0x01 := by decide +kernel
theorem test_cwr_cause_user : (trapOf (.cwr 0 .cause 4) base).map (·.1) = some 0x02 := by decide +kernel
theorem test_cset_check : after (.cset 0 .check 4) (g 4 0x30 base) (fun t => t.myCore.check) = some 0x30 := by decide +kernel
theorem test_cclr_rmode : after (.cclr 0 .rmode 4) (g 4 0x300 (me (fun c => { c with rmode := 0x701 }) base)) (fun t => t.me.rmode) = some 0x401 := by
  decide +kernel
theorem test_bxch_user : (trapOf (.bxch 0) base).map (·.1) = some 0x02 := by decide +kernel
theorem test_ctxsv_in_handler : after (.ctxsv 0 4) (g 4 1 (me (fun c => { c with xstat := 0x8000000000000000 }) base)) (fun t => (t.me.park, t.myCore.save.isSome)) =
    some (.home 51, true) := by decide +kernel
theorem test_illegal_word : after (.illegalInstruction 0) base (fun t => (t.me.cause, t.me.faddr, t.me.epc)) = some (0x01, 0x10000, 0x10000) := by
  decide +kernel

/-- R317: a context that waits in `BELAY` after its arrival waits in the same word when its image is loaded. -/
theorem test_belay_keeps_its_word :
    (lead.behind (some { lead with park := .belay .rope 2 0, word := some (.add 0 3 4 5) })).waiting = some (.add 0 3 4 5) := by decide +kernel

/-! ### Steps of the device -/

theorem test_tick : (next? (exec .tick State.reset)).map (·.tick) = some 1 := by decide +kernel
theorem test_reset_memory_wf : Memory.wf State.reset.mem = true ∧ Memory.wf (paged []).mem = true := by decide +kernel
theorem test_host_write_register : (next? (exec (.hostRegisterWrite (.bar none 0x100) 8 0x10000) State.reset)).map (·.regs.idtbase) = some 0x10000 := by
  decide +kernel
theorem test_qtail_too_far : (next? (exec (.qtailWrite 3 2) State.reset)).map (fun t => (t.queueOf 3).err) = some 2 := by decide +kernel
theorem test_package_reset_counts : (next? (exec .packageReset base)).map (fun t => (t.regs.resets, t.cores.length)) = some (1, 0) := by decide +kernel
theorem test_crtail : (next? (exec (.crtailWrite 9) State.reset)).map (·.regs.crtail) = some 9 := by decide +kernel
theorem test_telem : (next? (exec (.telemUpdate 0x123 0x45) State.reset)).map (·.regs.telem) = some 0x450123 := by decide +kernel
theorem test_next_cycle : (next? (step State.reset)).map (·.now) = some 1 := by decide +kernel

/-- SHA3-384 of no byte, and of 103 (FIPS 202's padding of one byte): the first eight bytes, computed by another implementation. -/
theorem test_sha3_empty : (sha3 []).take 8 = [0x0c, 0x63, 0xa7, 0x5b, 0x84, 0x5e, 0x4f, 0x7d] := by decide +kernel
theorem test_sha3_103 : (sha3 (List.replicate 103 7)).take 8 = [0xfc, 0xf0, 0x92, 0x09, 0xbc, 0xad, 0xed, 0x5b] := by decide +kernel

end Sys2Proof.Tests
end

