-- ==== Sys2Proof/Tests/Witness1.lean ====
section
/-! SUPPORT. Witnesses of the hypotheses in Obligations.IntegerWords to NumberFormats: for each clause a concrete state and operands that meet
them together, at the ends of the ranges where clauses meet. -/

namespace Sys2Proof.Tests

set_option Elab.async false

open Sys2Proof Sys2Proof.Machine

/-- The outcome of a step that goes on to a given state. -/
theorem next_of {o : Host.Outcome State Fault Refusal} {t : State} (h : next? o = some t) : o = .next t := by
  cases o <;> simp_all [next?]
theorem nat_le_of {n : Nat} {P : Nat → Prop} (h : ∀ k, k < n + 1 → P k) : ∀ k, k ≤ n → P k := fun k hk => h k (by omega)

/-! ### Words that compute, transfer and trap -/

theorem witness_IntegerWords : ∃ f, IntRule (.add 3 31 31 31) 3 1 31 f ∧ Ready (.add 3 31 31 31) base := ⟨_, .add .., by unfold Ready; decide +kernel⟩
/-- `ADDA`, `SUBA` at −1, 0, 2^56 − 1 and 2^56. -/
theorem witness_IntegerWords_addresses : ∃ f h, AddrRule (.adda 0 3 4 5) 0 3 4 f ∧ AddrRule (.suba 0 3 4 5) 0 3 4 h ∧
    Ready (.adda 0 3 4 5) base ∧ Ready (.suba 0 3 4 5) (g 5 1 base) ∧ f base = 0 ∧ h (g 5 1 base) = -1 ∧
    f (gs [(4, 0x00FFFFFFFFFFFFFF)] base) = 2 ^ 56 - 1 ∧ f (gs [(4, 0x00FFFFFFFFFFFFFF), (5, 1)] base) = 2 ^ 56 :=
  ⟨_, _, .adda .., .suba .., by unfold Ready; decide +kernel⟩
theorem witness_ControlTransfers : ∃ f h, JumpRule (.jr 0 4) 0 f 0 ∧ JumpRule (.jmp 0 0x800000) 0 h 0 ∧ RegJump (.jr 0 4) 4 ∧
    (let s := g 4 0xFFFFFFFF7FFFFC base
     Ready (.jr 0 4) s ∧ f s = some 0xFFFFFFFF7FFFFC ∧ MayGo s.me 0xFFFFFFFF7FFFFC ∧ (s.g 4).toNat % 4 = 0 ∧ (s.g 4).toNat < 2 ^ 56) ∧
    (let s := g 4 0xFFFFFFFFC00000 base
     f s = some 0xFFFFFFFFC00000 ∧ MayGo s.me 0xFFFFFFFFC00000) ∧
    ∀ a, ¬ RegJump (.jmp 0 0x800000) a :=
  ⟨_, _, .jr .., .jmp .., .jr .., by unfold Ready MayGo; decide +kernel, by unfold MayGo; decide +kernel, nofun⟩
theorem witness_ControlTransfers_traps : ∃ f, JumpRule (.jr 0 4) 0 f 0 ∧ RegJump (.jr 0 4) 4 ∧
    (let s := g 4 0x0100000000000001 base
     Ready (.jr 0 4) s ∧ (s.g 4).toNat % 4 ≠ 0) ∧
    (let s := g 4 0x0100000000000000 base
     Ready (.jr 0 4) s ∧ (s.g 4).toNat % 4 = 0 ∧ 2 ^ 56 ≤ (s.g 4).toNat) ∧
    (let s := g 4 0xFFFFFFFF800000 base
     Ready (.jr 0 4) s ∧ f s = some 0xFFFFFFFF800000 ∧ ¬ MayGo s.me 0xFFFFFFFF800000 ∧ (s.g 4).toNat % 4 = 0 ∧ (s.g 4).toNat < 2 ^ 56) ∧
    ¬ MayGo base.me 0xFFFFFFFFF00000 ∧ ¬ MayGo base.me 0xFFFFFFFFBFFFFC :=
  ⟨_, .jr .., .jr .., by unfold Ready MayGo; decide +kernel⟩
theorem witness_TakingTraps : Traps (.trap 0 33) base ⟨0x20, 0, 33⟩ ∧ Ready (.trap 0 33) base ∧ Ready (.eret 0) base ∧
    base.me.hm = false ∧ base.me.ut = false ∧ (me (fun c => { c with xstat := 0x8000000000000000 }) base).me.hm = true ∧
    (let s := me (fun c => { c with xstat := 0x4000000000000000, epc := 0x20004 }) base
     Ready (.eret 0) s ∧ s.me.ut = true ∧ MayGo s.me (s.me.epc.setWidth 56)) :=
  ⟨next_of (by decide +kernel), by unfold Ready MayGo; decide +kernel⟩
theorem witness_TimingWords : Ready (.dly 0 4) base ∧ Ready (.tsync 0) base ∧ Ready (.cairn 0) base ∧ Quiet base ∧
    base.unstarted base.act.1 base.act.2 = [] ∧ ¬ (base.act.2 = 0 ∧ base.myCore.task.cancel = true) ∧
    (let s := slot (fun t => { t with cancel := true }) base
     Ready (.cairn 0) s ∧ s.act.2 = 0 ∧ s.myCore.task.cancel = true) := by unfold Ready Quiet AtRest; decide +kernel

/-- `base` with helper 1 live, or all ten. -/
def helped (n : Nat) : State :=
  core (fun c => { c with ctxs := (0, lead) :: (List.range n).map fun k => (k + 1, { lead with pc := 0x20000 }) }) base
/-- Helper 1 has the turn. -/
def helper : State := { helped 1 with act := (0, 1) }
theorem witness_Helpers_start : Ready (.hstart 0 3 4) (g 4 0xFFFFFFFFFFFFFC (helped 1)) ∧ Quiet (helped 1) ∧ LowestFree (helped 1) (some 2) ∧
    LowestFree (helped 9) (some 10) ∧ LowestFree (helped 10) none ∧ Ready (.hstart 0 3 4) helper ∧ helper.act.2 ≠ 0 ∧
    ((g 4 0x01 base).g 4).toNat % 4 ≠ 0 ∧ ((g 4 0x0100000000000000 base).g 4).toNat % 4 = 0 ∧ Ready (.hstart 0 3 4) (g 4 0x0100000000000000 base) := by
  refine ⟨by unfold Ready; decide +kernel, by unfold Quiet AtRest; decide +kernel, ⟨by decide, by decide, by decide +kernel, fun j h1 h2 => ?_⟩,
    ⟨by decide, by decide, by decide +kernel, fun j h1 h2 => ?_⟩, fun k h1 h2 => ?_, by unfold Ready; decide +kernel, by decide +kernel, by unfold Ready; decide +kernel⟩
  · exact (by decide +kernel : ∀ j, j < 2 → 1 ≤ j → ((helped 1).ctx 0 j).live = true) j h2 h1
  · exact (by decide +kernel : ∀ j, j < 10 → 1 ≤ j → ((helped 9).ctx 0 j).live = true) j h2 h1
  · exact (by decide +kernel : ∀ j, j < 11 → 1 ≤ j → ((helped 10).ctx 0 j).live = true) k (by omega) h1
theorem witness_Helpers_end : Ready (.hexit 0) helper ∧ Quiet helper ∧ helper.act.2 ≠ 0 ∧ (∀ c ∈ helper.cmds, ¬ (c.core = helper.act.1 ∧ c.ctx = helper.act.2)) ∧
    Ready (.hexit 0) base ∧ Ready (.hwait 0 4) (g 4 1 (helped 1)) ∧ (g 4 1 (helped 1)).me.defer = none ∧ (g 4 1 (helped 1)).me.leftHere = none ∧
    ((helped 1).ctx 0 1).live = true ∧ ((helped 1).ctx 0 2).live = false ∧ ((g 4 11 (helped 1)).g 4).toNat % 16 = 11 := by unfold Ready Quiet AtRest; decide +kernel
theorem witness_ControlRegisters : (∃ f, CRegRule .drpc f ∧ Ready (.crd 0 .drpc 3) base) ∧ Ready (.crd 0 .rmode 3) base ∧ Quiet base :=
  ⟨⟨_, .drpc, by unfold Ready; decide +kernel⟩, by unfold Ready Quiet AtRest; decide +kernel⟩
theorem witness_ControlRegisters_write : ∃ f h, CRegWrite (.cwr 0 .spkeep 4) 0 .spkeep 4 f ∧ CRegWrite (.cset 0 .rmode 4) 0 .rmode 4 h ∧
    (let s := g 4 0x10000023F base
     Ready (.cwr 0 .spkeep 4) s ∧ MayWrite s.me .spkeep ∧ ¬ Refused .spkeep (f (s.begin.creg .spkeep) (s.g 4))) ∧
    (let s := g 4 0x100000240 base
     Ready (.cwr 0 .spkeep 4) s ∧ Refused .spkeep (f (s.begin.creg .spkeep) (s.g 4))) ∧
    (let s := g 4 0x4 base
     Ready (.cset 0 .rmode 4) s ∧ MayWrite s.me .rmode ∧ Refused .rmode (h (s.begin.creg .rmode) (s.g 4))) ∧
    Refused .utvec 0x0100000000000000 ∧ ¬ Refused .utvec 0x00FFFFFFFFFFFFFC ∧ Ready (.cwr 0 .epc 4) base ∧ ¬ MayWrite base.me .epc ∧ ¬ MayWrite base.me .coord ∧
    MayWrite (me (fun c => { c with xstat := 0x4000000000000000 }) base).me .epc ∧ MayWrite (me (fun c => { c with xstat := 0x8000000000000000 }) base).me .cause := by
  refine ⟨_, _, .cwr .., .cset .., ?_⟩
  unfold Ready Refused MayWrite cregAccess; decide +kernel
/-- An inexact sum with its flag not enabled, and enabled. -/
theorem witness_FloatResults : ∃ f, FloatRule (.fadd 0 .f32 .rne 3 4 5) 0 4 3 f ∧
    (let s := gs [(4, 0x3F800000), (5, 0x2F800000)] base
     Ready (.fadd 0 .f32 .rne 3 4 5) s ∧ Trapped s.me (f s).2 = 0) ∧
    (let s := gs [(4, 0x3F800000), (5, 0x2F800000)] (me (fun c => { c with rmode := 0x1F0000 }) base)
     Ready (.fadd 0 .f32 .rne 3 4 5) s ∧ Trapped s.me (f s).2 ≠ 0) :=
  ⟨_, .fadd .., by unfold Ready Trapped; decide +kernel, by unfold Ready Trapped; decide +kernel⟩
theorem witness_NumberFormats : 0xFF < 2 * e5m2.signBit ∧ (e5m2.dec 0xFC).isNan = false ∧ (e4m3.dec 0x7E).isNan = false ∧ (e4m3.dec 0x7F).isNan = true := by
  decide +kernel

end Sys2Proof.Tests
end

