-- ==== Sys2Proof/Tests/Witness2.lean ====
section
/-! SUPPORT. Witnesses of the hypotheses in the statements about scalar memory and atomics. -/

namespace Sys2Proof.Tests

set_option Elab.async false

open Sys2Proof Sys2Proof.Machine

/-- A core that holds no line has room for any. -/
theorem room_of_no_lines {s : State} {n : Nat} (h : (s.core n).lines = []) (asid : Asid) (va : VA) (e : Pte) : RoomFor s n asid va e :=
  fun _ _ _ => .inr (.inr (by simp [h]))

/-! ### Scalar memory -/

/-- A rope-net store of the acting context on its way to byte `o` of its own scratch. -/
def enRoute (o : Nat) (s : State) : State := { s with queue := [(s.now + 9, .ropeNetStoreArrival 0 ⟨1, 0⟩ [⟨o, 5, 0xFF⟩])] }

/-- Each clause of PlacesOfAccesses at the ends of its range: the last scratch byte, the guards, beyond them, the rope hole. -/
theorem witness_PlacesOfAccesses : base.myCore.banks.slen = 4096 ∧
    base.place 0 .read 0xFFFFFFFFF01000 8 = .scratch 0 ∧ base.place 0 .read 0xFFFFFFFFF01FF8 8 = .scratch 4088 ∧
    base.place 0 .read 0xFFFFFFFFF00FC0 8 = .guard (-64) ∧ base.place 0 .write 0xFFFFFFFFF00FF8 8 = .guard (-8) ∧
    base.place 0 .write 0xFFFFFFFFF02000 8 = .guard 4096 ∧ base.place 0 .write 0xFFFFFFFFF0203F 1 = .guard 4159 ∧
    base.place 0 .read 0xFFFFFFFFF02040 8 = .trap ⟨0x06, 0xFFFFFFFFF02040, 0⟩ ∧ base.place 0 .read 0xFFFFFFFFF00FB8 8 = .trap ⟨0x06, 0xFFFFFFFFF00FB8, 0⟩ ∧
    base.place 0 .read 0xFFFFFFFF800000 8 = .trap ⟨0x06, 0xFFFFFFFF800000, 0⟩ ∧ base.place 0 .read 0xFFFFFFFFBFFFF8 8 = .trap ⟨0x06, 0xFFFFFFFFBFFFF8, 0⟩ ∧
    (core (fun c => { c with banks := { c.banks with gran := [(0, ⟨0, false, true⟩)] } }) base).place 0 .read 0xFFFFFFFFF01000 8 = .trap ⟨0x13, 0xFFFFFFFFF01000, 0⟩ ∧
    ({ base with tick := 60 } : State).place 0 .read 0xFFFFFFFFF01000 8 = .scratch 0 ∧
    ({ base with tick := 61 } : State).place 0 .read 0xFFFFFFFFF01000 8 = .trap ⟨0x08, 0xFFFFFFFFF01000, 0⟩ := by decide +kernel
theorem witness_PlacesOfAccesses_pages : let s := paged []
    base.xlate 5 0xB0000 = none ∧ base.place 0 .write 0xB0000 8 = .page 0xB0000 true ∧
    s.xlate 5 0x3FFF8 = some pPriv ∧ s.place 0 .write 0x3FFF8 8 = .memory pPriv 0x13FFF8 ∧
    ({ s with poison := [0x13FFF8 / 128] } : State).place 0 .read 0x3FFF8 8 = .trap ⟨0x13, 0x3FFF8, 0⟩ ∧
    s.xlate 5 0xA0000 = some pRo ∧ pRo.wr = false ∧ s.xlate 5 0x70000 = some pFut ∧ pFut.cls = .future ∧ pFut.wr = true ∧ pFut.malformed = false ∧
    s.physOk (pFut.pa 0x70000) = true ∧ s.xlate 5 0x60000 = some pVit ∧ pVit.cls = .vitrine ∧ pVit.wr = true ∧ pVit.malformed = false ∧
    base.xlate 5 0xFFFFFFFFC00000 = none := by decide +kernel

theorem witness_Loading : ∃ ok ea, Loads (.ld 0 .s8 3 4 0) 0 .s8 3 false ok ea ∧ ok base ∧
    (let s := g 4 (S0 + 0xFFF) base
     Ready (.ld 0 .s8 3 4 0) s ∧ (ea s).toNat % ldBytes .s8 = 0 ∧ s.place s.act.1 .read (ea s) (ldBytes .s8) = .scratch 4095 ∧
       Landed s 4095 1 ∧ ¬ Landed (enRoute 4095 s) 4095 1 ∧ (enRoute 4095 s).place s.act.1 .read (ea s) 1 = .scratch 4095) ∧
    (let s := g 4 0x4FFFF (paged [])
     Ready (.ld 0 .s8 3 4 0) s ∧ s.place s.act.1 .read (ea s) (ldBytes .s8) = .memory pShared 0x14FFFF) ∧
    (let s := g 4 0xB0000 base
     Ready (.ld 0 .s8 3 4 0) s ∧ s.place s.act.1 .read (ea s) (ldBytes .s8) = .page 0xB0000 false) ∧
    (let s := g 4 (S0 + 0x1000) base
     Ready (.ld 0 .s8 3 4 0) s ∧ s.place s.act.1 .read (ea s) (ldBytes .s8) = .guard 4096) ∧
    (let s := g 4 (S0 + 0x1040) base
     Ready (.ld 0 .s8 3 4 0) s ∧ s.place s.act.1 .read (ea s) (ldBytes .s8) = .trap ⟨0x06, 0xFFFFFFFFF02040, 0⟩) :=
  ⟨_, _, .ld .., trivial, by unfold Ready Landed; decide +kernel⟩
theorem witness_Loading_other : (∃ ok ea, Loads (.ldFresh 0 .z64 3 4 0) 0 .z64 3 true ok ea ∧ ok (g 4 (S0 + 4) base) ∧
      Ready (.ldFresh 0 .z64 3 4 0) (g 4 (S0 + 4) base) ∧ (ea (g 4 (S0 + 4) base)).toNat % ldBytes .z64 ≠ 0) ∧
    let s := core (fun c => { c with wins := c.wins.set 1 (S0, 8) }) base
    (∃ ok ea, Loads (.ldw 0 .z64 3 1 4) 0 .z64 3 false ok ea ∧ ok s ∧ Ready (.ldw 0 .z64 3 1 4) s ∧ s.place s.act.1 .read (ea s) 8 = .scratch 0) ∧
    (winOf s 0).2 = 0 ∧ (winOf s 1).2 ≠ 0 ∧ (winOf s 1).2.toNat < ((g 4 1 s).g 4).toNat + ldBytes .z64 :=
  ⟨⟨_, _, .ldFresh .., trivial, by unfold Ready; decide +kernel⟩,
   ⟨_, _, .ldw .., by unfold winOf; decide +kernel, by unfold Ready; decide +kernel⟩, by unfold winOf; decide +kernel⟩
/-- Stores: scratch, another core's scratch, a guard, a trap; pages that are not the core's own, and one that is. -/
theorem witness_Storing : ∃ ea x, Stores (.st 0 .hi4 3 4 0) 0 1 ea x 0xF0 ∧
    (let s := g 4 (S0 + 0xFFF) base
     Ready (.st 0 .hi4 3 4 0) s ∧ (ea s).toNat % 1 = 0 ∧ s.place s.act.1 .write (ea s) 1 = .scratch 4095 ∧ Landed s 4095 1 ∧
       ¬ Landed (enRoute 4095 s) 4095 1) ∧
    (let s := g 4 0xFFFFFFFF881000 { base with cores := [(0, oneCore), (1, oneCore)] }
     Ready (.st 0 .hi4 3 4 0) s ∧ s.place s.act.1 .write (ea s) 1 = .rope 1 0) ∧
    (let s := g 4 (S0 - 1) base
     Ready (.st 0 .hi4 3 4 0) s ∧ s.place s.act.1 .write (ea s) 1 = .guard (-1)) ∧
    (let s := g 4 0xA0000 (paged [])
     Ready (.st 0 .hi4 3 4 0) s ∧ s.place s.act.1 .write (ea s) 1 = .trap ⟨0x06, 0xA0000, 0⟩) ∧
    (let s := g 4 0x50000 (paged [])
     Ready (.st 0 .hi4 3 4 0) s ∧ s.place s.act.1 .write (ea s) 1 = .memory pUc 0x150000 ∧ hasOrder pUc 0x150000 = false) ∧
    (let s := g 4 0x40000 (paged [])
     s.place s.act.1 .write (ea s) 1 = .memory pShared 0x140000 ∧ pShared.sh = true) ∧
    (let s := g 4 0x30000 (paged [])
     Ready (.st 0 .hi4 3 4 0) s ∧ s.place s.act.1 .write (ea s) 1 = .memory pPriv 0x130000 ∧ hasOrder pPriv 0x130000 = true ∧ pPriv.sh = false ∧
      pPriv.owner = s.act.1 ∧ Translates s s.asid (ea s) pPriv ∧ s.myCore.lines = [] ∧ s.flightsOf s.act.1 s.act.2 = [] ∧ ∀ f ∈ s.flights, f.id < s.next) :=
  ⟨_, _, .hi4 .., by unfold Ready Translates Landed; decide +kernel⟩
/-- An access in flight of the acting context. -/
def flying (k : FlightKind) (va : VA) (size : Nat) (val mask : W64) (s : State) : State :=
  { s with flights := [⟨7, 0, 0, 5, k, ⟨va, size, val, mask⟩, 0, 0, false, false, 0x10000⟩], next := 8 }
theorem witness_AccessesPerformed :
    (let s := flying (.load true (.gs 3 32)) 0x40004 4 0 0 (paged [(0x140000, 0x8000000000000001)])
     let f := s.flights.headD ⟨0, 0, 0, 0, .store, ⟨0, 0, 0, 0⟩, 0, 0, false, false, 0⟩
     s.flights.find? (fun g => g.id == f.id) = some f ∧ f.kind = .load true (.gs 3 32) ∧ s.before f = [f] ∧ f.stuck = false ∧
       Translates s f.asid f.acc.va pShared ∧ Settled f.core pShared ∧ NoDirty s f.asid f.acc.va pShared ∧ (s.core f.core).lines = []) ∧
    (let s := flying .store 0x30008 8 5 0xFFFFFFFFFFFFFFFF (paged [])
     let f := s.flights.headD ⟨0, 0, 0, 0, .store, ⟨0, 0, 0, 0⟩, 0, 0, false, false, 0⟩
     s.flights.find? (fun g => g.id == f.id) = some f ∧ f.kind = .store ∧ s.before f = [f] ∧ f.stuck = false ∧
       Translates s f.asid f.acc.va pPriv ∧ s.noRoute (pPriv.pa f.acc.va) = false ∧ Settled f.core pPriv ∧
       (s.core f.core).lines = []) ∧
    (let s := flying .store 0x90000 8 5 0xFFFFFFFFFFFFFFFF (paged [])
     let f := s.flights.headD ⟨0, 0, 0, 0, .store, ⟨0, 0, 0, 0⟩, 0, 0, false, false, 0⟩
     s.before f = [f] ∧ f.stuck = false ∧ Translates s f.asid f.acc.va pRemote ∧ s.noRoute (pRemote.pa f.acc.va) = true) ∧
    Settled 0 pUc := by unfold Translates Settled NoDirty; decide +kernel
theorem witness_AtomicValues : ATy.s32 ≠ .f32 ∧ AOp.min ≠ .fadd ∧ AOp.min ≠ .fmax ∧ AOp.min ≠ .fmin := by decide
theorem witness_Atomics : (∃ d, Instr.atom 0 .cas .z64 3 4 5 = .atom 0 .cas .z64 d 4 5 ∧ some 3 = some d) ∧
    (let s := g 4 (S0 + 0xFF8) base
     Ready (.atom 0 .cas .z64 3 4 5) s ∧ s.me.defer = none ∧ ((s.g 4).setWidth 56 : VA).toNat % 8 = 0 ∧ s.place s.act.1 .atomic ((s.g 4).setWidth 56) 8 = .scratch 4088 ∧
       Landed s 4088 8 ∧ ¬ Landed (enRoute 4095 s) 4088 8) ∧
    (let s := g 4 (S0 + 4) base
     Ready (.atom 0 .cas .z64 3 4 5) s ∧ ((s.g 4).setWidth 56 : VA).toNat % 8 ≠ 0) ∧
    (let s := g 4 0x90000 (paged [])
     Ready (.atomnr 0 .add .z64 4 5) s ∧ s.place s.act.1 .atomic ((s.g 4).setWidth 56) 8 = .memory pRemote (pRemote.pa 0x90000) ∧ isRemote (pRemote.pa 0x90000) = true) ∧
    (let s := g 4 S0 (core (fun c => { c with banks := { c.banks with gran := [(0, ⟨0, false, true⟩)] } }) base)
     Ready (.atomnr 0 .add .z64 4 5) s ∧ s.place s.act.1 .atomic ((s.g 4).setWidth 56) 8 = .trap ⟨0x13, S0, 0⟩) ∧
    (let s := g 4 0x40000 { paged [] with poison := [0x140000 / 128] }
     Ready (.atomnr 0 .add .z64 4 5) s ∧ s.place s.act.1 .atomic ((s.g 4).setWidth 56) 8 = .trap ⟨0x13, 0x40000, 0⟩) ∧
    (let s := g 4 0xA0000 (paged [])
     Ready (.atom 0 .add .z64 3 4 5) s ∧ s.place s.act.1 .atomic ((s.g 4).setWidth 56) 8 = .trap ⟨0x06, 0xA0000, 0⟩) ∧
    (let s := g 4 0xB0000 base
     Ready (.atom 0 .add .z64 3 4 5) s ∧ s.place s.act.1 .atomic ((s.g 4).setWidth 56) 8 = .page 0xB0000 true) ∧
    (let s := g 4 0xFFFFFFFFBFFFF8 base
     Ready (.atomnr 0 .add .z64 4 5) s ∧ ((s.g 4).setWidth 56 : VA).toNat % 8 = 0) := by
  refine ⟨⟨3, rfl, rfl⟩, ?_⟩; unfold Ready Landed; decide +kernel
theorem witness_Atomics_performed :
    (let s := flying (.atomic .add .z64 0 none) 0x40000 8 5 0 { paged [] with poison := [0x140000 / 128] }
     let f := s.flights.headD ⟨0, 0, 0, 0, .store, ⟨0, 0, 0, 0⟩, 0, 0, false, false, 0⟩
     s.flights.find? (fun g => g.id == f.id) = some f ∧ s.before f = [f] ∧ f.stuck = false ∧ f.acc.size = ATy.z64.bits / 8 ∧
       Translates s f.asid f.acc.va pShared ∧ s.poisoned (pShared.pa f.acc.va) = true) ∧
    (let s := flying (.atomic .add .z64 0 (some 3)) 0x90000 8 5 0 (paged [])
     let f := s.flights.headD ⟨0, 0, 0, 0, .store, ⟨0, 0, 0, 0⟩, 0, 0, false, false, 0⟩
     s.flights.find? (fun g => g.id == f.id) = some f ∧ s.before f = [f] ∧ f.stuck = false ∧ f.acc.size = ATy.z64.bits / 8 ∧
       Translates s f.asid f.acc.va pRemote ∧ s.noRoute (pRemote.pa f.acc.va) = true) ∧
    (let s := flying (.atomic .cas .s32 0 (some 3)) 0x40004 4 5 0 (paged [(0x140000, 9)])
     let f := s.flights.headD ⟨0, 0, 0, 0, .store, ⟨0, 0, 0, 0⟩, 0, 0, false, false, 0⟩
     s.flights.find? (fun g => g.id == f.id) = some f ∧ s.before f = [f] ∧ f.stuck = false ∧ f.acc.size = ATy.s32.bits / 8 ∧
       Translates s f.asid f.acc.va pShared ∧ s.noRoute (pShared.pa f.acc.va) = false ∧ Settled f.core pShared ∧ NoDirty s f.asid f.acc.va pShared) := by
  unfold Translates Settled NoDirty; decide +kernel
theorem witness_AcquiresAndReleases : Ready (.fenceAcq 0 .rope) base ∧ AtRest base ∧ Ready (.fenceRel 0 .device) base ∧ Ready (.fenceAr 0 .system) base ∧ Quiet base ∧
    (let s := g 4 0x4FFF8 (paged [])
     Ready (.ldAcq 0 .device 3 4 0) s ∧ Quiet s ∧ (mEA s 4 0 8).toNat % 8 = 0 ∧ s.place s.act.1 .read (mEA s 4 0 8) 8 = .memory pShared 0x14FFF8 ∧
       Settled s.act.1 pShared ∧ NoDirty s s.asid (mEA s 4 0 8) pShared ∧ s.myCore.lines = [] ∧
       0x14FFF8 = pShared.pa (mEA s 4 0 8)) := by unfold Ready Quiet AtRest Settled NoDirty; decide +kernel
theorem witness_AcquiresAndReleases_stores :
    (let s := g 4 S0 base
     AtRest s ∧ s.place s.act.1 .read (mEA s 4 0 8) 8 = .scratch 0 ∧ Landed s 0 8 ∧ s.place s.act.1 .write (mEA s 4 0 8) 8 = .scratch 0) ∧
    (let s := g 4 0x30000 (paged [])
     Ready (.stRel 0 .rope 3 4 0) s ∧ Quiet s ∧ (mEA s 4 0 8).toNat % 8 = 0 ∧ s.place s.act.1 .write (mEA s 4 0 8) 8 = .memory pPriv 0x130000 ∧
       Settled s.act.1 pPriv ∧ s.noRoute 0x130000 = false ∧ s.myCore.lines = [] ∧ 0x130000 = pPriv.pa (mEA s 4 0 8)) := by
  unfold Ready Quiet AtRest Settled Landed; decide +kernel

end Sys2Proof.Tests
end

