-- ==== Sys2Proof/Tests/Witness3.lean ====
section
/-! SUPPORT. Witnesses of the hypotheses in the statements about vector words, scaled elements, scratch, tags and caches. -/

namespace Sys2Proof.Tests

set_option Elab.async false

open Sys2Proof Sys2Proof.Machine

/-! ### Vector words -/

theorem witness_LaneResults : (∃ f, LaneRule (.vadd 0 3 1 2 1) 0 4 3 1 f) ∧ Ready (.vadd 0 3 1 2 1) base ∧ RingFree base :=
  ⟨⟨_, .vadd ..⟩, by unfold Ready RingFree; decide +kernel⟩
theorem witness_Reductions : (∃ x f, TreeRule (.vrmax 0 3 1 0) 0 12 3 1 0 x f) ∧ Ready (.vrmax 0 3 1 0) base ∧ RingFree base :=
  ⟨⟨_, _, .vrmax ..⟩, by unfold Ready RingFree; decide +kernel⟩
theorem witness_LaneMovesAndTests : Ready (.vsel 0 3 1 2 1) base ∧ Ready (.vbcast 0 3 4) base ∧ Ready (.vins 0 3 4 5) base ∧ Ready (.vext 0 1 3 4) base ∧ RingFree base ∧
    base.flightsOf base.act.1 base.act.2 = [] ∧
    (∃ f, PredRule (.vicmpLtS32 0 2 1 3 1) 0 2 1 f) ∧ (∃ f, PredRule (.vpset 0 0 1 1) 0 0 1 f) ∧ Ready (.vicmpLtS32 0 2 1 3 1) base ∧ Ready (.vpset 0 0 1 1) base := by
  refine ⟨?_, ?_, ?_, ?_, ?_, by decide +kernel, ⟨_, .vicmpLtS32 ..⟩, ⟨_, .vpset ..⟩, ?_⟩ <;> (first | unfold Ready | unfold RingFree) <;> decide +kernel

/-! ### Scaled elements, scratch and caches -/

/-- A bad tag, a misaligned base, an element that ends at 2^56 and one beyond, and an element in the rope hole. -/
theorem witness_ScaledAccesses_traps : ElemWords (.ldxF32 0 3 4 5) 4 5 false ∧ ElemWords (.stx 0 3 4 5) 4 5 true ∧
    (let s := g 4 0xB000000000000000 base
     Ready (.ldxF32 0 3 4 5) s ∧ tagged (s.g 4) = none) ∧
    (let s := g 4 0x1000000000000001 base
     Ready (.ldxF32 0 3 4 5) s ∧ tagged (s.g 4) = some ⟨.fp32, 0, 1⟩ ∧ tagAligned ⟨.fp32, 0, 1⟩ = false) ∧
    (let s := gs [(4, 0x10FFFFFFFFFFFFFC), (5, 1)] base
     let t : Tagged := ⟨.fp32, 0, 0xFFFFFFFFFFFFFC⟩
     Ready (.stx 0 3 4 5) s ∧ tagged (s.g 4) = some t ∧ tagAligned t = true ∧ 2 ^ 56 < t.va.toNat + elemOff t.fmt t.blog (s.g 5).toNat + elemSize t.fmt ∧
       ElemOk (g 5 0 s) 4 5 t) ∧
    (let s := g 4 0x10FFFFFFFF800000 base
     Ready (.stx 0 3 4 5) s ∧ ElemOk s 4 5 ⟨.fp32, 0, 0xFFFFFFFF800000⟩ ∧ s.place s.act.1 .write (elemVA ⟨.fp32, 0, 0xFFFFFFFF800000⟩ 0) 4 = .trap ⟨0x06, 0x00FFFFFFFF800000, 0⟩) := by
  refine ⟨.load _ _ _ _ _ _ (.ldxF32 ..), .store _ _ _ _ _ _ (.stx ..), ?_⟩; unfold Ready ElemOk elemVA; decide +kernel
/-- A scaled element of scratch under a well-formed scale slot, and under a malformed one with traps on; an unscaled one of a page. -/
theorem witness_ScaledAccesses : (∃ conv, ElemLoads (.ldxF32 0 3 4 5) 0 3 4 5 conv ∧
      (let s := scr [0xF0, 7, 0x38] (gs [(4, 0x44FFFFFFFFF01000), (5, 127)] base)
       let t : Tagged := ⟨.e4m3, 4, 0xFFFFFFFFF01000⟩
       Ready (.ldxF32 0 3 4 5) s ∧ ElemOk s 4 5 t ∧ s.flightsOf s.act.1 s.act.2 = [] ∧ s.place s.act.1 .read (elemVA t 127) 1 = .scratch 241 ∧ Landed s 241 1 ∧ Landed s 224 2) ∧
      Trapped (me (fun c => { c with rmode := 0x1F0000 }) base).me (conv .rne .e4m3 4 0x1000 0x38).2 ≠ 0 ∧ Trapped base.me (conv .rne .e4m3 4 0x07F0 0x38).2 = 0) ∧
    (∃ p, base.place 0 .read (slotVA ⟨.e4m3, 4, 0xFFFFFFFFF01000⟩ 127) 2 = .scratch p) ∧
    (let s := gs [(4, 0x1000000000040000), (5, 0x3FFF)] (paged [])
     let t : Tagged := ⟨.fp32, 0, 0x40000⟩
     Ready (.ldxF32 0 3 4 5) s ∧ ElemOk s 4 5 t ∧ s.place s.act.1 .read (elemVA t 0x3FFF) 4 = .memory pShared 0x14FFFC ∧ t.blog = 0 ∧
       Translates s s.asid (elemVA t 0x3FFF) pShared ∧ Settled s.act.1 pShared ∧ NoDirty s s.asid (elemVA t 0x3FFF) pShared ∧ s.myCore.lines = [] ∧
       s.noRoute 0x14FFFC = false ∧ s.me.rmode.extractLsb' 16 5 = (0 : BitVec 5) ∧
       s.place s.act.1 .write (elemVA t 0x3FFF) 4 = .memory pShared 0x14FFFC) ∧ ElemStores (.stxNsat 0 3 4 5) 0 3 4 5 true ∧
    (let s := gs [(4, 0xA0FFFFFFFFF01000), (5, 1)] base
     Ready (.stxNsat 0 3 4 5) s ∧ ElemOk s 4 5 ⟨.int4, 0, 0xFFFFFFFFF01000⟩ ∧ s.place s.act.1 .write (elemVA ⟨.int4, 0, 0xFFFFFFFFF01000⟩ 1) 1 = .scratch 0 ∧ Landed s 0 1 ∧
       SlotIn s ⟨.int4, 0, 0xFFFFFFFFF01000⟩ 1 0) := by
  refine ⟨⟨_, .ldxF32 .., ?_⟩, ⟨224, ?_⟩, ?_, .stxNsat .., ?_, ?_, ?_, ?_, fun h => absurd rfl h⟩
  · unfold Ready ElemOk elemVA Trapped Landed; decide +kernel
  · decide +kernel
  · unfold Ready ElemOk elemVA Translates Settled NoDirty; decide +kernel
  all_goals first | unfold Ready | unfold ElemOk | unfold elemVA | unfold Landed
  all_goals decide +kernel
theorem witness_CacheWords : Ready (.pref 0 4 5) base ∧ (∀ e pa, base.place 0 .read ((base.g 4).setWidth 56 + (base.g 5).setWidth 56) 1 ≠ .memory e pa) ∧
    (let s := g 4 0x40000 (paged [])
     s.place 0 .read ((s.g 4).setWidth 56 + (s.g 5).setWidth 56) 1 = .memory pShared 0x140000 ∧ Settled 0 pShared ∧ s.myCore.lines = []) ∧
    (let s := gs [(4, 0x30000), (5, 16)] { paged [] with locs := [(5 * 2 ^ 53 + 0x6000, ⟨0x130000, [⟨7, 0⟩], 1, 0⟩)] }
     s.locs.ascending = true ∧ (∃ e ∈ s.locs, e.2.dirty = 1 ∧ e.1 / 2 ^ 53 = s.asid.toNat ∧ InRange (s.g 4) (s.g 5) (e.1 % 2 ^ 53 * 8)) ∧
       ∀ e ∈ s.locs, ∀ d ∈ s.locs, d.2.pa % 8 = 0 ∧ (d.2.pa = e.2.pa → d = e)) ∧
    Flushes (.flushinv 0 4 5) 0 4 5 true ∧ Ready (.flushinv 0 4 5) base ∧ base.flightsOf 0 0 = [] ∧ base.locs.ascending = true ∧ (∀ e ∈ base.locs, e.2.dirty = 0) ∧
    Ready (.icinv 0 .rope 4 5) base ∧ Quiet base ∧
    ((me (fun c => { c with park := .home 9 }) base).ctx 0 0).park = .home 9 := by
  refine ⟨by unfold Ready; decide +kernel, fun e pa => ?_, by unfold Settled; decide +kernel, by unfold InRange; decide +kernel, .flushinv .., by unfold Ready Quiet AtRest; decide +kernel⟩
  rw [show base.place 0 .read ((base.g 4).setWidth 56 + (base.g 5).setWidth 56) 1 = .page 0 false by decide +kernel]; nofun
/-- `SPRESIZE` of 18 banks before and after the wait for write-backs, of the layout that stands, the word one byte too many, a
nineteenth FIFO bank, and a core whose FIFO banks are given up. -/
theorem witness_ScratchSizeAndFreshness_size :
    (let s := g 4 294912 base
     Ready (.spresize 0 4) s ∧ s.act.2 = 0 ∧ (s.g 4).toNat / 2 ^ 37 = 0 ∧ (s.g 4).toNat % 2 ^ 32 ≤ 294912 ∧
       ((294912 + 63) / 64 * 64 + 16383) / 16384 + (s.g 4).toNat / 2 ^ 32 % 32 ≤ 18 ∧ (∀ g ∈ s.flights, g.core ≠ s.act.1) ∧ (∀ c ∈ s.cmds, c.core ≠ s.act.1) ∧
       s.me.answer ≠ some writesBack ∧ s.myCore.banks.spcfg ≠ spcfgWord 294912 0 ∧ ∀ l ∈ s.myCore.lines, l.dirty = false) ∧
    (g 4 4096 base).myCore.banks.spcfg = spcfgWord 4096 0 ∧
    (let s := me (fun c => { c with answer := some writesBack }) (g 4 294912 base)
     Ready (.spresize 0 4) s ∧ s.me.answer = some writesBack ∧ (s.g 4).toNat = 294912) ∧
    ¬ ((g 4 294913 base).g 4).toNat % 2 ^ 32 ≤ 294912 ∧ ¬ ((294912 + 63) / 64 * 64 + 16383) / 16384 + ((g 4 0x100048000 base).g 4).toNat / 2 ^ 32 % 32 ≤ 18 ∧
    Ready (.spresize 0 4) helper ∧ helper.act.2 ≠ 0 ∧
    (let s := core (fun c => { c with banks := Banks.init.resized 0 18 0 }) base
     s.myCore.on ≠ none ∧ s.myCore.banks.role 17 = 2 ∧ s.myCore.banks.role 1 = 2 ∧ 17 < 19 - 0) := by unfold Ready; decide +kernel
/-- `RENEW` of nothing, before the scratch and past it; of eight granules as it issues, and in the cycle after: sound, poisoned, stale. -/
theorem witness_ScratchSizeAndFreshness_renew : Ready (.renew 0 4 5) base ∧ (base.g 5).toNat = 0 ∧
    (let s := gs [(4, S0 - 1), (5, 1)] base
     Ready (.renew 0 4 5) s ∧ (s.g 5).toNat ≠ 0 ∧ ((s.g 4).setWidth 56 : VA).toNat < 0xFFFFFFFFF01000) ∧
    (let s := gs [(4, S0 + 0xFFF), (5, 2)] base
     Ready (.renew 0 4 5) s ∧ s.myCore.banks.slen < ((s.g 4).setWidth 56 : VA).toNat - 0xFFFFFFFFF01000 + (s.g 5).toNat) ∧
    (let s := gs [(4, S0), (5, 4096)] base
     Ready (.renew 0 4 5) s ∧ ((s.g 4).setWidth 56 : VA).toNat - 0xFFFFFFFFF01000 + (s.g 5).toNat ≤ s.myCore.banks.slen ∧ s.me.answer = none) ∧
    (let s := me (fun c => { c with answer := some (0, 0, 0) }) (gs [(4, S0), (5, 4096)] base)
     let stale := fun g => (s.myCore.banks.granAt g).exp = true ∨ 60 < (s.tick - (s.myCore.banks.granAt g).stamp).toNat
     Ready (.renew 0 4 5) s ∧ ((s.g 4).setWidth 56 : VA).toNat - 0xFFFFFFFFF01000 + (s.g 5).toNat ≤ s.myCore.banks.slen ∧ s.me.answer = some (0, 0, 0) ∧
       ∀ g, g < 8 → (s.myCore.banks.granAt g).poison = false ∧ ¬ stale g) ∧
    (let s := core (fun c => { c with banks := { c.banks with gran := [(7, ⟨0, true, true⟩)] } }) base
     (∀ h, h < 7 → (s.myCore.banks.granAt h).poison = false) ∧ (s.myCore.banks.granAt 7).poison = true) ∧
    (let s := core (fun c => { c with banks := { c.banks with gran := [(7, ⟨0, true, false⟩)] } }) base
     (∀ h, h < 7 → ¬ ((s.myCore.banks.granAt h).exp = true ∨ 60 < (s.tick - (s.myCore.banks.granAt h).stamp).toNat)) ∧ (s.myCore.banks.granAt 7).exp = true ∧
       ∀ h, h < 8 → (s.myCore.banks.granAt h).poison = false) := by unfold Ready; decide +kernel
/-- Two cores of a rope with a task each. -/
def twoCores : State := { base with cores := [(0, oneCore), (1, oneCore)] }
theorem witness_TagsAndRopeNetStores : Ready (.seqset 0 4 5) base ∧ Ready (.seqget 0 3 4) base ∧
    (g 4 (S0 + 4095) base).place 0 .write (((g 4 (S0 + 4095) base).g 4).setWidth 56) 1 = .scratch 4095 ∧
    twoCores.place 0 .write 0xFFFFFFFF881FFF 1 = .rope 1 4095 ∧
    (∀ o, base.place 0 .write ((base.g 4).setWidth 56) 1 ≠ .scratch o) ∧ (∀ k o, base.place 0 .write ((base.g 4).setWidth 56) 1 ≠ .rope k o) ∧
    (base.core 0).on ≠ none ∧ (base.core 0).task.bind = 1 ∧ (base.core 1).on = none ∧
    (let bs : List WByte := [⟨4095, 0xFF, 5⟩]
     (∀ w ∈ bs, w.addr ≠ 4094) ∧ ∀ w ∈ bs, (∀ u ∈ bs, u.addr = w.addr → u = w) ∧ w.addr < (base.core 0).banks.slen) := by
  have h : base.place 0 .write ((base.g 4).setWidth 56) 1 = .page 0 true := by decide +kernel
  refine ⟨by unfold Ready; decide +kernel, by unfold Ready; decide +kernel, by decide +kernel, by decide +kernel, fun o => by rw [h]; nofun, fun k o => by rw [h]; nofun, by decide +kernel⟩

end Sys2Proof.Tests
end

