-- ==== Sys2Proof/Tests/Witness4.lean ====
section
/-! SUPPORT. Witnesses of the hypotheses in the statements about waits, belays, signals, queues, futures, messages and vector memory. -/

namespace Sys2Proof.Tests

set_option Elab.async false

open Sys2Proof Sys2Proof.Machine

/-! ### Waits -/

/-- What an object of the own scratch shows. -/
theorem shows_scratch {s : State} {va : VA} {o : Nat} (h : s.place s.act.1 .read va 8 = .scratch o) :
    ∀ x, Shows s va x → x = BitVec.ofNat 64 (cellsLE s.myCore.banks.bytes o 8) := by
  rintro x (⟨q, hq, -, hx⟩ | ⟨e, pa, he, -⟩)
  · rw [h] at hq; cases hq; exact hx
  · rw [h] at he; cases he
theorem object_waits {i : Instr} {s : State} {st a b d lim o} (w : ObjectWaits i st a b d lim)
    (h : s.me.defer = none ∧ ((s.g a).setWidth 56 : VA).toNat % 8 = 0 ∧ s.place s.act.1 .read ((s.g a).setWidth 56) 8 = .scratch o ∧
      s.ownNetBy s.act.1 s.act.2 o 8 ≤ s.now ∧ ¬ (BitVec.ofNat 64 (cellsLE s.myCore.banks.bytes o 8) - s.g b).toNat < 2 ^ 63) : NotYet i s (lim s) :=
  .object i st a b d lim s w h.1 h.2.1 ⟨_, .inl ⟨o, h.2.2.1, h.2.2.2.1, rfl⟩⟩ fun x hx => by rw [shows_scratch h.2.2.1 x hx]; exact h.2.2.2.2
/-- A core with two FIFO banks, the inbox and queue 0; queue 0 full; a task whose spill area is full. -/
def queued : State := core (fun c => { c with banks := Banks.init.resized 4096 2 0 }) base
def full : State := core (fun c => { c with banks := c.banks.setFifo 17 (List.replicate 2048 ⟨0, 0, 0, false⟩) }) queued
def crowded : State := slot (fun t => { t with msgs := List.replicate 2048 ⟨0, 0, 0, false⟩ }) base
/-- A transfer of the acting context under way. -/
def moving : State := { base with xfers := [⟨3, 0, 0, 1, 5, false, 0xFFFFFFFFF01000, 0x00FFFFFFFFF01100, 16, 0, [], [], none⟩] }
/-- The object in scratch holds 5, and 6 is waited for. -/
def early : State := scr [5] (gs [(4, S0), (5, 6)] base)

theorem witness_WordsThatWait_object : NotYet (.cwait 0 4 5) early none ∧ Ready (.cwait 0 4 5) early ∧ Fresh early ∧
    NotYet (.cwaitb 0 3 4 5) (g 3 1 early) (some 1) ∧ Ready (.cwaitb 0 3 4 5) (g 3 1 early) ∧ Fresh (g 3 1 early) ∧
    NotYet (.cwaitb 0 3 4 5) early (some 0) ∧ Ready (.cwaitb 0 3 4 5) early ∧ early.me.park = .no ∧ early.me.answer = none ∧ early.me.leftHere.getD 0 = 0 :=
  ⟨object_waits (o := 0) (.cwait 0 4 5) (by decide +kernel), by unfold Ready; decide +kernel, by unfold Fresh; decide +kernel,
   object_waits (o := 0) (.cwaitb 0 3 4 5) (by decide +kernel), by unfold Ready; decide +kernel, by unfold Fresh; decide +kernel,
   object_waits (o := 0) (.cwaitb 0 3 4 5) (by decide +kernel), by unfold Ready; decide +kernel⟩
theorem witness_WordsThatWait : NotYet (.qpop 0 3 4) queued none ∧ Ready (.qpop 0 3 4) queued ∧ Fresh queued ∧
    NotYet (.qpush 0 4 5) full none ∧ Ready (.qpush 0 4 5) full ∧ Fresh full ∧
    NotYet (.futwait 0 3 4) (gs [(3, 6), (4, 0x70000)] (paged [(0x170008, 5)])) none ∧ Ready (.futwait 0 3 4) (gs [(3, 6), (4, 0x70000)] (paged [(0x170008, 5)])) ∧
    NotYet (.recvb 0 3 4) (g 4 2 base) (some 2) ∧ Ready (.recvb 0 3 4) (g 4 2 base) ∧ NotYet (.bwait 0 .rope 4 5) base none ∧ Ready (.bwait 0 .rope 4 5) base ∧
    NotYet (.lease 0) base none ∧ Ready (.lease 0) base ∧ NotYet (.leaseb 0 4) (g 4 9 base) (some 9) ∧ NotYet (.fsync 0) moving none ∧ Ready (.fsync 0) moving ∧ Fresh moving :=
  ⟨.pop _ _ _ _ _ _ (.qpop ..) (by unfold QueueWord; decide +kernel) (by unfold HasQueue; decide +kernel) (by decide +kernel),
   by unfold Ready; decide +kernel, by unfold Fresh; decide +kernel,
   .qpush _ _ _ _ (by unfold QueueWord; decide +kernel) (by unfold PushTarget HasQueue; decide +kernel) (by unfold Quiet AtRest; decide +kernel) (by decide +kernel),
   by unfold Ready; decide +kernel, by unfold Fresh; decide +kernel,
   .future _ _ _ _ _ _ pFut 0x170000 (.futwait ..) (by decide +kernel) (by decide +kernel) (by unfold Reached; decide +kernel), by unfold Ready; decide +kernel,
   .receive _ _ _ _ _ (.recvb ..) (by decide +kernel) (by decide +kernel), by unfold Ready; decide +kernel,
   .bwait _ _ _ _ _ (by unfold BelayWord.BelayId; decide +kernel) (by decide +kernel) (by decide +kernel), by unfold Ready; decide +kernel,
   .lease _ _ (by decide +kernel), by unfold Ready; decide +kernel, .leaseb _ _ _ (by decide +kernel), .fsync _ _ (by decide +kernel), by unfold Ready; decide +kernel,
   by unfold Fresh; decide +kernel⟩
theorem witness_WordsThatWait_ends : Ready (.wfe 0 3 4) base ∧ Fresh base ∧ base.me.defer = none ∧ base.myCore.task.event = false ∧ (base.g 4).toNat % 2 ^ 32 = 0 ∧
    ((g 4 0xFFFFFFFF base).g 4).toNat % 2 ^ 32 ≠ 0 ∧
    (let s := me (fun c => { c with park := .cond ⟨0, some 3, 9, .recvb 0 3 4, 0⟩ }) base
     (s.ctx 0 0).park = .cond ⟨0, some 3, 9, .recvb 0 3 4, 0⟩ ∧ (s.core 0).failing = none ∧ s.sendHolds 9 = false ∧ s.waitHolds 0 0 (.recvb 0 3 4) = false) ∧
    (let s := me (fun c => { c with park := .cond ⟨0, some 3, 9, .bwait 0 .rope 4 5, 0⟩ }) (g 5 1 base)
     (s.core 0).failing = none ∧ s.sendHolds 0 = false ∧ s.waitHolds 0 0 (.bwait 0 .rope 4 5) = true) ∧
    ∀ w, (base.ctx 0 0).park ≠ .cond w := by
  refine ⟨by unfold Ready; decide +kernel, by unfold Fresh; decide +kernel, by decide +kernel, by decide +kernel, by decide +kernel, by decide +kernel, by decide +kernel, by decide +kernel, fun w => ?_⟩
  rw [show (base.ctx 0 0).park = .no by decide +kernel]; nofun
theorem not_in_belay {s : State} (h : s.me.park = .no) : ∀ x y z, s.me.park ≠ .belay x y z := fun _ _ _ => by rw [h]; nofun
/-- Arrivals at the ends of NARR and ID, one that waits, a bad word, and a guard record. -/
theorem witness_BelaysAndTheirTree :
    (let s := g 4 0x1F000058 base
     Ready (.belay 0 .rope 4) s ∧ (∀ x y z, s.me.park ≠ .belay x y z) ∧ BelayWord .rope (s.g 4) ∧ s.myCore.guardrec.getLsbD 63 = false ∧ Quiet s ∧ s.unstarted 0 0 = []) ∧
    (let s := g 4 0x0F032F01 base
     Ready (.barr 0 .device 3 4) s ∧ BelayWord .device (s.g 4) ∧ Quiet s) ∧
    (let s := me (fun c => { c with park := .belay .rope 0 0 }) base
     Ready (.belay 0 .rope 4) s ∧ s.me.park = .belay .rope 0 0 ∧ AtRest s) ∧
    (let s := g 5 1 base
     Ready (.bwait 0 .rope 4 5) s ∧ BelayWord.BelayId .rope (s.g 4) ∧ AtRest s ∧ (s.belayAt (ropeCounter s .rope (s.g 4))).gen ≠ (s.g 5).setWidth 16) ∧
    ¬ BelayWord .rope 0x59 ∧ ¬ BelayWord .rope 0 ∧ ¬ BelayWord.BelayId .rope 0x20000000 ∧ ¬ BelayWord.BelayId .die 0x10000000 ∧
    (let s := g 4 1 (core (fun c => { c with guardrec := 0x8000000000000000 }) base)
     Ready (.barr 0 .rope 3 4) s ∧ BelayWord .rope (s.g 4) ∧ s.me.park = .no ∧ s.myCore.guardrec.getLsbD 63 = true) := by
  refine ⟨⟨by unfold Ready; decide +kernel, not_in_belay (by decide +kernel), ?_, ?_, ?_, ?_⟩, ⟨?_, ?_, ?_⟩, ?_, ?_, ?_, ?_, ?_, ?_, ?_⟩
  all_goals (try unfold Ready); (try unfold BelayWord); (try unfold BelayWord.BelayId); (try unfold Quiet); (try unfold AtRest); decide +kernel
/-- A load of the acting context that a page fault holds. -/
def stuckLoad (s : State) : State := { s with flights := [⟨7, 0, 0, 5, .load false (.gs 3 32), ⟨0xB0000, 4, 0, 0⟩, 0, 0, false, true, 0x10000⟩], next := 8 }
theorem witness_SignalsAndCompletions : Ready (.evsig 0 4) (g 4 0x7FF base) ∧ ((g 4 0x7FF base).g 4).toNat < 2 ^ 11 ∧ ((g 4 0x7FF base).g 4).toNat / 8 % 64 = 63 ∧ Quiet base ∧
    Ready (.evsig 0 4) (g 4 0x800 base) ∧ 2 ^ 11 ≤ ((g 4 0x800 base).g 4).toNat ∧ ((g 4 0x17F base).g 4).toNat / 8 % 64 = 47 ∧
    (let s := slot (fun t => { t with event := true }) base
     Ready (.wfe 0 3 4) s ∧ s.me.defer = none ∧ s.myCore.task.event = true) ∧
    (let s := me (fun c => { c with park := .cond ⟨0, none, 0, .wfe 0 3 4, 0⟩ }) base
     (s.core 0).on ≠ none ∧ (s.core 0).asid = 5 ∧ 0 ∈ (s.core 0).live ∧ (s.ctx 0 0).park = .cond ⟨0, none, 0, .wfe 0 3 4, 0⟩) ∧
    (let s := me (fun c => { c with park := .cond ⟨0, none, 0, .wfe 0 3 4, 0⟩, answer := some (1, 0, 0) }) base
     Ready (.wfe 0 3 4) s ∧ s.me.defer = none ∧ s.myCore.task.event = false ∧ s.flightsOf s.act.1 s.act.2 = [] ∧ s.me.answer = some (1, 0, 0)) ∧
    (let s := me (fun c => { c with answer := some (9, 0, 0) }) (stuckLoad (g 4 S0 base))
     Ready (.wfe 0 3 4) s ∧ Ready (.cwaitb 0 3 4 5) s ∧ s.me.defer = none ∧ s.me.answer ≠ none ∧ ((s.g 4).setWidth 56 : VA).toNat % 8 = 0 ∧
       s.place s.act.1 .read ((s.g 4).setWidth 56) 8 = .scratch 0 ∧ Landed s 0 8 ∧ ∃ f ∈ s.flightsOf s.act.1 s.act.2, f.stuck = true) := by unfold Ready Quiet AtRest Landed; decide +kernel
theorem witness_SignalsAndCompletions_objects : ObjectWaits (.cwaitb 0 3 4 5) 0 4 5 (some 3) (fun s => some ((s.g 3).toNat % 2 ^ 32)) ∧
    (let s := g 4 (S0 + 4) base
     Ready (.cwaitb 0 3 4 5) s ∧ s.me.defer = none ∧ ((s.g 4).setWidth 56 : VA).toNat % 8 ≠ 0) ∧
    (let s := g 4 0x60000 (paged [])
     ((s.g 4).setWidth 56 : VA).toNat % 8 = 0 ∧ s.place s.act.1 .read ((s.g 4).setWidth 56) 8 = .trap ⟨0x11, 0x60000, 0⟩) ∧
    (let s := me (fun c => { c with answer := some (9, 0, 0) }) (g 4 S0 base)
     Ready (.cwaitb 0 3 4 5) s ∧ s.me.answer = some (9, 0, 0) ∧ s.place s.act.1 .read ((s.g 4).setWidth 56) 8 = .scratch 0) ∧
    (let s := scr [5] (gs [(4, S0), (5, 5)] base)
     Ready (.cwaitb 0 3 4 5) s ∧ s.me.answer = none ∧ (∃ x, Shows s ((s.g 4).setWidth 56) x) ∧ ∀ x, Shows s ((s.g 4).setWidth 56) x → Reached x (s.g 5)) := by
  have h : (scr [5] (gs [(4, S0), (5, 5)] base)).place (scr [5] (gs [(4, S0), (5, 5)] base)).act.1 .read
    (((scr [5] (gs [(4, S0), (5, 5)] base)).g 4).setWidth 56) 8 = .scratch 0 := by decide +kernel
  refine ⟨.cwaitb .., by unfold Ready; decide +kernel, by decide +kernel, by unfold Ready; decide +kernel, by unfold Ready; decide +kernel, by decide +kernel, ⟨_, .inl ⟨0, h, by unfold Landed; decide +kernel, rfl⟩⟩, fun x hx => ?_⟩
  rw [shows_scratch h x hx]; unfold Reached; decide +kernel
theorem witness_RopeQueues : Ready (.qpush 0 4 5) queued ∧ Fresh queued ∧ QueueWord 0xFFFFFFFFFFFFFF88 (queued.g 4) ∧ PushTarget queued (queued.g 4) ∧ Quiet queued ∧
    queued.unstarted 0 0 = [] ∧ queued.queueRoom (pushCore queued (queued.g 4)) 0 = true ∧ ¬ QueueWord 0xFFFFFFFFFFFFFF88 0x80 ∧ ¬ PushTarget queued 0x10 ∧
    ¬ PushTarget base 0 ∧ ¬ PushTarget queued 1 ∧ (queued.core 0).on ≠ none ∧ HasQueue (queued.core 0) 0 ∧ Pops (.qpop 0 3 4) 0 3 4 (fun _ => none) ∧ Ready (.qpop 0 3 4) full ∧ Fresh full ∧
    QueueWord 0xFFFFFFFFFFFFFF8F (full.g 4) ∧ queueOfCore full.myCore 0 = ⟨0, 0, 0, false⟩ :: List.replicate 2047 ⟨0, 0, 0, false⟩ ∧ AtRest full ∧ full.unstarted 0 0 = [] ∧
    (let s := core (fun c => { c with banks := c.banks.setFifo 17 [⟨0, 0, 0, true⟩] }) queued
     Ready (.qpop 0 3 4) s ∧ queueOfCore s.myCore 0 = [⟨0, 0, 0, true⟩]) ∧ ¬ QueueWord 0xFFFFFFFFFFFFFF8F 1 ∧ ¬ HasQueue base.myCore 0 ∧
    (let s := me (fun c => { c with park := .cond ⟨0, none, 0, .qpush 0 4 5, 2⟩ }) queued
     Ready (.qpush 0 4 5) s ∧ s.me.park = .cond ⟨0, none, 0, .qpush 0 4 5, 2⟩ ∧ PushTarget s (s.g 4) ∧ (2 : Nat) ≠ (s.core (pushCore s (s.g 4))).task.bind) := by
  refine ⟨by unfold Ready; decide +kernel, by unfold Fresh; decide +kernel, by unfold QueueWord; decide +kernel, by unfold PushTarget HasQueue; decide +kernel, by unfold Quiet AtRest; decide +kernel, by decide +kernel, by decide +kernel, by unfold QueueWord; decide +kernel,
    by unfold PushTarget HasQueue; decide +kernel, by unfold PushTarget HasQueue; decide +kernel, by unfold PushTarget HasQueue; decide +kernel, by decide +kernel, by unfold HasQueue; decide +kernel, .qpop .., ?_⟩
  unfold Ready Fresh QueueWord AtRest PushTarget HasQueue; decide +kernel

/-- A FUTURE page on package 1 in the place of page 7. -/
def pFutRemote : Pte := pte 20 7 0x8620000802000019
theorem witness_FuturesAndMessages_dropped : let s := g 4 0x70000 { paged [] with mem := cellsPut (paged []).mem 0x20A08 (leBytes [0x8620000802000019]) }
    Ready (.futset 0 3 4 5) s ∧ ((s.g 4).setWidth 56 : VA).toNat % 16 = 0 ∧ Quiet s ∧
    s.place s.act.1 .futWrite ((s.g 4).setWidth 56) 16 = .memory pFutRemote (pFutRemote.pa 0x70000) ∧ s.noRoute (pFutRemote.pa 0x70000) = true := by
  unfold Ready Quiet AtRest; decide +kernel
theorem witness_FuturesAndMessages_futures : FutureWaits (.futwaitb 0 3 4 5) 0 3 4 (fun s => some ((s.g 5).toNat % 2 ^ 32)) ∧
    (let s := g 4 0x7FFF0 (paged [])
     Ready (.futset 0 3 4 5) s ∧ ((s.g 4).setWidth 56 : VA).toNat % 16 = 0 ∧ Quiet s ∧ s.place s.act.1 .futWrite ((s.g 4).setWidth 56) 16 = .memory pFut 0x17FFF0 ∧ s.noRoute 0x17FFF0 = false) ∧
    (let s := gs [(3, 0xFFFFFFFFFFFFFFFF), (4, 0x70000)] (paged [(0x170008, 0x7FFFFFFFFFFFFFFE)])
     Ready (.futwaitb 0 3 4 5) s ∧ AtRest s ∧ s.place s.act.1 .futRead ((s.g 4).setWidth 56) 16 = .memory pFut 0x170000 ∧ Reached (s.phys64 0x170008) (s.g 3)) ∧
    (let s := g 4 0x70008 (paged [])
     Ready (.futwaitb 0 3 4 5) s ∧ ((s.g 4).setWidth 56 : VA).toNat % 16 ≠ 0) ∧
    (let s := g 4 0x40000 (paged [])
     s.place s.act.1 .futWrite ((s.g 4).setWidth 56) 16 = .trap ⟨0x06, 0x40000, 0⟩ ∧ s.place s.act.1 .futRead ((s.g 4).setWidth 56) 16 = .trap ⟨0x06, 0x40000, 0⟩) := by
  refine ⟨.futwaitb .., ?_, ?_, ?_⟩ <;> (try unfold Ready) <;> (try unfold Quiet) <;> (try unfold AtRest) <;> (try unfold Reached) <;> decide +kernel
/-- `SENDB` of core 0 to its own task 7, without space where the bound is 0; to a rope that is not there; an answer that came. -/
theorem witness_FuturesAndMessages_send : Sends (.sendb 0 3 4 5) 0 3 4 5 (fun s => some ((s.g 3).toNat % 2 ^ 32)) ∧
    (let s := gs [(3, 1), (4, 0x700000000)] base
     Ready (.sendb 0 3 4 5) s ∧ (s.g 4).toNat / 2 ^ 11 % 2 ^ 21 = 0 ∧ Fresh s ∧ Quiet s ∧ (s.g 3).toNat % 2 ^ 32 ≠ 0 ∧ coreNamed (s.g 4) = some 0) ∧
    coreNamed 0x77F = some 1535 ∧ coreNamed 0x780 = none ∧ ((g 4 0x800 base).g 4).toNat / 2 ^ 11 % 2 ^ 21 ≠ 0 ∧
    (let s := me (fun c => { c with answer := some (1, 0, 0) }) base
     Ready (.sendb 0 3 4 5) s ∧ s.me.answer = some (1, 0, 0)) ∧
    (let s := g 4 0x700000000 crowded
     Ready (.sendb 0 3 4 5) s ∧ Fresh s ∧ Quiet s ∧ (s.g 3).toNat % 2 ^ 32 = 0 ∧ coreNamed (s.g 4) = some 0 ∧ s.sendRoom 0 s.asid 7 (s.underWay 0 s.asid 7) = false) := by
  refine ⟨.sendb .., ?_, ?_, ?_, ?_, ?_, ?_⟩ <;> (try unfold Ready) <;> (try unfold Fresh) <;> (try unfold Quiet AtRest) <;> decide +kernel
/-- A message to the inbox, to the spill area, to a task that is not there, and without space. -/
theorem witness_FuturesAndMessages_deliver :
    ((me (fun c => { c with park := .cond ⟨0, none, 9, .send 0 3 4 5, 0⟩ }) queued).ctx 0 0).waitsOn 9 = true ∧ (base.ctx 0 0).waitsOn 9 = false ∧
    (queued.core 0).slotOf 5 7 = some 0 ∧ (queued.core 0).banks.role 18 = 2 ∧ ((queued.core 0).banks.fifoAt 18).length < 2048 ∧ (base.core 0).slotOf 5 8 = none ∧
    (base.core 0).slotOf 5 7 = some 0 ∧ (base.core 0).banks.role 18 ≠ 2 ∧ ((base.core 0).slot 0).msgs.length < 2048 ∧ ¬ ((crowded.core 0).slot 0).msgs.length < 2048 := by
  decide +kernel
theorem witness_FuturesAndMessages_receive : Receives (.recv 0 3) 0 3 (fun _ => none) ∧
    (let s := slot (fun t => { t with msgs := [⟨1, 0x42, 0, false⟩] }) (core (fun c => { c with banks := c.banks.setFifo 18 [⟨2, 0x43, 0, true⟩] }) queued)
     Ready (.recv 0 3) s ∧ Fresh s ∧ AtRest s ∧ s.unstarted 0 0 = [] ∧ Oldest s.myCore ⟨1, 0x42, 0, false⟩) ∧
    (let s := core (fun c => { c with banks := c.banks.setFifo 18 [⟨2, 0x43, 0, true⟩] }) queued
     Ready (.recv 0 3) s ∧ Fresh s ∧ Oldest s.myCore ⟨2, 0x43, 0, true⟩) := by
  refine ⟨.recv .., ⟨by unfold Ready; decide +kernel, by unfold Fresh; decide +kernel, by unfold AtRest; decide +kernel, by decide +kernel, .inl ⟨[], by decide +kernel, fun f fs h => ?_⟩⟩,
    by unfold Ready; decide +kernel, by unfold Fresh; decide +kernel, .inr ⟨[], by decide +kernel, fun m ms h => ?_⟩⟩
  · have e : (slot (fun t => { t with msgs := [⟨1, 0x42, 0, false⟩] }) (core (fun c => { c with banks := c.banks.setFifo 18 [⟨2, 0x43, 0, true⟩] }) queued)).myCore.banks.fifoAt 18 =
      [⟨2, 0x43, 0, true⟩] := by decide +kernel
    rw [e] at h; cases h; decide
  · have e : (core (fun c => { c with banks := c.banks.setFifo 18 [⟨2, 0x43, 0, true⟩] }) queued).myCore.task.msgs = [] := by decide +kernel
    rw [e] at h; cases h

/-! ### Vector memory -/

theorem witness_VectorMemory_flies : ∃ ptr e m k, VecWords (.vld 0 3 4 5) 0 ptr false e m k ∧
    (let s := g 4 0x4FFC0 (paged [])
     Ready (.vld 0 3 4 5) s ∧ RingFree s ∧ VecOk (ptr s) false (e s) (m s) ∧ LanesLeave s (ptr s) false (e s) (m s) false) ∧
    (ptr (g 4 0x40002 base)).toNat % 4 ≠ 0 := by
  refine ⟨_, _, _, _, .vld .., ⟨?_, ?_, ?_, ?_, fun j h _ => ⟨.inl ?_, nofun⟩⟩, ?_⟩
  · unfold Ready; decide +kernel
  · unfold RingFree; decide +kernel
  · unfold VecOk; decide +kernel
  · decide
  · exact (by unfold laneVA; decide +kernel : ∀ j, j < 16 →
      (laneVA (((g 4 0x4FFC0 (paged [])).g 4).setWidth 56 + ((g 4 0x4FFC0 (paged [])).g 5).setWidth 56 |>.setWidth 64) false 0 j).toNat < 0xFFFFFFFF800000) j h
  · decide +kernel
/-- A store to a page that is not the core's own leaves it. -/
theorem witness_VectorMemory_flies_store : let s := g 4 0x4FFC0 (paged [])
    VecWords (.vst 0 3 4 5) 0 (fun s => ((s.g 4).setWidth 56 + (s.g 5).setWidth 56 : VA).setWidth 64) false (fun _ _ => 0) (fun _ => 0xFFFF)
      (fun s => .vstore (s.v 3) (((s.g 4).setWidth 56 + (s.g 5).setWidth 56 : VA).setWidth 64) false [] 0xFFFF 0) ∧
    LanesLeave s 0x4FFC0 false (fun _ => 0) 0xFFFF true := by
  refine ⟨.vst .., by decide, fun j h _ => ⟨.inl ?_, fun _ => ⟨fun p pa hp ho => ?_, fun v w hv => ?_⟩⟩⟩
  · exact (by unfold laneVA; decide +kernel : ∀ j, j < 16 → (laneVA 0x4FFC0 false 0 j).toNat < 0xFFFFFFFF800000) j h
  · have hj := (by unfold laneVA laneSize; decide +kernel : ∀ j, j < 16 →
      (g 4 0x4FFC0 (paged [])).place 0 .write (laneVA 0x4FFC0 false 0 j) (laneSize 0x4FFC0 false) = .memory pShared (0x14FFC0 + 4 * j)) j h
    cases hj.symm.trans hp
    exact absurd ho.2.1 (by decide)
  · have hj := (by unfold laneVA laneSize; decide +kernel : ∀ j, j < 16 →
      (g 4 0x4FFC0 (paged [])).place 0 .write (laneVA 0x4FFC0 false 0 j) (laneSize 0x4FFC0 false) = .memory pShared (0x14FFC0 + 4 * j)) j h
    cases hj.symm.trans hv
theorem witness_VectorMemory_scaled : ∃ ptr e m k, VecWords (.vgather 0 3 4 5) 0 ptr true e m k ∧
    (let s := gs [(4, 0x1000000000040000), (5, 0x8000)] (paged [])
     Ready (.vgather 0 3 4 5) s ∧ RingFree s ∧ tagged (ptr s) = some ⟨.fp32, 0, 0x40000⟩ ∧ tagAligned ⟨.fp32, 0, 0x40000⟩ = true ∧
       (m s).getLsbD 15 = true ∧ (∀ k, k < 15 → (m s).getLsbD k = false) ∧ e s 15 = 0) ∧
    tagged (ptr (g 4 0xB000000000000000 base)) = none ∧
    (let s := g 4 0x1000000000000002 base
     tagged (ptr s) = some ⟨.fp32, 0, 2⟩ ∧ tagAligned ⟨.fp32, 0, 2⟩ = false) ∧
    (let s := gs [(4, 0x10FFFFFFFFFFFFFC), (5, 1)] (v 3 (fun _ => 1) base)
     tagged (ptr s) = some ⟨.fp32, 0, 0xFFFFFFFFFFFFFC⟩ ∧ (m s).getLsbD 0 = true ∧ 2 ^ 56 < 0xFFFFFFFFFFFFFC + elemOff .fp32 0 (e s 0) + elemSize .fp32) := by
  refine ⟨_, _, _, _, .vgather .., ⟨?_, ?_, ?_⟩, ?_⟩
  all_goals (try unfold Ready); (try unfold RingFree); decide +kernel
theorem witness_VectorMemory_atOnce : ∃ ptr e m k, VecWords (.vld 0 3 4 5) 0 ptr false e m k ∧
    (let s := g 4 (S0 + 0xFC0) base
     k s = .vload 3 (ptr s) false [] (m s) ∧ Ready (.vld 0 3 4 5) s ∧ RingFree s ∧ s.flightsOf 0 0 = [] ∧ (∀ f ∈ s.flights, f.id < s.next) ∧ VecOk (ptr s) false (e s) (m s) ∧
       ∀ j : Fin 16, (m s).getLsbD j.val = true → LaneRead s (ptr s) false (e s j.val) j.val (0, 0)) := by
  refine ⟨_, _, _, _, .vld .., ⟨?_, ?_, ?_, ?_, ?_, ?_, fun j _ => ⟨4032 + 4 * j.val, ?_, ?_, ?_⟩⟩⟩
  · decide +kernel
  · unfold Ready; decide +kernel
  · unfold RingFree; decide +kernel
  · decide +kernel
  · decide +kernel
  · unfold VecOk; decide +kernel
  · unfold laneVA laneSize; revert j; decide +kernel
  · unfold Landed laneSize; revert j; decide +kernel
  · rw [if_neg (by decide)]; revert j; decide +kernel
theorem witness_VectorMemory_stores : ∃ ptr e m k, VecWords (.vst 0 1 4 5) 0 ptr false e m k ∧
    (let s := g 4 S0 base
     k s = .vstore (s.v 1) (ptr s) false [] (m s) 0 ∧ Ready (.vst 0 1 4 5) s ∧ RingFree s ∧ s.flightsOf 0 0 = [] ∧ VecOk (ptr s) false (e s) (m s) ∧
       ∀ j : Fin 16, (m s).getLsbD j.val = true → LaneWrite s (ptr s) false (e s j.val) j.val ((s.v 1).get j) (4 * j.val, 4, ((s.v 1).get j).setWidth 64, 0xFFFFFFFF) 0) := by
  refine ⟨_, _, _, _, .vst .., ⟨?_, ?_, ?_, ?_, ?_, fun j _ => ⟨?_, ?_, ?_, ?_⟩⟩⟩
  · decide +kernel
  · unfold Ready; decide +kernel
  · unfold RingFree; decide +kernel
  · decide +kernel
  · unfold VecOk; decide +kernel
  · unfold laneVA laneSize; revert j; decide +kernel
  · unfold laneSize; revert j; decide +kernel
  · unfold Landed; revert j; decide +kernel
  · exact ⟨rfl, rfl⟩
/-- A vector access of the acting context in flight on page `va`. -/
def vflying (k : FlightKind) (va : W64) : State := { flying k (va.setWidth 56) 64 0 0 (paged []) with now := 9 }
/-- What `Stopped` says, as a test over the lanes. -/
theorem stopped_of_all {s : State} {n : Nat} {w : Kind} {ptr : W64} {m d : BitVec 16} (h : d &&& m = d)
    (hl : ((lanesOf ptr false [] m).all fun l => match s.laneStop n w l with
      | none => d.getLsbD l.i.val
      | some (.inl t) => !d.getLsbD l.i.val && (w != .read || t.cause != 0x08)
      | some (.inr _) => false) = true) : Stopped s n w ptr m d := by
  refine ⟨h, fun l hm => ?_⟩
  have := List.all_eq_true.1 hl l hm
  cases e : s.laneStop n w l with
  | none => rw [e] at this; rw [if_pos this]
  | some x =>
    rw [e] at this
    cases x with
    | inl t =>
      simp only [Bool.and_eq_true, Bool.not_eq_true', Bool.or_eq_true, bne_iff_ne] at this
      rw [if_neg (by rw [this.1]; exact Bool.false_ne_true)]
      exact ⟨t, rfl, fun hw => this.2.resolve_left fun h => h hw⟩
    | inr _ => exact absurd this Bool.false_ne_true
/-- A load of two lanes, and a store of two; of a load and a store with a poisoned line in lane 1, whose lane 0 is performed. -/
theorem witness_PerformingVectorAccesses :
    (let s := vflying (.vload 3 0x40000 false [] 0x8001) 0x40000
     ∃ f, s.flights = [f] ∧ f.kind = .vload 3 0x40000 false [] 0x8001 ∧ s.flights.find? (fun g => g.id == f.id) = some f ∧ s.before f = [f] ∧ f.stuck = false ∧
       (s.core f.core).asid = f.asid ∧ (s.ctx f.core f.ctx).fault = none ∧
       LanesOn s f.core f.asid .read 0x40000 0x8001 (fun _ => pShared) ∧ Stopped s f.core .read 0x40000 0x8001 0x8001 ∧
       ∀ j : Fin 16, (0x8001 : BitVec 16).getLsbD j.val = true → pShared.cls ≠ .device ∧ NoDirty s f.asid (laneVA 0x40000 false 0 j.val) pShared) ∧
    (let s := vflying (.vstore (Lanes.fill 0) 0x40000 false [] 0x8001 0) 0x40000
     LanesOn s 0 5 .write 0x40000 0x8001 (fun _ => pShared) ∧ Stopped s 0 .write 0x40000 0x8001 0x8001 ∧
       ∀ j : Fin 16, (0x8001 : BitVec 16).getLsbD j.val = true → hasOrder pShared (pShared.pa (laneVA 0x40000 false 0 j.val)) = true) ∧
    (let s := { vflying (.vload 3 0x4007C false [] 0x0003) 0x4007C with poison := [0x140080 / 128] }
     LanesOn s 0 5 .read 0x4007C 0x0001 (fun _ => pShared) ∧ Stopped s 0 .read 0x4007C 0x0003 0x0001 ∧ Stopped s 0 .write 0x4007C 0x0003 0x0001 ∧
       s.lanesStop 0 .read (lanesOf 0x4007C false [] 0x0003) = some (.inl ⟨0x13, 0x40080, 0⟩)) ∧
    (vflying (.vload 3 0x80000 false [] 0x8001) 0x80000).lanesStop 0 .read (lanesOf 0x80000 false [] 0x8001) = some (.inl ⟨0x06, 0x80000, 0⟩) ∧
    (vflying (.vload 3 0x60000 false [] 0x8001) 0x60000).lanesStop 0 .read (lanesOf 0x60000 false [] 0x8001) = some (.inl ⟨0x11, 0x60000, 0⟩) ∧
    (vflying (.vload 3 0xAFFFC false [] 0x0003) 0xAFFFC).lanesStop 0 .read (lanesOf 0xAFFFC false [] 0x0003) = some (.inr (0xB0000, false)) := by
  refine ⟨⟨_, rfl, rfl, by decide +kernel, by decide +kernel, rfl, by decide +kernel, by decide +kernel, ⟨fun j _ => ⟨?_, ?_, ?_, ?_⟩, fun _ _ _ _ _ => rfl⟩,
      stopped_of_all rfl (by decide +kernel), fun j _ => ?_⟩,
    ⟨⟨fun j _ => ⟨?_, ?_, ?_, ?_⟩, fun _ _ _ _ _ => rfl⟩, stopped_of_all rfl (by decide +kernel), fun j _ => ?_⟩,
    ⟨⟨fun j hj => ⟨?_, ?_, ?_, ?_⟩, fun _ _ _ _ _ => rfl⟩, stopped_of_all rfl (by decide +kernel), stopped_of_all rfl (by decide +kernel), by decide +kernel⟩,
    by decide +kernel, by decide +kernel, by decide +kernel⟩
  all_goals first
    | (refine room_of_no_lines ?_ _ _ _; decide +kernel)
    | (try unfold Translates); (try unfold Settled); (try unfold NoDirty); (try unfold laneVA); revert j; decide +kernel

end Sys2Proof.Tests
end

