-- ==== Sys2Proof/Tests/Witness5.lean ====
section
/-! SUPPORT. Witnesses of the hypotheses in the statements about engines, leases, timing faults, vitrine pages and lineage. -/

namespace Sys2Proof.Tests

set_option Elab.async false

open Sys2Proof Sys2Proof.Machine

/-! ### Engines -/

/-- Core 0 holds the lease of its rope since cycle 0; it is free and core 3 waits for it. -/
def leased (s : State) : State := { s with ropes := [(0, { Rope.init with lease := some ⟨0, 0, 0, (0, 0)⟩ })] }
def wanted (s : State) : State := { s with ropes := [(0, { Rope.init with waiting := [(48, 0)] })] }
theorem witness_EngineWordsAndLeases : EngineWords (.mzero 0 .t0 4) 0 .array (fun _ => 0) (fun _ => 0) (·.g 4) ∧
    (let s := me (fun c => { c with cairnpc := 0x8000000000010000, issued := 62 }) base
     Ready (.mzero 0 .t0 4) s ∧ ¬ (s.me.cairnpc.getLsbD 63 = true ∧ 63 ≤ s.me.issued) ∧ s.me.suppress = 0 ∧ RingFree s ∧ (s.coreUnstarted 0).length < 16 ∧ s.flightsOf 0 0 = []) ∧
    (let s := me (fun c => { c with suppress := 1 }) base
     Ready (.mzero 0 .t0 4) s ∧ ¬ (s.me.cairnpc.getLsbD 63 = true ∧ 63 ≤ s.me.issued) ∧ 0 < s.me.suppress) ∧
    (let s := me (fun c => { c with cairnpc := 0x8000000000010000, issued := 63 }) base
     Ready (.mzero 0 .t0 4) s ∧ s.me.cairnpc.getLsbD 63 = true ∧ 63 ≤ s.me.issued) := by
  refine ⟨.mzero .., ?_⟩; unfold Ready RingFree; decide +kernel
theorem witness_EngineWordsAndLeases_lease : Ready (.lease 0) (leased base) ∧ (leased base).holdsLease 0 = true ∧ Ready (.leaseb 0 4) (leased base) ∧ Ready (.leasend 0) (leased base) ∧
    (leased base).cmds = [] ∧ ((leased base).rope 0).lease = some ⟨0, 0, 0, (0, 0)⟩ ∧ base.holdsLease 0 = false ∧ Ready (.leasend 0) base ∧
    Ready (.leaseq 0 3) base ∧ Ready (.mdim 0 4) (g 4 0x1FFF7F7F base) ∧ (g 4 0x1FFF7F7F base).g 4 &&& 0xFFFFFFFFE0008080 = 0 ∧ (g 4 0x80 base).g 4 &&& 0xFFFFFFFFE0008080 ≠ 0 ∧
    Ready (.mseq 0 4) (g 4 0x024800 base) ∧ ((g 4 0x024800 base).g 4).toNat / 2 ^ 24 = 0 ∧ 0x48 * 2 ≤ 144 ∧ ¬ (1 + 0x48 * 2 ≤ 144) ∧
    ((leased base).rope 0).lease ≠ none := by unfold Ready; decide +kernel
theorem witness_EngineWordsAndLeases_grant : ((wanted base).rope 0).lease = none ∧ Wins ((wanted base).rope 0) (wanted base).now 3 ∧
    max ((wanted base).rope 0).arrayBusy ((wanted base).rope 0).ladderBusy ≤ (wanted base).now ∧ (∀ w ∈ ((wanted base).rope 0).waiting, w.1 / 128 = 0) ∧
    (let s : State := { base with ropes := [(0, { Rope.init with waiting := [(48, 0)], chosen := some 3, arrayBusy := 1 })] }
     (s.rope 0).lease = none ∧ s.now < max (s.rope 0).arrayBusy (s.rope 0).ladderBusy ∧ Wins (s.rope 0) s.now 3) := by
  refine ⟨by decide +kernel, .inr ⟨nofun, 3, by decide, ⟨⟨(48, 0), by decide +kernel⟩, by decide +kernel⟩, ?_⟩, by decide +kernel, by decide +kernel, by decide +kernel,
    by decide +kernel, .inl ⟨by decide +kernel, (48, 0), by decide +kernel⟩⟩
  rintro i hi m ⟨w, hw, rfl, -⟩
  obtain rfl : w = (48, 0) := List.mem_singleton.1 (show w ∈ [(48, 0)] from hw)
  exact (by decide : ∀ i, i < 3 → 48 / 16 % 8 ≠ (7 % 8 + 1 + i) % 8) i hi
/-- A command of context 0 of core 0 that is due now. -/
def cmd (i : Instr) (a b : W64) : Cmd :=
  { id := 3, core := 0, ctx := 0, bind := 1, instr := i, a, b, start := 100, issued := 0, asid := 5, mshape := 0x007F7F7F, seq := 0, word := wordOf i, phase := .waiting,
    floors := [], writes := [], comp := none, claim := none, poison := false, recWords := [], src := [], chain := [], fedBy := 0 }
def due (c : Cmd) : State := { base with cmds := [c], now := 100, next := 4 }
theorem live_of {s : State} {c : Cmd} (h : (s.core c.core).on ≠ none ∧ (s.core c.core).task.bind = c.bind ∧ (s.core c.core).failing = none ∧ (s.core c.core).stopped = none ∧
    (s.ctx c.core c.ctx).fault = none ∧ (s.ctx c.core c.ctx).park = .no) : CmdLive s c :=
  ⟨h.1, h.2.1, h.2.2.1, h.2.2.2.1, h.2.2.2.2.1, fun _ _ => by rw [h.2.2.2.2.2]; nofun⟩
/-- A command without the lease; one that starts 7 cycles after its issue, with a cairn and without. -/
theorem witness_TimingFaultsAndRetries :
    (let c := cmd (.mzero 0 .t0 4) 0 0
     Waiting (due c) c ∧ CmdLive (due c) c ∧ Leased c.instr ∧ (due c).holdsLease c.core = false) ∧
    (let c := { cmd (.copy 0 3 4 5) 0 0 with issued := 93 }
     let s := me (fun x => { x with cairnpc := 0x8200000000010002, image := some ⟨x.g, x.v, x.p, x.mshape⟩ }) (core (fun x => { x with check := 0x30 }) (due c))
     Waiting s c ∧ CmdLive s c ∧ (∃ st u a b off, EngineWords c.instr st u a b off) ∧ ¬ Leased c.instr ∧ TooEarly s c ∧ (s.ctx 0 0).cairnV = true ∧
       (s.ctx 0 0).image.isSome = true ∧ (s.ctx 0 0).rcnt < (s.core 0).check.toNat / 2 ^ 4 % 4 ∧ s.running 0 0 = [] ∧ (base.ctx 0 0).cairnV = false ∧ (base.ctx 0 0).hm = false) := by
  refine ⟨⟨?_, live_of ?_, ⟨_, _, _, _, _, .mzero .., by decide⟩, ?_⟩, ?_, live_of ?_, ⟨_, _, _, _, _, .copy ..⟩, ?_, .inl ?_, ?_⟩
  case refine_6 => rintro ⟨_, _, _, _, _, h, hu⟩; cases h; exact hu rfl
  all_goals (try unfold Waiting); decide +kernel
theorem witness_TimingFaultsAndRetries_resume :
    (let s := me (fun c => { c with park := .retry 16 false }) { base with now := 16 }
     (s.ctx 0 0).park = .retry 16 false ∧ 16 ≤ s.now ∧ (s.ctx 0 0).cairnpc.getLsbD 62 = false) ∧
    (let s := me (fun c => { c with park := .retry 16 false, cairnpc := 0xC000000000010000 }) { base with now := 16 }
     (s.ctx 0 0).cairnpc.getLsbD 62 = true ∧ s.holdsLease 0 = false) := by decide +kernel
/-- A completion that writes its last bytes. -/
theorem witness_ArrayCommandsRun_completion :
    (let c := { cmd (.mread 0 .t0 3 4 5) 0 0 with phase := .running, writes := [.scratch 0 4092 [1, 2, 3, 4] (some 9) true] }
     let s := due c
     s.cmds.find? (fun d => d.id == c.id && d.core == c.core && d.phase == .running) = some c ∧ (s.core 0).on ≠ none ∧ (s.core 0).asid = c.asid ∧
       4092 + 4 ≤ (s.core 0).banks.slen ∧ (s.ctx 0 0).park = .no ∧ c.poison = false ∧ c.comp = none) := by decide +kernel

/-! ### Vitrine pages -/

/-- Page 6 with a record; page 12 too. -/
def vitrine (r : VRec) : State := { paged [] with vit := [(5 * 2 ^ 40 + 6, r)] }
def openRec (n : Nat) : VRec := ⟨.open', n, n, [], some ⟨0, 0, 1⟩, []⟩
def page6 (s : State) : State := gs [(4, 0x6FFFF)] s
theorem vitOk {w : Bool} {s : State} (h : (vitPage s 4).toNat < 0xFFFFFFFF800000 ∧ s.xlate s.asid (vitPage s 4) = some pVit ∧ pVit.malformed = false ∧
    s.physOk (pVit.pa (vitPage s 4)) = true ∧ (if w then pVit.wr else pVit.rd) = true ∧ pVit.cls = .vitrine ∧
    s.noRoute (pVit.pa (vitPage s 4)) = false) : VitOk s 4 w pVit := ⟨.inl h.1, h.2⟩
theorem witness_VitrinePages_claim : (let s := page6 (paged [])
     Ready (.vclaim 0 4) s ∧ Fresh s ∧ VitOk s 4 true pVit ∧ s.vrec s.asid (vitPage s 4) = none ∧ s.unstarted 0 0 = []) ∧
    (let s := page6 (vitrine (openRec 0))
     VitOk s 4 true pVit ∧ s.vrec s.asid (vitPage s 4) = some (openRec 0) ∧ Ready (.vtail 0 3 4) s ∧ VitOk s 4 false pVit) ∧
    (let s := g 4 0x40000 (paged [])
     VitWords (.seal 0 4) 4 true ∧ Ready (.seal 0 4) s ∧ Fresh s ∧ s.xlate s.asid (vitPage s 4) = some pShared ∧ pShared.cls ≠ .vitrine) := by
  refine ⟨⟨?_, ?_, vitOk ?_, ?_⟩, ⟨vitOk ?_, ?_, ?_, vitOk ?_⟩, .seal .., ?_⟩
  all_goals (try unfold Ready); (try unfold Fresh); decide +kernel
/-- `APND` into the last word of the page and beyond it; `TAILSET` to the tail and beyond it. -/
theorem witness_VitrinePages_write :
    (let s := page6 (vitrine (openRec 65528))
     Ready (.apnd 0 3 4 5) s ∧ VitOk s 4 true pVit ∧ s.vrec s.asid (vitPage s 4) = some (openRec 65528) ∧ (openRec 65528).state = .open' ∧ (65528 + 7) / 8 * 8 + 8 ≤ 65536 ∧
       s.poisoned (pVit.pa (vitPage s 4) + 65528) = false ∧ ({ s with poison := [0x16FFF8 / 128] } : State).poisoned (pVit.pa (vitPage s 4) + 65528) = true) ∧
    65536 < (65529 + 7) / 8 * 8 + 8 ∧
    (let s := g 5 64 (page6 (vitrine (openRec 64)))
     Ready (.tailset 0 4 5) s ∧ VitOk s 4 true pVit ∧ s.vrec s.asid (vitPage s 4) = some (openRec 64) ∧ (s.g 5).toNat ≤ 64 ∧ (s.g 5).toNat % 8 = 0 ∧
       (openRec 64).holder = some ⟨s.act.1, s.act.2, s.myCore.task.bind⟩) ∧
    ¬ ((g 5 72 base).g 5).toNat ≤ 64 := by
  refine ⟨⟨?_, vitOk ?_, ?_⟩, ?_, ⟨?_, vitOk ?_, ?_⟩, ?_⟩
  all_goals (try unfold Ready); decide +kernel
theorem witness_VitrinePages_end :
    (let s := page6 (vitrine (openRec 8))
     Ready (.seal 0 4) s ∧ VitOk s 4 true pVit ∧ s.vrec s.asid (vitPage s 4) = some (openRec 8) ∧ NoAppend s ∧ (openRec 8).claims = [] ∧ Ready (.vfree 0 4) s ∧ s.me.answer = none ∧
       (openRec 8).state ≠ .recalling ∧ (openRec 8).pres = []) ∧
    (let r := { openRec 8 with state := .sealed, pres := [1] }
     let s := page6 (vitrine r)
     VitOk s 4 true pVit ∧ s.vrec s.asid (vitPage s 4) = some r ∧ r.pres ≠ []) ∧
    (let r := { openRec 8 with state := .recalling, pres := [1, 2] }
     let s := me (fun c => { c with answer := some (0, 0, 0) }) (page6 (vitrine r))
     VitOk s 4 true pVit ∧ s.vrec s.asid (vitPage s 4) = some r ∧ Ready (.vfree 0 4) s ∧ s.me.answer ≠ none ∧ s.vrec 5 (BitVec.ofNat 56 (6 * 2 ^ 16)) = some r ∧ (∃ k ∈ r.pres, k ≠ 1)) ∧
    (let r := { openRec 16 with ptail := 8, claims := [⟨3, 8, 16, false, 0x160000⟩] }
     let s := vitrine r
     s.vrec 5 (BitVec.ofNat 56 (6 * 2 ^ 16)) = some r ∧ (r.claims.find? fun c => c.id == 3 && !c.done) = some ⟨3, 8, 16, false, 0x160000⟩) ∧
    (∀ c ∈ (vitrine (openRec 8)).cmds, c.claim ≠ some (6, 0)) ∧ (vitrine (openRec 8)).vrec 5 (BitVec.ofNat 56 (6 * 2 ^ 16)) = some (openRec 8) := by
  refine ⟨⟨?_, vitOk ?_, ?_⟩, ⟨vitOk ?_, ?_⟩, ⟨vitOk ?_, ?_⟩, ?_⟩
  all_goals (try unfold Ready); (try unfold NoAppend); decide +kernel

/-! ### Lineage -/

/-- The record of a live root of four FP32 elements at the front of page 6, sealed, as its words; a record table of 16 with it at handle 1 and further words. -/
def rootWords (bits : W64) : List W64 := [0, 0x1000000000 ||| bits, 0x100000004, 0x100000001, 0x60000, 16, 0, 0]
def lineage (bits : W64) (ws : List (Nat × W64)) : State :=
  { paged ((List.range 8).zipWith (fun k w => (0x140040 + 8 * k, w)) (rootWords bits) ++ ws) with
    vit := [(5 * 2 ^ 40 + 6, { openRec 64 with state := .sealed }), (5 * 2 ^ 40 + 12, openRec 0)] }
/-- The descriptor of a root, and of a child that appends four elements, in scratch. -/
def rootDesc : State → State := scr (leBytes (rootWords 0))
def childDesc : State → State := scr (leBytes [0, 0x2000000, 0, 0, 0x60010, 16, 4, 0])
theorem handle_of {s : State} {x : W64} {pa : Nat} (h : 0 < x.toNat % 2 ^ 32 ∧ x.toNat % 2 ^ 32 < 2 ^ 24 ∧ x.toNat % 2 ^ 32 < s.nrec s.asid ∧
    s.recPA s.asid (x.toNat % 2 ^ 32) = some pa) : Handle s x pa := h
/-- A descriptor at the front of scratch. -/
def descWords (s : State) (k : Nat) : W64 := if k < 8 then BitVec.ofNat 64 (cellsLE s.myCore.banks.bytes (0 + 8 * k) 8) else 0
theorem words8 {s : State} {va : VA} (h : s.place s.act.1 .read va 64 = .scratch 0 ∧ s.ownNetBy s.act.1 s.act.2 0 64 ≤ s.now) :
    Words8 s va (descWords s) := ⟨0, h.1, h.2, fun _ => rfl⟩
theorem witness_Lineage_lroot : let s := rootDesc (gs [(3, 2), (4, S0)] (lineage 0x81 []))
    Ready (.lroot 0 3 4) s ∧ ((s.g 4).setWidth 56 : VA).toNat % 64 = 0 ∧ Handle s (s.g 3) 0x140080 ∧ s.flightsOf 0 0 = [] ∧ Words8 s ((s.g 4).setWidth 56) (descWords s) ∧
    descriptorBad (descWords s) = false ∧ (descWords s 1).extractLsb' 0 8 = (0 : BitVec 8) ∧
    (let n := { Node.ofWords (descWords s) with parent := 0, kids := 0, sealed := false, depth := 0, state := 1 }
     n.enc = 0 ∧ n.rank = 0 ∧ n.count = 0 ∧ n.fmt = 1 ∧ n.blog = 0 ∧ n.dimsBad = false ∧ (∀ p ∈ pagesOf (BitVec.ofNat 56 n.dbase) n.dsize, s.walk s.asid p.1 ≠ none) ∧
       s.deltaCode s.asid n = none) ∧
    (s.phys64 (0x140080 + 8)).extractLsb' 0 2 = (0 : BitVec 2) ∧ (s.phys64 (0x140040 + 8)).extractLsb' 0 2 ≠ (0 : BitVec 2) ∧
    Handle s 1 0x140040 := by
  refine ⟨?_, ?_, handle_of ?_, ?_, words8 ?_, ?_, ?_, ?_, ?_, ?_, handle_of ?_⟩
  all_goals (try unfold Ready); decide +kernel
theorem witness_Lineage_fork : let s := childDesc (gs [(3, 2), (4, 1), (5, S0)] (lineage 0x81 []))
    Ready (.fork 0 3 4 5) s ∧ ((s.g 5).setWidth 56 : VA).toNat % 64 = 0 ∧ Handle s (s.g 3) 0x140080 ∧ Handle s (s.g 4) 0x140040 ∧ Words8 s ((s.g 5).setWidth 56) (descWords s) ∧
    forkBad (descWords s) = false ∧
    (let np := s.node s.asid 1
     let n := childOf 1 np (descWords s)
     let s1 := s.setNode s.asid 1 { np with sealed := true, kids := np.kids + 1 }
     (∀ p ∈ pagesOf (BitVec.ofNat 56 n.dbase) n.dsize, s.walk s.asid p.1 ≠ none) ∧ np.state = 1 ∧ np.sealed = true ∧ s.deltaSealed s.asid (BitVec.ofNat 56 np.dbase) np.dsize = true ∧
       np.depth < 7 ∧ s.deltaCode s.asid n = none ∧ s.indexStop s.asid n = none ∧ s.indexBad s.asid n = false ∧ s1.recPA s.asid 2 = some 0x140080) ∧ (s.phys64 (0x140080 + 8)).extractLsb' 0 2 = (0 : BitVec 2) ∧
    7 ≤ ((lineage 0xF1 []).node 5 1).depth ∧ ((lineage 0xF1 []).node 5 1).state = 1 := by
  refine ⟨?_, ?_, handle_of ?_, handle_of ?_, words8 ?_, ?_, ?_⟩
  all_goals (try unfold Ready); decide +kernel
theorem witness_Lineage_read : let s := gs [(3, 0xC0000), (4, 1), (5, 3)] (lineage 0x81 [])
    Ready (.ldrop 0 4) s ∧ Handle s (s.g 4) 0x140040 ∧ (s.node 5 1).state = 1 ∧ (s.node 5 1).kids = 0 ∧ (s.node 5 1).parent = 0 ∧ (s.node 5 2).state ≠ 1 ∧
    ((paged [(0x140040, 0x100000000), (0x140048, 1)]).node 5 1).kids ≠ 0 ∧ Ready (.linfo 0 3 4 5) s ∧ Ready (.ldl 0 3 4 5) s ∧ (s.g 5).toNat < (s.node 5 1).elems ∧
    ¬ 4 < (s.node 5 1).elems ∧ s.chainStop false 5 (s.chain 5 1) = none ∧ s.provOld = [] ∧ s.chainGap (s.node 5) 5 8 1 = none ∧ sliceBlks 3 1 (s.resolve 5 (s.chain 5 1)) ≠ [] := by
  refine ⟨?_, handle_of ?_, ?_⟩
  all_goals (try unfold Ready); decide +kernel
/-- A root, its child, and the child's child, of depths 0, 1 and `d`, whose two deltas change one element each; page 12 is open and empty. -/
def tree (d : W64) : State :=
  let rec' := fun (h : Nat) (ws : List W64) => (List.range 8).zipWith (fun k w => (0x140000 + 64 * h + 8 * k, w)) ws
  { paged (rec' 1 [0x100000000, 0x1000000081, 0x100000004, 0x100000001, 0x60000, 16, 0, 0] ++
      rec' 2 [0x100000001, 0x1001000091, 0x100000004, 0x100000001, 0x60010, 32, 1, 0] ++
      rec' 3 [2, 0x1001000081 + 16 * d, 0x100000004, 0x100000001, 0x60030, 32, 1, 0]) with
    vit := [(5 * 2 ^ 40 + 6, { openRec 128 with state := .sealed }), (5 * 2 ^ 40 + 12, openRec 0)] }
theorem witness_Lineage_flatten : let s := gs [(3, 0xC0000), (4, 2)] (tree 2)
    let n := s.node s.asid 2
    let dl := s.newDelta s.asid (s.chain 5 2) none n
    Ready (.flatten 0 3 4) s ∧ ((s.g 3).setWidth 56 : VA).toNat % 65536 = 0 ∧ Handle s (s.g 4) 0x140080 ∧ s.descendants 5 2 (s.nrec 5) = [3] ∧ n.state = 1 ∧
    s.chainGap (s.node s.asid) s.asid 8 2 = none ∧ n.depth ≤ (s.node 5 3).depth + 0 ∧ (s.node 5 3).depth + 0 ≤ n.depth + 7 ∧ s.tableGap 5 = none ∧
    s.chainStop false 5 (s.chain 5 2) = none ∧ dl.bytes ≠ [] ∧ dl.parent = 0 ∧
    ((runPages ((s.g 3).setWidth 56) dl.bytes).map fun p => p.1.1) = [0xC0000] ∧ untranslated 0xC0000 = false ∧ s.walk 5 0xC0000 = some pVit2 ∧ pVit2.malformed = false ∧
    s.physOk (pVit2.pa 0xC0000) = true ∧ pVit2.cls = .vitrine ∧ pVit2.wr = true ∧ s.vrec 5 0xC0000 = some (openRec 0) ∧
    (s.claimRun 5 (runPages ((s.g 3).setWidth 56) dl.bytes)).2 = none ∧ (s.chain 5 2).map (·.1) ++ [3] = [1, 2, 3] ∧ ∀ x ∈ (s.chain 5 2).head?, x.2.parent = 0 := by
  refine ⟨?_, ?_, handle_of ?_, ?_⟩
  all_goals (try unfold Ready); decide +kernel
/-- A rebase of the child's child onto the root, and a flattening whose descendant has a depth that does not fit (no run of the machine leads there). -/
theorem witness_Lineage_rebase :
    (let s := gs [(3, 0xC0000), (4, 3), (5, 1)] (tree 2)
     let n := s.node s.asid 3
     let dl := s.newDelta s.asid (s.chain 5 3) (some 1) n
     Ready (.rebase 0 3 4 5) s ∧ Handle s (s.g 4) 0x1400C0 ∧ Handle s (s.g 5) 0x140040 ∧ n.state = 1 ∧ 1 ≠ n.parent ∧ 1 ∈ (s.chain 5 3).map (·.1) ∧
       s.descendants 5 3 (s.nrec 5) = [] ∧ s.tableGap 5 = none ∧ s.chainStop false 5 (s.chain 5 3) = none ∧ (s.claimRun 5 (runPages ((s.g 3).setWidth 56) dl.bytes)).2 = none) ∧
    (let s := gs [(3, 0xC0000), (4, 2)] (tree 0)
     s.descendants 5 2 (s.nrec 5) = [3] ∧ (s.node 5 3).depth + 0 < (s.node 5 2).depth) := by
  refine ⟨⟨?_, handle_of ?_, handle_of ?_, ?_⟩, ?_⟩
  all_goals (try unfold Ready); decide +kernel
theorem witness_Lineage_faults : ∃ hs, LineageWords (.linfo 0 3 4 5) hs ∧ hs (g 4 16 (paged [])) = [16] ∧ (paged []).nrec 5 = 16 ∧ Ready (.linfo 0 3 4 5) (g 4 16 (paged [])) ∧
    hs (g 4 0x1000000 (paged [])) = [0x1000000] := ⟨_, .linfo .., by unfold Ready; decide +kernel⟩
/-- A reclamation ring of 16 entries at 0x48000: none, empty, full. -/
theorem witness_Lineage_reclaim : ({ base with cmds := [{ cmd (.copyl 0 3 4 5) 0 0 with phase := .running }] } : State).resolving 5 0x60000 16 100 = true ∧ base.resolving 5 0 0 0 = false ∧
    (paged []).recPA 5 0 = some 0x140000 ∧ (paged []).phys64 0x140000 = 0 ∧
    (let s := paged [(0x140000, 0x48000), (0x140008, 4), (0x148000, 15)]
     s.recPA 5 0 = some 0x140000 ∧ s.phys64 0x140000 ≠ 0 ∧ (s.phys64 0x140008).toNat % 16 = 4 ∧ s.devGet 5 0x48000 8 = some 15 ∧ s.devGet 5 0x48008 8 = some 0 ∧
       ((((((s.devSeen 5 0x48000).devPut 5 0x48220 8 3).bind fun t => t.devPut 5 0x48228 8 0).bind fun t => t.devPut 5 0x48230 8 0).bind fun t => t.devPut 5 0x48238 8 15).bind fun t => t.devPut 5 0x48000 8 16).isSome = true) ∧
    (let s := paged [(0x140000, 0x48000), (0x140008, 4), (0x148000, 16)]
     s.devGet 5 0x48000 8 = some 16 ∧ s.devGet 5 0x48008 8 = some 0 ∧ ((s.devSeen 5 0x48000).devGet 5 0x48010 8) = some 0 ∧ ((s.devSeen 5 0x48000).devPut 5 0x48010 8 1).isSome = true) := by decide +kernel

/-! ### What engine commands do -/

/-- The command with a context that runs nothing else, at its start in time and in order. -/
theorem in_time {s : State} {c : Cmd} (h : s.cmds = [c] ∧ c.phase = .waiting ∧ c.issued + 8 ≤ c.start ∧ (s.core c.core).on ≠ none ∧
    (s.core c.core).task.bind = c.bind ∧ (s.core c.core).failing = none ∧ (s.core c.core).stopped = none ∧ (s.ctx c.core c.ctx).fault = none ∧
    (s.ctx c.core c.ctx).park = .no) : InTime s c := by
  obtain ⟨h1, h2, h3, h4⟩ := h
  refine ⟨by simp [Waiting, h1, h2], live_of h4, ?_⟩
  rintro (h | ⟨d, hd, -, -, -, h⟩)
  · omega
  · rw [h1, List.mem_singleton] at hd; subst hd; omega
/-- A command of shape 1 × 1 × 1 that starts now, on a state. -/
def job (i : Instr) (a b : W64) : Cmd := { cmd i a b with mshape := 0 }
def jobOn (s : State) (c : Cmd) : State := leased { s with cmds := [c], now := 100, next := 4 }
/-- Descriptors of offset 0 of scratch: of BF16 and of FP32. -/
abbrev dBf : W64 := 0x2000000000000000
abbrev dF32 : W64 := 0x1000000000000000
theorem witness_ArrayCommandsRun :
    (let c := job (.mzero 0 .t0 4) 0 0
     let s := jobOn base c
     ArrayReady s c ∧ (s.tile 0 .t0).settled ≤ s.now) ∧
    (let c := job (.mprog 0 3 4) 0x1000 0
     ArrayReady (jobOn base c) c ∧ microBad (microOps c.a) = false) ∧
    (let c := job (.mmul 0 .t0 3 4 5) dBf (dBf + 256)
     let s := jobOn base c
     ArrayReady s c ∧ s.opndStops c.core c.asid [opnd c.a (1 * rowBytesOf (descFmt c.a) (descBlog c.a) 1) true (arrayFmt (descFmt c.a)),
       opnd c.b (1 * rowBytesOf (descFmt c.b) (descBlog c.b) 1) true (arrayFmt (descFmt c.b))] (8192 < feedOf 1 (descFmt c.a) (descFmt c.b)) = none) ∧
    (let c := job (.mrun 0 .t1 3 4 5) dBf (dBf + 256)
     let s := core (fun x => { x with active := { x.active with prog := [0x1000] } }) (jobOn base c)
     ArrayReady s c ∧ s.opndStops c.core c.asid [opnd c.a (1 * rowBytesOf (descFmt c.a) (descBlog c.a) 1) true (arrayFmt (descFmt c.a)),
       opnd c.b (1 * rowBytesOf (descFmt c.b) (descBlog c.b) 1) true (arrayFmt (descFmt c.b))] (8192 < 4 * 1 || (s.core c.core).active.prog.isEmpty) = none) ∧
    (let c := job (.mread 0 .t0 3 4 5) dF32 3
     let s := jobOn base c
     ArrayReady s c ∧ (s.tile 0 .t0).settled ≤ s.now ∧ s.opndStops c.core c.asid [opnd c.a (1 * rowBytesOf (descFmt c.a) (descBlog c.a) 3) false (converts c.a)]
       (c.b.extractLsb' 2 62 ≠ 0 || (c.b.getLsbD 1 && !plainF32 c.a)) = none) ∧
    (let c := job (.mload 0 .t1 3 4 5) dBf 0
     let s := jobOn base c
     ArrayReady s c ∧ (s.tile 0 .t1).settled ≤ s.now ∧ s.opndStops c.core c.asid [opnd c.a (1 * rowBytesOf (descFmt c.a) (descBlog c.a) 1) true (converts c.a)]
       (c.b.extractLsb' 2 62 ≠ 0 || c.b.getLsbD 0 || (c.b.getLsbD 1 && !plainF32 c.a)) = none) ∧
    (let c := job (.mcomb 0 .t0 3 4) dF32 0
     let s := jobOn base c
     ArrayReady s c ∧ s.opndStops c.core c.asid [opnd c.a (1 * rowBytesOf (descFmt c.a) (descBlog c.a) 3) true (plainF32 c.a)] false = none) := by
  refine ⟨⟨⟨in_time ?_, ?_⟩, ?_⟩, ⟨⟨in_time ?_, ?_⟩, ?_⟩, ⟨⟨in_time ?_, ?_⟩, ?_⟩, ⟨⟨in_time ?_, ?_⟩, ?_⟩, ⟨⟨in_time ?_, ?_⟩, ?_⟩,
    ⟨⟨in_time ?_, ?_⟩, ?_⟩, ⟨⟨in_time ?_, ?_⟩, ?_⟩⟩
  all_goals decide +kernel
/-- An `MMAC` whose node is a live low-rank one of shape 1 × 1 and rank 1, with factors at offset 256. -/
theorem witness_ArrayCommandsRun_mmac :
    let c := job (.mmac 0 .t0 3 4 5) dBf (0x100 * 2 ^ 24 + 2)
    let s := jobOn (paged [(0x140088, 0x11007000001), (0x140090, 0x100000001)]) c
    let nd := s.seenNode 0 c.asid 2
    ArrayReady s c ∧ s.opndStops c.core c.asid [opnd c.a (1 * rowBytesOf (descFmt c.a) (descBlog c.a) 1) true (arrayFmt (descFmt c.a))] false = none ∧
    c.b.toNat / 2 ^ 24 % 2 ^ 19 = 256 ∧ c.b.toNat % 2 ^ 24 = 2 ∧ c.b.toNat / 2 ^ 45 % 8 = 0 ∧ c.b.toNat / 2 ^ 43 % 4 = 0 ∧ s.sameSpace 0 c.asid = true ∧
    s.handleOk c.asid 2 = true ∧ nd.live = true ∧ nd.enc = 3 ∧ nd.rows = 1 ∧ nd.cols = 1 ∧ nd.rank = 1 ∧ s.inScratch 0 256 18 = true ∧
    s.readStops [s.opndRange c.core (opnd c.a (1 * rowBytesOf (descFmt c.a) (descBlog c.a) 1) true (arrayFmt (descFmt c.a))), (0, 256, 18, 0)] = none := by
  refine ⟨⟨in_time ?_, ?_⟩, ?_⟩
  all_goals decide +kernel
/-- A ladder of 16 × 16 values whose first rung is occupied. -/
def rungs : Ladder := ⟨16, 16, 0, 0, 0, List.replicate 16 0, [(0, List.replicate 256 0)], 1, 1⟩
def onLadder (c : Cmd) : State := core (fun x => { x with active := { x.active with ladder := some rungs } }) (jobOn base c)
theorem witness_ArrayCommandsRun_ladder :
    (let c := job (.lcfg 0 3 4) 0 0
     let s := jobOn base c
     LadderReady s c ∧ s.opndStops c.core c.asid [opnd c.a 80 true (descFmt c.a = some .raw)]
       (BitVec.ofNat 64 (leOf ((opndData s c.core c.a 80).take 8)) &&& 0xFFFFFFFFFFFFFC88 ≠ 0 || 262144 < s.ladderUsed c.core + 16 * 16 * 16) = none) ∧
    (let c := job (.lwgt 0 3 4) dF32 0
     let s := onLadder c
     LadderReady s c ∧ s.ladder c.core = some rungs ∧ s.opndStops c.core c.asid [opnd c.a 64 true (plainF32 c.a)] false = none) ∧
    (let c := job (.lstep 0 .scr 3 4) dF32 0
     let s := onLadder c
     LadderReady s c ∧ s.opndStops c.core c.asid [opnd c.a (16 * rowBytes .fp32 0 16) true (plainF32 c.a)] false = none ∧
       (s.tile 0 .t0).settled ≤ s.now ∧ (s.tile 0 .t1).settled ≤ s.now) ∧
    (let c := job (.lread 0 3 4) dF32 0
     let s := onLadder c
     LadderReady s c ∧ s.opndStops c.core c.asid [opnd c.a (16 * rowBytes .fp32 0 16) false (plainF32 c.a)] false = none) ∧
    (let c := job (.lrung 0 3 4 5) dF32 15
     let s := onLadder c
     LadderReady s c ∧ s.opndStops c.core c.asid [opnd c.a (16 * rowBytes .fp32 0 16) false (plainF32 c.a)] (c.b.extractLsb' 4 60 ≠ 0) = none) ∧
    (let c := job (.lclr 0 4) 0 0
     LadderReady (jobOn base c) c) ∧
    rungs.occ.getLsbD 0 = true ∧ rungs.occ.getLsbD 1 = false := by
  refine ⟨⟨⟨in_time ?_, ?_⟩, ?_⟩, ⟨⟨in_time ?_, ?_⟩, ?_⟩, ⟨⟨in_time ?_, ?_⟩, ?_⟩, ⟨⟨in_time ?_, ?_⟩, ?_⟩, ⟨⟨in_time ?_, ?_⟩, ?_⟩,
    ⟨in_time ?_, ?_⟩, ?_⟩
  all_goals decide +kernel
/-- A record of one row of four FP32 elements in memory, for a copy in and a copy out, and for an append from scratch. -/
def copyRec (w : List W64) (s : State) : State := scr (leBytes w) s
theorem witness_ArrayCommandsRun_copy :
    (let c := job (.copy 0 3 4 5) (dF32 + 256) 0
     let s := jobOn (copyRec [0x1000000000040000, 4] (paged [])) c
     let r := s.withRecord c
     let o := scratchOpnd r c.a false
     CopyReady s c ∧ s.copyFirst c (some c.a) = none ∧ memFirst r = none ∧ s.descIn c.core c.asid o = true ∧ r.dir = 0 ∧
       (s.recordStop r || s.descBad c.core o || r.scr ≠ 0 || rawMismatch c.a r.mem || strideBad r) = false ∧
       s.rangeStops true [s.opndRange c.core (recordOpnd c)] = none ∧
       s.rowsStop r .read (memRowBytes (memFmt r) (descBlog r.mem) r.elems) = none ∧ s.compStop r = none) ∧
    (let c := job (.copy 0 3 4 5) (dF32 + 256) 0
     let s := jobOn (copyRec [0x1000000000040000, 0x4000000000000004] (paged [])) c
     let r := s.withRecord c
     let o := scratchOpnd r c.a true
     CopyReady s c ∧ r.dir = 1 ∧ s.descIn c.core c.asid o = true ∧
       (s.recordStop r || s.descBad c.core o || r.scr ≠ 0 || rawMismatch c.a r.mem || strideBad r) = false ∧
       s.rangeStops true [s.opndRange c.core (recordOpnd c), s.opndRange c.core o] = none ∧
       s.rowsStop r .write (memRowBytes (memFmt r) (descBlog r.mem) r.elems) = none ∧ s.compStop r = none) := by
  refine ⟨⟨⟨in_time ?_, ?_⟩, ?_⟩, ⟨⟨in_time ?_, ?_⟩, ?_⟩⟩
  all_goals decide +kernel
theorem witness_ArrayCommandsRun_append :
    (let c := job (.copyApnd 0 3 4 5) 0x1000000000060000 0
     let s := jobOn (copyRec [0x1000000000040000, 4] (vitrine (openRec 0))) c
     let r := s.withRecord c
     CopyReady s c ∧ s.copyFirst c none = none ∧ r.dir = 0 ∧ memFirst r = none ∧ (s.recordStop r || r.scr ≠ 0 || rawMismatch c.a r.mem || strideBad r) = false ∧
       s.rangeStops true [s.opndRange c.core (recordOpnd c)] = none ∧ s.rowsStop r .read (memRowBytes (memFmt r) (descBlog r.mem) r.elems) = none ∧
       s.copyStop .vitWrite c.asid c.pageVA 1 = none ∧ s.compStop r = none ∧ s.vrec c.asid c.pageVA = some (openRec 0) ∧ s.entry c.asid c.pageVA = some pVit ∧
       ∃ x, (openRec 0).claim c.id (r.rows * rowBytes .fp32 0 r.elems) 16 (pVit.pa c.pageVA) = .inr x) ∧
    (let c := job (.copyApnd 0 3 4 5) 0x1000000000060000 0
     let s := jobOn (copyRec [0, 0x4000000000000004, 0, 0, dF32 + 256] (vitrine (openRec 0))) c
     let r := s.withRecord c
     let src := scratchOpnd r r.scr true
     CopyReady s c ∧ r.dir = 1 ∧ tagBad r.scr = false ∧ descOff r.scr % 16 = 0 ∧ s.descIn c.core c.asid src = true ∧
       (s.recordStop r || s.descBad c.core src || rawMismatch c.a r.scr) = false ∧
       s.rangeStops true [s.opndRange c.core (recordOpnd c), s.opndRange c.core src] = none ∧ s.compStop r = none ∧
       ∃ x, (openRec 0).claim c.id (r.rows * rowBytes .fp32 0 r.elems) 16 (pVit.pa c.pageVA) = .inr x) := by
  refine ⟨⟨⟨in_time ?_, ?_⟩, ?_, ?_, ?_, ?_, ?_, ?_, ?_, ?_, ?_, ?_, ⟨_, rfl⟩⟩, ⟨⟨in_time ?_, ?_⟩, ?_, ?_, ?_, ?_, ?_, ?_, ?_, ⟨_, rfl⟩⟩⟩
  all_goals decide +kernel
/-- A copy of the one row of a root of four FP32 elements, a `COPYZ` of its least and of its greatest length, and a `CBUMP`. -/
theorem witness_ArrayCommandsRun_copyl :
    let c := job (.copyl 0 3 4 5) (dF32 + 256) 0
    let s := jobOn (copyRec [1, 4] (lineage 0x81 [])) c
    let r := s.withRecord c
    let o : Opnd := { scratchOpnd r c.a false with ok := converts c.a }
    let chain := s.snapshot 0 c.asid 1
    CopyReady s c ∧ s.copyFirst c (some c.a) = none ∧ r.mem.toNat % 2 ^ 24 = 1 ∧ s.descIn c.core c.asid o = true ∧
      (s.recordStop r || s.descBad c.core o || r.mem.extractLsb' 24 40 ≠ 0 || r.scr ≠ 0 || r.dir ≠ 0) = false ∧ s.handleOk c.asid 1 = true ∧
      s.chainGap (s.seenNode 0 c.asid) c.asid 8 1 = none ∧ (leafOf chain).live = true ∧ 0 + r.rows ≤ (leafOf chain).rows ∧ 0 + r.elems ≤ (leafOf chain).cols ∧
      s.rangeStops true [s.opndRange c.core (recordOpnd c)] = none ∧ s.chainStop true c.asid chain = none ∧ s.compStop { r with chain := chain } = none := by
  refine ⟨⟨in_time ?_, ?_⟩, ?_⟩
  all_goals decide +kernel
theorem witness_ArrayCommandsRun_zero_bump :
    (let c := job (.copyz 0 3 4 5) 0 64
     let s := jobOn base c
     CopyReady s c ∧ s.opndStops c.core c.asid [opnd c.a c.b.toNat false true] false = none) ∧
    (294912 % 64 = 0 ∧ 64 ≤ 294912 ∧ 294912 ≤ 294912) ∧
    (let c := job (.cbump 0 3 4 5) S0 1
     let s := jobOn base c
     CopyReady s c ∧ s.bumpStop c.core c.asid (c.a.setWidth 56) = none) := by
  refine ⟨⟨⟨in_time ?_, ?_⟩, ?_⟩, by decide, ⟨⟨in_time ?_, ?_⟩, ?_⟩⟩
  all_goals decide +kernel

end Sys2Proof.Tests
end

