-- ==== Sys2Proof/Tests/Witness6.lean ====
section
/-! SUPPORT. Witnesses of the hypotheses in the statements about the fabric and about tasks that end. -/

namespace Sys2Proof.Tests

set_option Elab.async false

open Sys2Proof Sys2Proof.Machine

/-! ### A walk depends on the identifier's entry and on its page table only -/

theorem phys64_congr {s : State} {m : List Host.Cell} {pa : Nat} (h : ∀ c, pa ≤ c → c < pa + 8 → cellGet m c = s.byte c) :
    State.phys64 { s with mem := m } pa = s.phys64 pa := congrArg (BitVec.ofNat 64) (cellsLE_congr 8 pa h)
theorem bucketScan_congr {s : State} {m : List Host.Cell} {base z va} (h : ∀ c, base ≤ c → c < base + 128 → cellGet m c = s.byte c) (n : Nat) (hn : n ≤ 8) :
    State.bucketScan { s with mem := m } base z va n = s.bucketScan base z va n := by
  induction n with
  | zero => rfl
  | succ n ih =>
    simp only [State.bucketScan, ih (by omega)]
    rw [phys64_congr fun c h1 h2 => h c (by omega) (by omega), phys64_congr fun c h1 h2 => h c (by omega) (by omega)]
theorem keyScan_congr {s : State} {m : List Host.Cell} {base log z b va} (h : ∀ c, base ≤ c → c < base + 128 * 2 ^ log → cellGet m c = s.byte c) (n : Nat) :
    State.keyScan { s with mem := m } base log z b va n = s.keyScan base log z b va n := by
  induction n with
  | zero => rfl
  | succ n ih =>
    have : (b + (7 - n)) % 2 ^ log < 2 ^ log := Nat.mod_lt _ (Nat.two_pow_pos log)
    have : 128 * ((b + (7 - n)) % 2 ^ log) + 128 ≤ 128 * 2 ^ log := by omega
    simp only [State.keyScan, ih]
    rw [bucketScan_congr (fun c h1 h2 => h c (by omega) (by omega)) 8 (Nat.le_refl _)]
theorem walk_congr {s : State} {m : List Host.Cell} {asid va}
    (hi : ∀ c, s.regs.idtbase.toNat + 32 * asid.toNat ≤ c → c < s.regs.idtbase.toNat + 32 * asid.toNat + 16 → cellGet m c = s.byte c)
    (h : ∀ c, s.ptBase asid ≤ c → c < s.ptBase asid + 128 * 2 ^ s.ptLog asid → cellGet m c = s.byte c) :
    State.walk { s with mem := m } asid va = s.walk asid va := by
  have h0 : State.ptBase { s with mem := m } asid = s.ptBase asid := congrArg BitVec.toNat (phys64_congr fun c h1 h2 => hi c (by simpa using h1) (by simp at h2; omega))
  have h8 : State.ptLog { s with mem := m } asid = s.ptLog asid :=
    congrArg (fun x : W64 => (x.extractLsb' 32 8).toNat) (phys64_congr fun c h1 h2 => hi c (by simp at h1; omega) (by simp at h2; omega))
  simp only [State.walk, h0, h8]
  rw [keyScan_congr h, keyScan_congr h, keyScan_congr h]
/-- A range in one page whose memory lies above the tables. -/
theorem one_page {s : State} {asid va n e} (h : s.regs.idtbase.toNat + 32 * asid.toNat + 16 ≤ e.pa va / 8 * 8 ∧
    s.ptBase asid + 128 * 2 ^ s.ptLog asid ≤ e.pa va / 8 * 8 ∧ va.toNat % 65536 + n ≤ 65536 ∧ s.tlb = [] ∧
    ∀ i, i < n → s.poisoned (e.pa va + i) = false ∧ e.pa (va + BitVec.ofNat 56 i) = e.pa va + i ∧ s.walk asid (va + BitVec.ofNat 56 i) = some e) :
    OnePage s asid va n e := by
  refine ⟨h.2.2.1, fun i hi => ?_⟩
  have h4 := h.2.2.2.2 i hi
  refine ⟨h4.1, h4.2.1, .inl (by simp [State.cached, h.2.2.2.1]), fun m hm => ?_⟩
  rw [walk_congr (fun c h1 h2 => hm c fun h3 => by have := h3.1; omega) (fun c h1 h2 => hm c fun h3 => by have := h3.1; omega)]
  exact h4.2.2

/-- The records and the claimed page of the flattening lie apart and above the tables. -/
theorem witness_Lineage_apart : let s := gs [(3, 0xC0000), (4, 2)] (tree 2)
    RewriteApart s s.asid [0xC0000] [1, 2, 3] := by
  have ha : let s := gs [(3, 0xC0000), (4, 2)] (tree 2)
      ([0xC0000].filterMap (fun va => (s.walk s.asid va).map fun e => (e.pa va, 65536)) ++
        [1, 2, 3].filterMap fun h => (s.recPA s.asid h).map fun pa => (pa, 64)) = [(0x190000, 65536), (0x140040, 64), (0x140080, 64), (0x1400C0, 64)] ∧
      s.regs.idtbase.toNat + 32 * s.asid.toNat + 32 ≤ 0x20000 ∧ s.ptBase s.asid = 0x20000 ∧ s.ptLog s.asid = 6 := by decide +kernel
  refine ⟨?_, fun m hm => ?_⟩
  · rw [ha.1]; decide
  · rw [ha.1] at hm
    have hb : ∀ x, x < 0x100000 → cellGet m x = (gs [(3, 0xC0000), (4, 2)] (tree 2)).byte x := fun x hx => hm x fun a h => by
      simp only [List.mem_cons, List.not_mem_nil, or_false] at h
      rcases h with rfl | rfl | rfl | rfl <;> exact .inl (by show x < _; omega)
    refine ⟨congrArg addr (phys64_congr fun c h1 h2 => hb c ?_), fun va => walk_congr (fun c h1 h2 => hb c ?_) fun c h1 h2 => hb c ?_⟩
    · have := ha.2.1; have : c < (gs [(3, 0xC0000), (4, 2)] (tree 2)).regs.idtbase.toNat + 32 * (gs [(3, 0xC0000), (4, 2)] (tree 2)).asid.toNat + 16 + 8 := h2; omega
    · have := ha.2.1; omega
    · rw [ha.2.2.1, ha.2.2.2] at h2; omega

/-! ### The fabric -/

/-- A record of words at the front of scratch, named by g4; the group table at 0x160000 with group 0: flags, ports, base, size and identifier, object. -/
def recorded (ws : List W64) : State → State := fun s => scr (leBytes ws) (g 4 S0 s)
def grouped (flags ports base zone : W64) : State :=
  let s := paged [(0x160000, flags), (0x160008, ports), (0x160010, base), (0x160018, zone)]
  { s with regs := { s.regs with gtbase := 0x160000 } }
theorem record_in {s : State} {va : VA} {k : Nat} (h : s.spaceStop s.act.1 .read false false va (8 * k) = none ∧ k ≤ 8 ∧
    ∀ j, j < k → s.place s.act.1 .read (va + BitVec.ofNat 56 (8 * j)) 8 = .scratch (8 * j)) : RecordIn s va k (descWords s) :=
  ⟨h.1, fun j hj => ⟨_, h.2.2 j hj, by rw [descWords, if_pos (Nat.lt_of_lt_of_le hj h.2.1), Nat.zero_add]⟩⟩
theorem xferOk {s : State} {m w} (h : (w 2 : W64).toNat % 16 = 0 ∧ 16 ≤ (w 2).toNat ∧ (w 2).toNat ≤ 1048576) (hm : m = false) : XferOk s m w :=
  ⟨h.1, h.2.1, h.2.2, by rw [hm]; nofun⟩
theorem witness_FabricTransfersAndLinks_words :
    (let s := g 4 (S0 + 4) base
     XferWords (.fput 0 4) 0 4 false ∧ Ready (.fput 0 4) s ∧ ((s.g 4).setWidth 56 : VA).toNat % 8 ≠ 0) ∧
    (let s := recorded [S0 + 0x100, 0x50000, 16, S0 + 0x200] (paged [])
     Ready (.fput 0 4) s ∧ Quiet s ∧ RecordIn s ((s.g 4).setWidth 56) 4 (descWords s) ∧ XferOk s false (descWords s) ∧
       s.spaceStop s.act.1 .read true false ((descWords s 0).setWidth 56) 16 = none ∧ s.spaceStop s.act.1 .write true false ((descWords s 1).setWidth 56) 16 = none ∧
       s.bumpStop s.act.1 s.asid ((descWords s 3).setWidth 56) = none) ∧
    (let s := recorded [S0, 0x50000, 8, 0] (paged [])
     XferWords (.fget 0 4) 0 4 false ∧ Ready (.fget 0 4) s ∧ Quiet s ∧ RecordIn s ((s.g 4).setWidth 56) 4 (descWords s) ∧ ¬ XferOk s false (descWords s)) ∧
    (let s := recorded [S0 + 0x100, 0, 16, 0] (grouped 0xC000000000000000 0 0x40000 0x1000000005)
     XferWords (.fmcast 0 4) 0 4 true ∧ Ready (.fmcast 0 4) s ∧ Quiet s ∧ RecordIn s ((s.g 4).setWidth 56) 4 (descWords s) ∧ XferOk s true (descWords s) ∧
       s.spaceStop s.act.1 .read true false ((descWords s 0).setWidth 56) 16 = none) ∧
    XferOk base false (fun _ => 1048576) ∧ ¬ XferOk base false (fun _ => 1048592) ∧
    (Ready (.fsync 0) base ∧ AtRest base ∧ (∀ x ∈ base.xfers, x.bind = base.myCore.task.bind → x.ctx ≠ base.act.2) ∧
      ∀ r ∈ base.rounds, ∀ m ∈ r.members, m.bind = base.myCore.task.bind → m.ctx ≠ base.act.2) := by
  refine ⟨⟨.fput .., ?_⟩, ⟨?_, ?_, record_in ?_, xferOk ?_ rfl, ?_⟩, ⟨.fget .., ?_, ?_, record_in ?_, fun h => absurd h.2.1 ?_⟩,
    ⟨.fmcast .., ?_, ?_, record_in ?_, ⟨?_, ?_, ?_, fun _ => ⟨?_, 0x1000000005, ?_⟩⟩, ?_⟩, xferOk ?_ rfl, fun h => absurd h.2.2.1 ?_, ?_⟩
  all_goals (try unfold Ready); (try unfold Quiet); (try unfold AtRest); decide +kernel
/-- A transfer of the acting context under way over paged memory, group 0 with a parent and two children. -/
def xfer (mcast : Bool) (src : VA) (dst comp : W64) : State :=
  { grouped 0xC000000000000003 0x8000000000000001 0x40000 0x1000000005 with
    xfers := [⟨3, 0, 0, 1, 5, mcast, src, dst, 16, comp, [], List.replicate 16 0, none⟩] }
theorem scratchOf {s : State} {n asid va len o} (h : (s.core n).on ≠ none ∧ (s.core n).asid = asid ∧ va.toNat = 0x00FFFFFFFFF01000 + o ∧
    o + len ≤ (s.core n).banks.slen) : ScratchOf s n asid va len o := h
theorem witness_FabricTransfersAndLinks_complete :
    (let s := xfer true (S0.setWidth 56) 0 (S0 + 0xFF8)
     (∃ x, s.xfers.find? (fun y => y.id == 3) = some x ∧ x.mcast = true ∧ inLocal x.src = true ∧ s.group 0 0 = some 0xC000000000000003 ∧
       s.group 0 1 = some 0x8000000000000001 ∧ x.comp ≠ 0 ∧ ScratchOf s x.core x.asid (x.comp.setWidth 56) 8 0xFF8 ∧
       s.place x.core .read (x.comp.setWidth 56) 8 = .scratch 0xFF8)) ∧
    (xfer true (S0.setWidth 56) 0 0).xfers.find? (fun y => y.id == 3) = some ⟨3, 0, 0, 1, 5, true, S0.setWidth 56, 0, 16, 0, [], List.replicate 16 0, none⟩ ∧
    (let s := xfer false ((S0 + 0xFF0).setWidth 56) 0x5FFF0 0
     ∃ x, s.xfers.find? (fun y => y.id == 3) = some x ∧ x.mcast = false ∧ x.comp = 0 ∧ inLocal x.src = true ∧ x.data.length = x.len ∧ Settled x.core pUc ∧
       OnePage s x.asid (x.dst.setWidth 56) x.len pUc ∧ inLocal (x.dst.setWidth 56) = false ∧ inRope (x.dst.setWidth 56) = false ∧
       ∀ i, i < x.len → hasOrder pUc (pUc.pa (x.dst.setWidth 56) + i) = false) ∧
    (let s := xfer false 0x50000 S0 0
     ∃ x, s.xfers.find? (fun y => y.id == 3) = some x ∧ x.mcast = false ∧ x.comp = 0 ∧ (s.core x.core).task.bind = x.bind ∧ ScratchOf s x.core x.asid (x.dst.setWidth 56) x.len 0 ∧ Settled x.core pUc ∧
       OnePage s x.asid x.src x.len pUc ∧ inLocal x.src = false ∧ ∀ i, i < x.len → hasOrder pUc (pUc.pa x.src + i) = false ∧
         NoDirty s x.asid (x.src + BitVec.ofNat 56 i) pUc) := by
  refine ⟨⟨_, rfl, ?_, ?_, ?_, ?_, ?_, scratchOf ?_, ?_⟩, ?_, ⟨_, rfl, ?_, ?_, ?_, ?_, ?_, one_page ?_, ?_⟩,
    ⟨_, rfl, ?_, ?_, ?_, scratchOf ?_, ?_, one_page ?_, ?_, fun i hi => ⟨?ord, nofun⟩⟩⟩
  case ord => revert i; decide +kernel
  all_goals (try unfold Settled); decide +kernel
theorem witness_FabricTransfersAndLinks_timeouts :
    (let s := xfer false 0x50000 S0 0
     ∃ x, s.flights.find? (fun g => g.id == 3) = none ∧ s.xfers.find? (fun y => y.id == 3) = some x ∧ x.comp = 0 ∧ (s.core x.core).on ≠ none ∧
       (s.core x.core).task.bind = x.bind ∧ (s.core x.core).stopped = none) ∧
    (let c := { cmd (.copy 0 3 4 5) 0 0 with phase := .running }
     let s := due c
     s.flights.find? (fun g => g.id == 3) = none ∧ s.xfers.find? (fun y => y.id == 3) = none ∧
       s.cmds.find? (fun d => d.id == 3 && isCopy d.instr && d.phase == .running) = some c) := by
  refine ⟨⟨_, ?_, rfl, ?_⟩, ?_⟩ <;> decide +kernel
theorem witness_FabricTransfersAndLinks_links :
    (let s := flying (.load false (.gz 3 64)) 0x90000 8 0 0 (paged [])
     ∃ f, s.flights.find? (fun h => h.id == 7) = some f ∧ s.entry f.asid f.acc.va = some pRemote ∧ isRemote (pRemote.pa f.acc.va) = true ∧
       ∃ fr d, f.kind = .load fr d) ∧
    (let s := flying .store 0x90000 8 0 0 (paged [])
     ∃ f, s.flights.find? (fun h => h.id == 7) = some f ∧ s.entry f.asid f.acc.va = some pRemote ∧ isRemote (pRemote.pa f.acc.va) = true ∧ f.kind = .store) ∧
    (let s := flying (.atomic .add .z64 0 (some 3)) 0x90000 8 0 0 (paged [])
     ∃ f, s.flights.find? (fun h => h.id == 7) = some f ∧ s.entry f.asid f.acc.va = some pRemote ∧ isRemote (pRemote.pa f.acc.va) = true ∧
       f.kind = .atomic .add .z64 0 (some 3)) ∧
    (let s := grouped 0xC000000000000000 0 0x40000 0x400000005
     s.group 0 0 = some 0xC000000000000000 ∧ s.group 0 1 = some 0 ∧ s.group 0 2 = some 0x40000 ∧ s.group 0 3 = some 0x400000005 ∧ s.group 0 4 = some 0 ∧
       (0xC000000000000000 : W64).getLsbD 62 = true ∧ 0 + [1, 2, 3, 4].length ≤ (0x400000005 : W64).toNat / 2 ^ 32 ∧
       OnePage s ((0x400000005 : W64).setWidth 13) 0x40000 4 pShared ∧ pShared.malformed = false ∧ pShared.wr = true ∧ pShared.cls = .normal ∧
       ∀ i, i < 4 → s.physOk (pShared.pa 0x40000 + i) = true ∧
         ∀ l, Table.find? (wordKey 5 (0x40000 + BitVec.ofNat 56 i)) s.locs = some l → l.pa = (pShared.pa 0x40000 + i) / 8 * 8) := by
  refine ⟨⟨_, rfl, ?_, ?_, _, _, rfl⟩, ⟨_, rfl, ?_, ?_, rfl⟩, ⟨_, rfl, ?_, ?_, rfl⟩, ?_, ?_, ?_, ?_, ?_, ?_, ?_, one_page ?_, ?_, ?_, ?_, fun i hi => ⟨?ord, nofun⟩⟩
  case ord => revert i; decide +kernel
  all_goals decide +kernel

/-- A descriptor of a rope reduction of four elements among core 0 alone, delivered to all, into scratch at 0x200; and one with `n` elements. -/
def redWords (n : W64) : List W64 := [0xC000000100000000 ||| n, 1, S0 + 0x200, 0, 0, 0, 0, 0]
theorem redOk {s : State} {op : ROp} {w : Nat → W64} (h : (w 0).toNat / 2 ^ 48 % 2 ^ 14 = 0 ∧ (w 0).toNat / 2 ^ 13 % 2 ^ 19 = 0 ∧ (w 1).toNat / 2 ^ 32 = 0 ∧ w 5 = 0 ∧ w 6 = 0 ∧
    w 7 = 0 ∧ 1 ≤ (w 0).toNat % 2 ^ 13 ∧ (w 0).toNat % 2 ^ 13 ≤ (if op = .rsc then 4094 else 4096) ∧ (w 0).toNat / 2 ^ 62 % 2 = 1 ∧ (w 0).toNat / 2 ^ 43 % 2 ^ 5 = 0 ∧
    (w 0).getLsbD (32 + s.act.1 % 8) = true ∧ (w 0).getLsbD (32 + (w 0).toNat / 2 ^ 40 % 8) = true) : RedOk s op w :=
  ⟨h.1, h.2.1, h.2.2.1, h.2.2.2.1, h.2.2.2.2.1, h.2.2.2.2.2.1, h.2.2.2.2.2.2.1, h.2.2.2.2.2.2.2.1, fun _ => h.2.2.2.2.2.2.2.2.2, fun h0 => by
    rw [h.2.2.2.2.2.2.2.2.1] at h0; cases h0⟩
theorem witness_FabricReductions : (let s := gs [(4, S0 + 4), (5, S0)] base
     Ready (.fred 0 .addS32 4 5) s ∧ ((s.g 4).setWidth 56 : VA).toNat % 8 ≠ 0) ∧
    (let s := gs [(4, S0), (5, S0 + 8)] base
     ((s.g 4).setWidth 56 : VA).toNat % 8 = 0 ∧ ((s.g 5).setWidth 56 : VA).toNat % 16 ≠ 0) ∧
    (let s := scr (leBytes (redWords 4)) (gs [(4, S0), (5, S0 + 0x100)] base)
     Ready (.fred 0 .addS32 4 5) s ∧ Quiet s ∧ RecordIn s ((s.g 4).setWidth 56) 8 (descWords s) ∧
       s.spaceStop s.act.1 .write false false ((s.g 4).setWidth 56 + 32) 8 = none ∧ RedOk s .addS32 (descWords s) ∧
       ScratchOf s s.act.1 s.asid ((s.g 5).setWidth 56) (4 * 4) 0x100 ∧ s.spaceStop s.act.1 .read false false ((s.g 5).setWidth 56) (4 * 4) = none ∧
       s.spaceStop s.act.1 .write false (decide ((descWords s 0).toNat / 2 ^ 62 % 2 = 1)) ((descWords s 2).setWidth 56) (4 * 4) = none ∧ descWords s 3 = 0) ∧
    (let s := scr (leBytes (redWords 0)) (gs [(4, S0), (5, S0 + 0x100)] base)
     Ready (.fred 0 .addS32 4 5) s ∧ Quiet s ∧ RecordIn s ((s.g 4).setWidth 56) 8 (descWords s) ∧
       s.spaceStop s.act.1 .write false false ((s.g 4).setWidth 56 + 32) 8 = none ∧ ¬ RedOk s .addS32 (descWords s)) ∧
    RedOk base .addS32 (fun k => (redWords 4096).getD k 0) ∧ RedOk base .rsc (fun k => (redWords 4094).getD k 0) ∧ ¬ RedOk base .rsc (fun k => (redWords 4095).getD k 0) := by
  refine ⟨?_, ?_, ⟨?_, ?_, record_in ?_, ?_, redOk ?_, scratchOf ?_, ?_⟩, ⟨?_, ?_, record_in ?_, ?_, fun h => absurd h.2.2.2.2.2.2.1 ?_⟩, redOk ?_, redOk ?_,
    fun h => absurd h.2.2.2.2.2.2.2.1 ?_⟩
  all_goals (try unfold Ready); (try unfold Quiet); (try unfold AtRest); decide +kernel
/-- A round of group 0, this package its root, that waits for ports 0 and 63; port 0 has come. -/
def half : State := { grouped 0xE000000000000000 0x8000000000000001 0 0 with
  rounds := [⟨.group 0, 1, [⟨none, .addS32, 1, [3], false⟩, ⟨some 0, .addS32, 1, [4], false⟩], [], false⟩] }
theorem witness_FabricReductions_rounds :
    (∃ r, half.rounds.filter (fun q => q.key == .group 0) = [r] ∧ r.seq = 1 ∧ r.sent = false ∧ half.group 0 0 = some 0xE000000000000000 ∧
      (0xE000000000000000 : W64).getLsbD 62 = true ∧ (0xE000000000000000 : W64).getLsbD 61 = true ∧
      half.group 0 1 = some 0x8000000000000001 ∧ r.parts = ⟨none, .addS32, 1, [3], false⟩ :: ([⟨some 0, .addS32, 1, [4], false⟩] ++ []) ∧
      ([⟨some 0, .addS32, 1, [4], false⟩] ++ ⟨some 63, .addS32, 1, [5], false⟩ :: [] : List Part).map (·.port) =
        ((List.range 64).filter fun i => (0x8000000000000001 : W64).getLsbD i).map some) := by
  refine ⟨_, rfl, ?_⟩
  decide +kernel
/-- Two members of a rope reduction on cores 0 and 1, of which core 0 takes the result and both have a COMP; one of a group with ports 0 and 63. -/
def pair : State := { twoCores with rounds := [⟨.rope 0 3 0, 1, [], [⟨0, 0, 1, 5, S0.setWidth 56, S0 + 0x200, S0 + 0x400, false⟩,
  ⟨1, 0, 1, 5, S0.setWidth 56, 0, S0 + 0x400, false⟩], true⟩] }
def member : Member := ⟨0, 0, 1, 5, S0.setWidth 56, S0 + 0x200, 0, true⟩
def treed : State := { grouped 0xC000000000000000 0x8000000000000001 0 0 with rounds := [⟨.group 0, 1, [], [member], true⟩] }
theorem witness_FabricReductions_outcome : ∃ r, pair.rounds.find? (fun q => q.key == .rope 0 3 0 && q.seq == 1) = some r ∧ (r.members.map (·.core)).Nodup ∧
    ∀ m ∈ r.members, (pair.core m.core).task.bind = m.bind ∧ ScratchOf pair m.core m.asid (m.desc + 0x20) 8 0x20 ∧
      (m.comp ≠ 0 → ScratchOf pair m.core m.asid (m.comp.setWidth 56) 8 0x400 ∧ pair.place m.core .read (m.comp.setWidth 56) 8 = .scratch 0x400 ∧ Apart 0x20 8 0x400 8) ∧
      ∀ vals, (false = false ∧ (m.all = true ∨ decide (m.core % 8 = 0) = true) ∧ some [1, 2] = some vals) →
        ScratchOf pair m.core m.asid (m.dest.setWidth 56) (4 * vals.length) 0x200 ∧ Apart 0x20 8 0x200 (4 * vals.length) ∧
          (m.comp ≠ 0 → Apart 0x400 8 0x200 (4 * vals.length)) := by
  refine ⟨_, rfl, by decide +kernel, fun m hm => ?_⟩
  rcases List.mem_cons.1 hm with rfl | hm
  · refine ⟨by decide +kernel, scratchOf (by decide +kernel), fun _ => ⟨scratchOf (by decide +kernel), by decide +kernel, by unfold Apart; decide⟩, ?_⟩
    rintro vals ⟨-, -, h⟩
    obtain rfl : [1, 2] = vals := Option.some.inj h
    exact ⟨scratchOf (by decide +kernel), by unfold Apart; decide, fun _ => by unfold Apart; decide⟩
  · obtain rfl := List.mem_singleton.1 hm
    refine ⟨by decide +kernel, scratchOf (by decide +kernel), fun _ => ⟨scratchOf (by decide +kernel), by decide +kernel, by unfold Apart; decide⟩, ?_⟩
    rintro vals ⟨-, h, -⟩
    exact absurd h (by decide)
theorem witness_FabricReductions_tree : treed.group 0 1 = some 0x8000000000000001 ∧ (0x8000000000000001 : W64).getLsbD 63 = true ∧ treed.groupRoot 0 = false ∧
    ∃ r, treed.rounds.find? (fun q => q.key == .group 0 && q.seq == 1) = some r ∧ r.members = [member] ∧ member.comp = 0 ∧ member.all = true ∧
      (treed.core 0).task.bind = member.bind ∧ ScratchOf treed 0 member.asid (member.desc + 0x20) 8 0x20 ∧
      ScratchOf treed 0 member.asid (member.dest.setWidth 56) (4 * [1, 2].length) 0x200 ∧ Apart 0x20 8 0x200 (4 * [1, 2].length) := by
  refine ⟨?_, ?_, ?_, _, rfl, rfl, rfl, rfl, ?_, scratchOf ?_, scratchOf ?_, ?_⟩
  all_goals (try unfold Apart); decide +kernel

/-! ### Tasks -/

theorem inPlace {s : State} {asid va e} (h : va.toNat % 8 = 0 ∧ Table.find? (wordKey asid va) s.locs = none) : InPlace s asid va e :=
  ⟨h.1, fun l hl => by rw [h.2] at hl; cases hl⟩
theorem tcbAt {s : State} {asid tcb e} (h : tcb.toNat % 256 = 0 ∧ e.pa (tcb + 8) = e.pa tcb + 8 ∧ e.pa (tcb + 16) = e.pa tcb + 16 ∧ e.pa tcb % 8 = 0 ∧
    (tcb + 8).toNat % 8 = 0 ∧ (tcb + 16).toNat % 8 = 0) (hl : s.locs = []) : TcbAt s asid tcb e :=
  ⟨h.1, h.2.1, h.2.2.1, h.2.2.2.1, inPlace ⟨h.2.2.2.2.1, by rw [hl]; rfl⟩, inPlace ⟨h.2.2.2.2.2, by rw [hl]; rfl⟩⟩
/-- The task has a list of successors at an address; the list at 0x40200 names the TCB at 0x40300. -/
def withSucc (x : W64) (s : State) : State := slot (fun t => { t with copy := { t.copy with succ := x } }) s
def listed (x : W64) : State := withSucc 0x40200 (paged [(0x140200, 1), (0x140208, x)])
/-- What the successors are, and that the table is found and nothing is in the way of STATE behind them. -/
def succOf (s : State) : Option (List (VA × Pte)) :=
  match s.begin.successors with
  | .inr (xs, u) => if u.walk 5 0x40100 = some pShared ∧ Table.find? (wordKey 5 0x40108) u.locs = none ∧ u.recs = [] then some xs else none
  | .inl _ => none
theorem succ_of {s : State} {xs} (h : succOf s = some xs) : ∃ u, s.begin.successors = .inr (xs, u) ∧ u.walk 5 0x40100 = some pShared ∧ InPlace u 5 (0x40100 + 8) pShared ∧
    Uncounted u 5 0x40100 := by
  rw [succOf] at h; split at h
  · rename_i ys u hu; split at h
    · rename_i hw; cases h; exact ⟨u, hu, hw.1, inPlace ⟨by decide, hw.2.1⟩, by unfold Uncounted; rw [hw.2.2]; nofun⟩
    · cases h
  · cases h
def stopOf (s : State) : Option SuccStop := match s.begin.successors with | .inl x => some x | .inr _ => none
theorem stop_of {s : State} {x} (h : stopOf s = some x) : s.begin.successors = .inl x := by
  rw [stopOf] at h; split at h
  · rename_i hx; cases h; exact hx
  · cases h
theorem witness_FinishingTask : Ready (.tdone 0) helper ∧ helper.act.2 ≠ 0 ∧
    (let s := listed 0x40300
     Ready (.tdone 0) s ∧ s.act.2 = 0 ∧ Quiet s ∧ s.me.reportsBy ≤ s.now ∧ Settled s.act.1 pShared ∧ (∀ k ∈ s.myCore.live, k = 0) ∧ (∀ c ∈ s.cmds, c.core ≠ s.act.1) ∧ s.myCore.guardrec.getLsbD 63 = false ∧
       s.myCore.on = some 0 ∧ s.myCore.task.tcb.setWidth 56 = (0x40100 : VA) ∧
       ∃ u, s.begin.successors = .inr ([(0x40300, pShared)], u) ∧ u.walk 5 0x40100 = some pShared ∧ InPlace u 5 (0x40100 + 8) pShared ∧ Uncounted u 5 0x40100) ∧
    (let s := paged []
     Ready (.tdone 0) s ∧ Quiet s ∧ (∀ k ∈ s.myCore.live, k = 0) ∧ s.myCore.task.copy.succ = 0 ∧
       ∃ u, s.begin.successors = .inr ([], u) ∧ u.walk 5 0x40100 = some pShared ∧ InPlace u 5 (0x40100 + 8) pShared ∧ Uncounted u 5 0x40100) ∧
    (listed 0x40301).begin.successors = .inl (.inl ⟨0x03, 0x40301, 0⟩) ∧
    (withSucc 0xB0000 base).begin.successors = .inl (.inr (0xB0000, false)) ∧
    (let s := core (fun c => { c with guardrec := 0x8000000000000000 }) base
     Ready (.tdone 0) s ∧ s.act.2 = 0 ∧ Quiet s ∧ s.myCore.guardrec.getLsbD 63 = true) := by
  refine ⟨?_, ?_, ⟨?_, ?_, ?_, ?_, ?_, ?_, ?_, ?_, ?_, ?_, succ_of ?_⟩, ⟨?_, ?_, ?_, ?_, succ_of ?_⟩, stop_of ?_, stop_of ?_, ?_⟩
  all_goals (try unfold Ready); (try unfold Quiet); (try unfold AtRest); (try unfold Settled); decide +kernel
theorem tcbOk {s : State} {x : W64} {e} (h : x.toNat % 256 = 0 ∧ x.toNat / 2 ^ 56 = 0 ∧ inLocal (x.setWidth 56) = false ∧ inRope (x.setWidth 56) = false ∧
    s.xlate s.asid (x.setWidth 56) = some e ∧ e.malformed = false ∧ s.physOk (e.pa (x.setWidth 56)) = true ∧ e.wr = true ∧ isRemote (e.pa (x.setWidth 56)) = false ∧ e.cls = .normal) :
    TcbOk s x e := h
/-- The TCB at 0x40300 with a STATE word and a count of predecessors. -/
def tcbAt3 (state preds : W64) : State := paged [(0x140308, state), (0x140310, preds)]
theorem witness_TcbWordsAndEvents : TcbWords (.tdec 0 4) 0 4 ∧ TcbWords (.tcancel 0 3 4) 0 4 ∧
    (let s := g 4 0x40080 (paged [])
     Ready (.tdec 0 4) s ∧ (s.g 4).toNat % 256 ≠ 0) ∧ (g 4 0x0100000000040300 (paged [])).g 4 = 0x0100000000040300 ∧
    (let s := g 4 S0 (paged [])
     Ready (.tcancel 0 3 4) s ∧ (s.g 4).toNat % 256 = 0 ∧ (s.g 4).toNat / 2 ^ 56 = 0 ∧ inLocal ((s.g 4).setWidth 56) = true) ∧
    (let s := g 4 0xB0000 base
     Ready (.tdec 0 4) s ∧ (s.g 4).toNat % 256 = 0 ∧ (s.g 4).toNat / 2 ^ 56 = 0 ∧ inLocal ((s.g 4).setWidth 56) = false ∧ inRope ((s.g 4).setWidth 56) = false ∧
       s.xlate s.asid ((s.g 4).setWidth 56) = none) ∧
    (let s := paged []
     s.xlate s.asid 0xA0000 = some pRo ∧ pRo.wr = false ∧ s.xlate s.asid 0x90000 = some pRemote ∧
       isRemote (pRemote.pa 0x90000) = true) ∧
    (let s := paged []
     s.xlate s.asid 0x60000 = some pVit ∧ pVit.malformed = false ∧ s.physOk (pVit.pa 0x60000) = true ∧ pVit.wr = true ∧
       isRemote (pVit.pa 0x60000) = false ∧ pVit.cls = .vitrine ∧ s.xlate s.asid 0x80000 = some pDev ∧ pDev.wr = true ∧ pDev.cls = .device) ∧
    (let s := { g 4 0x40300 (tcbAt3 1 1) with poison := [0x140300 / 128] }
     Ready (.tcancel 0 3 4) s ∧ TcbOk s (s.g 4) pShared ∧ s.poisoned (pShared.pa ((s.g 4).setWidth 56)) = true) ∧
    (let s := g 4 0x40300 (tcbAt3 1 1)
     Ready (.tdec 0 4) s ∧ Quiet s ∧ AllStarted s ∧ TcbOk s (s.g 4) pShared ∧ s.walk s.asid 0x40300 = some pShared ∧ Settled s.act.1 pShared ∧ s.poisoned (pShared.pa 0x40300) = false ∧
       TcbAt s s.asid 0x40300 pShared ∧ predsAt s 5 0x40300 pShared = 1 ∧ (stateAt s 5 0x40300 pShared).toNat % 256 = 1 ∧
       Ready (.tcancel 0 3 4) s ∧ NoneDue s ∧ Uncounted s s.asid 0x40300 ∧ s.cores.ascending = true) ∧
    (let s := slot (fun t => { t with tcb := 0x40300 }) (tcbAt3 3 0)
     s.walk 5 0x40300 = some pShared ∧ TcbAt s 5 0x40300 pShared ∧ (stateAt s 5 0x40300 pShared).toNat % 256 = 3 ∧ s.slotWith 5 0x40300 = some (0, 0) ∧ NoneDue s) ∧
    predsAt (tcbAt3 1 0) 5 0x40300 pShared = 0 ∧ predsAt (tcbAt3 1 2) 5 0x40300 pShared = 2 := by
  refine ⟨.tdec .., .tcancel .., ?_, ?_, ?_, ?_, ?_, ?_, ⟨?_, tcbOk ?_, ?_⟩, ⟨?_, ?_, ?_, tcbOk ?_, ?_, ?_, ?_, tcbAt ?_ rfl, ?_⟩, ⟨?_, tcbAt ?_ rfl, ?_⟩, ?_⟩
  all_goals (try unfold Ready); (try unfold Quiet); (try unfold AtRest); (try unfold AllStarted); (try unfold NoneDue); (try unfold Uncounted); (try unfold Settled); decide +kernel
/-- A decrement of the TCB at 0x40300 on its way, its PREDS sound or poisoned. -/
def sent (poison : List Nat) (s : State) : State := { s with decs := [(5, 0x40300, 0x140300)], poison }
theorem witness_TcbWordsAndEvents_decrement :
    (let s := sent [] (tcbAt3 1 1)
     (5, (0x40300 : VA).toNat, 0x140300) ∈ s.decs ∧ s.pteAt 5 0x40308 0x140308 = pShared ∧ s.pteAt 5 0x40310 0x140310 = pShared ∧
       TcbAt s 5 0x40300 pShared ∧ s.poisoned 0x140300 = false) ∧
    (let s := sent [0x140300 / 128] (tcbAt3 2 1)
     s.pteAt 5 0x40308 0x140308 = pShared ∧ s.pteAt 5 0x40310 0x140310 = pShared ∧ TcbAt s 5 0x40300 pShared ∧ s.poisoned 0x140300 = true ∧ (stateAt s 5 0x40300 pShared).toNat % 256 < 3 ∧
       Uncounted s 5 0x40300) ∧
    (let s := sent [0x140300 / 128] (slot (fun t => { t with tcb := 0x40300 }) (tcbAt3 3 1))
     s.poisoned 0x140300 = true ∧ (stateAt s 5 0x40300 pShared).toNat % 256 = 3 ∧ s.slotWith 5 0x40300 = some (0, 0) ∧ (s.core 0).on = some 0 ∧ (s.core 0).failing = none) ∧
    (let s := sent [0x140300 / 128] (tcbAt3 4 1)
     s.poisoned 0x140300 = true ∧ 3 < (stateAt s 5 0x40300 pShared).toNat % 256) := by
  refine ⟨⟨?_, ?_, ?_, tcbAt ?_ rfl, ?_⟩, ⟨?_, ?_, tcbAt ?_ rfl, ?_⟩, ?_, ?_⟩
  all_goals (try unfold Uncounted); decide +kernel
theorem objectOk {s : State} {asid x e} (h : x.toNat / 2 ^ 56 = 0 ∧ s.walk asid (x.setWidth 56) = some e ∧ e.malformed = false ∧ s.physOk (e.pa (x.setWidth 56)) = true ∧
    e.wr = true ∧ s.poisoned (e.pa (x.setWidth 56)) = false ∧ e.cls = .normal ∧ (x.setWidth 56 : VA).toNat % 8 = 0) (hl : s.locs = []) : ObjectOk s asid x e :=
  ⟨h.1, h.2.1, h.2.2.1, h.2.2.2.1, h.2.2.2.2.1, h.2.2.2.2.2.1, h.2.2.2.2.2.2.1, inPlace ⟨h.2.2.2.2.2.2.2, by rw [hl]; rfl⟩⟩
/-- A record of queue 0 whose TCBs have all ended. -/
def settled (kind flags : Nat) (rcomp rstat : W64) (bad : Bool) : Rec :=
  { id := 9, queue := 0, kind, flags, asid := 5, rcomp, rstat, vec := 63, waiting := [], done := 1, failed := 2, cancelled := 3, rejected := 4, bad }
theorem witness_TcbWordsAndEvents_records :
    (let r := settled 1 3 0 0x40400 false
     let s : State := { paged [] with recs := [r] }
     s.recs.find? (fun x => x.id == 9) = some r ∧ r.waiting = [] ∧ r.flags / 2 % 2 = 1 ∧ r.flags % 2 = 1 ∧ r.vec < 64 ∧ r.kind ≠ 3 ∧ r.bad = false ∧ r.rstat ≠ 0 ∧
       ObjectOk s r.asid r.rstat pShared ∧ (s.func (s.queueOf r.queue).func).masked = false ∧ (s.queueOf r.queue).func ∉ s.flr) ∧
    (let r := settled 3 0 0x4FFF8 0 false
     let s : State := { paged [] with recs := [r] }
     s.recs.find? (fun x => x.id == 9) = some r ∧ r.kind = 3 ∧ s.recs.find? (fun x => x.queue == r.queue) = some r ∧ r.flags / 2 % 2 = 0 ∧ r.bad = false ∧ r.rcomp ≠ 0 ∧
       ObjectOk s r.asid r.rcomp pShared) ∧
    (let r := settled 1 0 0 0 true
     let s : State := { base with recs := [r] }
     s.recs.find? (fun x => x.id == 9) = some r ∧ r.waiting = [] ∧ r.flags / 2 % 2 = 0 ∧ r.kind ≠ 3 ∧ r.bad = true ∧ (s.queueOf r.queue).err = 0) := by
  refine ⟨⟨?_, ?_, ?_, ?_, ?_, ?_, ?_, ?_, objectOk ?_ rfl, ?_⟩, ⟨?_, ?_, ?_, ?_, ?_, ?_, objectOk ?_ rfl⟩, ?_⟩
  all_goals decide +kernel

end Sys2Proof.Tests
end

