-- ==== Sys2Proof/Tests/Witness7.lean ====
section
/-! SUPPORT. Witnesses of the hypotheses in the statements about faults without a word, the handler, failure and the switch. -/

namespace Sys2Proof.Tests

set_option Elab.async false

open Sys2Proof Sys2Proof.Machine

/-! ### Faults without a word -/

/-- The acting context in handler mode; with its PC elsewhere; a page of uncached code at 0x50000. -/
def inHandler (s : State) : State := me (fun c => { c with xstat := c.xstat ||| 0x8000000000000000 }) s
def atPc (va : VA) (s : State) : State := me (fun c => { c with pc := va }) s
def ucCode : State := atPc 0x50004 { base with
  mem := words ([(0x100A0, 0x20000), (0x100A8, 0x8000040600000000)] ++ entry 5 5 0x2700000000000015), regs := { HostRegs.init with idtbase := 0x10000 } }
def pUcCode : Pte := pte 5 5 0x2700000000000015
theorem witness_FaultsWithoutAWord :
    (let s := me (fun c => { c with fault := some ⟨⟨0x18, 0, 5, 63⟩, 0, false⟩ }) base
     (s.ctx 0 0).fault = some ⟨⟨0x18, 0, 5, 63⟩, 0, false⟩ ∧ (s.ctx 0 0).hm = false ∧ (0x18 : Nat) ≠ 0x20 ∧ ((inHandler s).ctx 0 0).fault = some ⟨⟨0x18, 0, 5, 63⟩, 0, false⟩ ∧
       ((inHandler s).ctx 0 0).hm = true) ∧
    ((base.ctx 0 0).live = true ∧ base.fetched 0 0 = none ∧ (base.ctx 0 0).hm = false ∧ inLocal (base.ctx 0 0).pc = false ∧ inRope (base.ctx 0 0).pc = false ∧
      base.check .fetch (base.core 0).asid (base.ctx 0 0).pc 4 = .page 0x10000 false) ∧
    (let s := atPc 0xFFFFFFFFFF0008 (inHandler (core (fun c => { c with badWords := [1] }) base))
     (s.ctx 0 0).live = true ∧ s.fetched 0 0 = none ∧ (s.ctx 0 0).hm = true ∧ Machine.inHandler (s.ctx 0 0).pc = true) ∧
    (let s := atPc (S0.setWidth 56) (inHandler base)
     (s.ctx 0 0).live = true ∧ s.fetched 0 0 = none ∧ Machine.inHandler (s.ctx 0 0).pc = false ∧ inLocal (s.ctx 0 0).pc = true) ∧
    (let s := atPc (S0.setWidth 56) base
     (s.ctx 0 0).live = true ∧ s.fetched 0 0 = none ∧ (s.ctx 0 0).hm = false ∧ inLocal (s.ctx 0 0).pc = true) ∧
    (let s := atPc 0x30000 (paged [])
     (s.ctx 0 0).live = true ∧ s.fetched 0 0 = none ∧ inLocal (s.ctx 0 0).pc = false ∧ inRope (s.ctx 0 0).pc = false ∧
       s.check .fetch (s.core 0).asid (s.ctx 0 0).pc 4 = .trap ⟨0x06, 0x30000, 0⟩) ∧
    (let s := atPc 0x40000 (inHandler (me (fun c => { c with live := false }) (paged [])))
     (s.ctx 0 0).live = false ∧ (s.ctx 0 0).hm = true ∧ s.fetched 0 0 = none ∧ Machine.inHandler (s.ctx 0 0).pc = false ∧
       s.check .fetch (s.core 0).asid (s.ctx 0 0).pc 4 = .ok pShared 0x140000 ∧ Settled 0 pShared) ∧
    (let s := atPc 0x4FFFC (paged [])
     (s.ctx 0 0).live = true ∧ s.fetched 0 0 = none ∧ s.check .fetch (s.core 0).asid (s.ctx 0 0).pc 4 = .ok pShared 0x14FFFC ∧ pShared.uc = false) ∧
    ((ucCode.ctx 0 0).live = true ∧ ucCode.fetched 0 0 = none ∧ ucCode.check .fetch (ucCode.core 0).asid (ucCode.ctx 0 0).pc 4 = .ok pUcCode 0x150004 ∧
      pUcCode.uc = true ∧ Settled 0 pUcCode) := by unfold Settled; decide +kernel

/-! ### The handler -/

/-- A `TRAP` of code n in the handler, and a full report ring; slot 1 to be brought in, its image at a place. -/
def trapped (n : W64) : State := inHandler (me (fun c => { c with cause := 0x20, finfo := n }) base)
def ringFull (s : State) : State := { s with regs := { s.regs with crhead := 1 } }
def slot1 (loc : BitVec 2) (s : State) : State := core (fun c => { c with slots := [(0, task), (1, { task with tcb := 0x40300, ctxloc := loc, bind := 2, prio := 1 })] }) s
theorem witness_HandlerEntries :
    (let s := trapped 63
     (s.ctx 0 0).live = true ∧ (s.ctx 0 0).hm = true ∧ (s.ctx 0 0).cause.toNat % 256 = 0x20 ∧ 32 ≤ (s.ctx 0 0).finfo.toNat % 64 ∧ (s.core 0).failing = none ∧ ¬ RingFull s ∧
       RingFull (ringFull s)) ∧
    (trapped 32).me.finfo.toNat % 64 = 32 ∧ (base.ctx 0 1).live = false ∧
    (let s := core (fun c => { c with incoming := some 1, on := none, ctxs := [] }) (slot1 1 base)
     (s.core 0).incoming = some 1 ∧ (s.core 0).free = true ∧ ((s.core 0).slot 1).selectable = true ∧ ((s.core 0).slot 1).ctxloc ≠ 3) := by
  unfold RingFull; decide +kernel
/-- The core fails its task. -/
def failing (s : State) : State := core (fun c => { c with failing := some 0x13 }) s
theorem witness_FailingTask :
    (let s := failing (paged [])
     (s.core 0).failing = some 0x13 ∧ (∀ f ∈ s.flights, f.core ≠ 0) ∧ (∀ c ∈ s.cmds, c.core = 0 → c.phase = .waiting) ∧ (s.core 0).on ≠ none ∧
       (s.core 0).halted = none ∧ (s.core 0).inHM = false ∧ (s.core 0).live = [0] ∧ (s.ctx 0 0).park = .no) ∧
    (let s := failing (me (fun c => { c with park := .home 9 }) (paged []))
     (s.core 0).inHM = false ∧ ∃ k ∈ (s.core 0).live, (s.ctx 0 k).park = .home 9 ∧ s.now < 9) ∧
    (let s := failing (inHandler (paged []))
     (s.core 0).failing = some 0x13 ∧ (∀ f ∈ s.flights, f.core ≠ 0) ∧ (∀ c ∈ s.cmds, c.core = 0 → c.phase = .waiting) ∧ (s.core 0).inHM = true ∧
       (s.core 0).on = some 0 ∧ Uncounted s (s.core 0).asid 0x40100 ∧ (s.core 0).halted = none ∧ s.walk (s.core 0).asid 0x40100 = some pShared ∧ InPlace s (s.core 0).asid (0x40100 + 8) pShared) ∧
    (let s := core (fun c => { c with halted := some 0x13 }) (failing base)
     (s.core 0).failing = some 0x13 ∧ (∀ f ∈ s.flights, f.core ≠ 0) ∧ (∀ c ∈ s.cmds, c.core = 0 → c.phase = .waiting) ∧ (s.core 0).on = some 0 ∧
       Uncounted s (s.core 0).asid 0x40100 ∧ (s.core 0).halted ≠ none) ∧
    (let s := failing (inHandler (due { cmd (.copy 0 3 4 5) 0 0 with phase := .running }))
     (s.core 0).failing = some 0x13 ∧ (∀ f ∈ s.flights, f.core ≠ 0) ∧ (s.core 0).inHM = true ∧ (s.core 0).on = some 0 ∧
       ∃ c ∈ s.cmds, c.core = 0 ∧ c.bind = (s.core 0).task.bind ∧ c.phase ≠ .waiting) ∧
    (base.core 0).failing = none ∧
    (let s := core (fun c => { c with halted := some 0x13, biv := some (Image.empty 1) }) (slot1 1 base)
     (s.core 0).failing = none ∧ (s.core 0).halted ≠ none ∧ (s.core 0).biv = some (Image.empty 1)) ∧
    (core (fun c => { c with halted := some 0x13 }) base |>.core 0).biv = none := by
  refine ⟨?_, ?_, ⟨?_, ?_, ?_, ?_, ?_, ?_, ?_, ?_, inPlace ?_⟩, ?_⟩
  all_goals (try unfold Uncounted); decide +kernel
/-- The core is asked to give up its task. -/
def asked (s : State) : State := core (fun c => { c with preempt := true }) s
theorem witness_StoppingAndSaving : HandlerWords (.ctxsv 0 4) ∧ Ready (.ctxsv 0 4) base ∧ base.me.hm = false ∧
    (let s := asked (me (fun c => { c with park := .cond ⟨0, some 9, 3, .bwait 0 .rope 4 5, 0⟩ }) base)
     (s.core 0).preempt = true ∧ (s.core 0).on ≠ none ∧ (s.core 0).failing = none ∧ (s.core 0).halted = none ∧ (s.core 0).inHM = false ∧
       (s.core 0).live.Nodup ∧ (∀ f ∈ s.flights, f.core ≠ 0) ∧ (∀ k ∈ (s.core 0).live, (s.dropLease 0).mustFinish 0 k = false) ∧ 0 ∈ (s.core 0).live) ∧
    (let s := asked (me (fun c => { c with answer := some (1, 0, 0) }) base)
     (s.core 0).preempt = true ∧ (s.core 0).inHM = false ∧ ∃ k ∈ (s.core 0).live, (s.dropLease 0).mustFinish 0 k = true) := by
  refine ⟨.ctxsv .., ?_⟩; unfold Ready; decide +kernel
/-- Words over the save bank at the ends of the mask; a context that is not live, and a bad image. -/
theorem witness_StoppingAndSaving_sets :
    (let s := inHandler (g 4 0x7FF (helped 10))
     Ready (.ctxsv 0 4) s ∧ s.me.hm = true ∧ (s.g 4).toNat < 2 ^ 11 ∧ ∀ k, 1 ≤ k → k < 11 → (s.g 4).getLsbD k = true → (s.ctx s.act.1 k).live = true) ∧
    (let s := inHandler (g 4 0x400 (helped 9))
     Ready (.ctxsv 0 4) s ∧ s.me.hm = true ∧ (1 ≤ 10 ∧ 10 < 11 ∧ (s.g 4).getLsbD 10 = true ∧ (s.ctx s.act.1 10).live = false)) ∧
    2 ^ 11 ≤ (0x800 : W64).toNat ∧
    (let s := core (fun c => { c with save := some (Image.empty 0) }) (inHandler (g 4 0x7FF base))
     Ready (.ctxld 0 4) s ∧ s.me.hm = true ∧ s.act.2 < 11 ∧ s.myCore.save = some (Image.empty 0) ∧ (s.g 4).toNat < 2 ^ 11 ∧ (Image.empty 0).bad = []) ∧
    (let i := { Image.empty 0 with bad := [0x2FF8 / 8] }
     let s := core (fun c => { c with save := some i }) (inHandler base)
     Ready (.ctxld 0 4) s ∧ s.me.hm = true ∧ s.myCore.save = some i ∧ (s.g 4).toNat < 2 ^ 11 ∧ ∃ w ∈ i.bad, 0x2E00 ≤ 8 * w ∧ 8 * w < 0x3000) := by
  refine ⟨⟨?_, ?_, ?_, fun k h1 h2 _ => ?live⟩, ?_⟩
  case live => exact (by decide +kernel : ∀ j, j < 11 → 1 ≤ j → ((inHandler (g 4 0x7FF (helped 10))).ctx 0 j).live = true) k h2 h1
  all_goals (try unfold Ready); decide +kernel
/-- The store holds the image of slot 1; the handler runs for the task on the core. -/
def stored (loc : BitVec 2) : State := core (fun c => { c with biv := some (Image.empty 1) }) (inHandler (slot1 loc base))
theorem ready_empty {s : State} {n} (h : s.comingIn n = none ∧ (s.core n).biv = none) : ExchangeReady s n := by unfold ExchangeReady; rw [h.1, h.2]; trivial
theorem ready_first {s : State} {n j x} (h : s.comingIn n = some (j, x) ∧ (s.core n).biv = none ∧ x.ctxloc = 3) : ExchangeReady s n := by
  unfold ExchangeReady; rw [h.1, h.2.1]; exact h.2.2
theorem ready_back {s : State} {n j x b} (h : s.comingIn n = some (j, x) ∧ (s.core n).biv = some b ∧ x.ctxloc ≠ 3 ∧ b.slot = j) : ExchangeReady s n := by
  unfold ExchangeReady; rw [h.1, h.2.1]; exact h.2.2
theorem unready_third {s : State} {n j x b} (h : s.comingIn n = some (j, x) ∧ (s.core n).biv = some b ∧ x.ctxloc = 3) : ¬ ExchangeReady s n := by
  unfold ExchangeReady; rw [h.1, h.2.1]; exact fun g => g.1 h.2.2
theorem unready_spilled {s : State} {n j x} (h : s.comingIn n = some (j, x) ∧ (s.core n).biv = none ∧ x.ctxloc ≠ 3) : ¬ ExchangeReady s n := by
  unfold ExchangeReady; rw [h.1, h.2.1]; exact h.2.2
def second (loc : BitVec 2) : Slot := { task with tcb := 0x40300, ctxloc := loc, bind := 2, prio := 1 }
/-- The store does not hold what comes in, or a write into the scratch is due. -/
theorem witness_ExchangeAndResume_waits :
    (let s := stored 3
     Ready (.bxch 0) s ∧ s.me.hm = true ∧ ¬ ExchangeReady s 0 ∧ s.myCore.biv ≠ none) ∧
    (let s := inHandler (slot1 2 base)
     Ready (.bxch 0) s ∧ s.me.hm = true ∧ ¬ ExchangeReady s 0 ∧ s.myCore.biv = none ∧ s.comingIn 0 = some (1, second 2)) ∧
    (let s : State := { inHandler base with queue := [(9, .seqsetTagWrite 0 1 0 0)] }
     Ready (.bxch 0) s ∧ s.me.hm = true ∧ s.scratchDue 0 = true) ∧
    (let s : State := { inHandler base with queue := [(9, .seqsetTagWrite 1 1 0 0)] }
     ExchangeReady s 0 ∧ s.scratchDue 0 = false ∧ s.me.answer = none) := by
  refine ⟨⟨?_, ?_, unready_third (j := 1) (x := second 3) (b := Image.empty 1) ?_, ?_⟩, ⟨?_, ?_, unready_spilled (j := 1) (x := second 2) ?_, ?_⟩, ?_, ready_empty ?_, ?_⟩
  all_goals (try unfold Ready); decide +kernel
/-- The exchange is under way: an unsettled tile; nothing on the core; a first start; the image of slot 1. -/
def moved1 (s : State) : State := me (fun c => { c with answer := some (0, 0, 0) }) s
theorem witness_ExchangeAndResume_moves :
    (let s := moved1 (core (fun c => { c with active := { c.active with t0 := { c.active.t0 with settled := 9 } } }) (inHandler base))
     Ready (.bxch 0) s ∧ s.me.hm = true ∧ ExchangeReady s 0 ∧ s.scratchDue 0 = false ∧ s.me.answer ≠ none ∧ s.tilesSettled 0 = false) ∧
    (let s := moved1 (core (fun c => { c with on := none }) (inHandler base))
     ExchangeReady s 0 ∧ s.scratchDue 0 = false ∧ s.me.answer ≠ none ∧ s.tilesSettled 0 = true ∧ s.comingIn 0 = none ∧ s.myCore.on = none) ∧
    (let s := moved1 (inHandler (slot1 3 base))
     ExchangeReady s 0 ∧ s.scratchDue 0 = false ∧ s.me.answer ≠ none ∧ s.tilesSettled 0 = true ∧ s.comingIn 0 = some (1, second 3) ∧ s.myCore.on = some 0) ∧
    (let s := moved1 (stored 1)
     ExchangeReady s 0 ∧ s.scratchDue 0 = false ∧ s.me.answer ≠ none ∧ s.tilesSettled 0 = true ∧ s.myCore.biv = some (Image.empty 1) ∧
       s.comingIn 0 = some ((Image.empty 1).slot, second 1) ∧ (second 1).ctxloc ≠ 3) := by
  refine ⟨⟨?_, ?_, ready_empty ?_, ?_⟩, ⟨ready_empty ?_, ?_⟩, ⟨ready_first (j := 1) (x := second 3) ?_, ?_⟩,
    ready_back (j := 1) (x := second 1) (b := Image.empty 1) ?_, ?_⟩
  all_goals (try unfold Ready); decide +kernel
/-- A spilled image of slot 1, its store free or held by another; a handler that ends, alone or with contexts to resume at a cairn and in a wait. -/
def spilled (biv : Option Image) : State :=
  core (fun c => { c with slots := [(0, task), (1, { task with ctxloc := 2, hbm := some { Image.empty 1 with hbm := true } })], biv }) base
def restored (f : Ctx → Ctx) : State := core (fun c => { c with restored := some (Image.empty 0) }) (inHandler (me f base))
theorem witness_ExchangeAndResume : (base.core 0).biv = none ∧ ((stored 1).core 0).biv = some (Image.empty 1) ∧
    (let s := spilled none
     let i := { Image.empty 1 with hbm := true }
     ((s.core 0).slot 1).hbm = some i ∧ ((s.core 0).slot 1).v = true ∧ ((s.core 0).slot 1).ctxloc = 2 ∧ (s.core 0).biv = none ∧ s.ladderRoom 0 i = true) ∧
    (let s := spilled (some (Image.empty 0))
     ((s.core 0).slot 1).ctxloc = 2 ∧ (s.core 0).biv = some (Image.empty 0) ∧ (Image.empty 0).slot ≠ 1) ∧
    (let s := inHandler base
     Ready (.cresume 0) s ∧ s.me.hm = true ∧ s.myCore.restored = none) ∧
    (let s := restored fun c => { c with cairnpc := 0xC000000000010004, image := some ⟨c.g, c.v, c.p, c.mshape⟩ }
     Ready (.cresume 0) s ∧ s.me.hm = true ∧ s.myCore.restored = some (Image.empty 0) ∧ s.myCore.live.Nodup ∧ (∀ k ∈ s.myCore.live, (s.ctx 0 k).replay = []) ∧
       (∀ k ∈ s.myCore.live, (s.ctx 0 k).cairnV = true ∧ (s.ctx 0 k).image.isSome = true ∧ (s.ctx 0 k).park = .no ∧ (s.ctx 0 k).cairnpc.getLsbD 62 = true) ∧ s.holdsLease 0 = false ∧ s.myCore.stopped = none) ∧
    (let s := restored fun c => { c with park := .belay .rope 3 0 }
     Ready (.cresume 0) s ∧ s.myCore.live.Nodup ∧ ∀ k ∈ s.myCore.live, (s.ctx 0 k).park = .belay .rope 3 0) ∧
    (let s := restored fun c => { c with park := .pageFault 5 0x40000 true }
     Ready (.cresume 0) s ∧ s.myCore.live.Nodup ∧ ∀ k ∈ s.myCore.live, (s.ctx 0 k).park = .pageFault 5 0x40000 true) := by
  unfold Ready; decide +kernel

end Sys2Proof.Tests
end

