-- ==== Sys2Proof/Tests/Witness8.lean ====
section
/-! SUPPORT. Witnesses of the hypotheses in the statements about launch, time and page faults. -/

namespace Sys2Proof.Tests

set_option Elab.async false

open Sys2Proof Sys2Proof.Machine

/-! ### Launch -/

/-- CFG of a queue of one record, identifiers 5 to 5, function 0, pitch 0; the queue enabled, its ring at 0x40800, one record to be read. -/
def cfg5 : W64 := 0x0028014000010000
def queue0 : QBlock := { QBlock.init with qbase := 0x40800, cfg := cfg5, qmask := 1, en := true, qtail := 1, seen := 1 }
def queueing (b : QBlock) (ws : List (Nat × W64)) : State := { paged ws with queues := [(0, b)], funcs := [(0, ⟨1, 0x0028014000000000, false⟩)] }
/-- A record in the ring, and the STATE word and PREDS of the TCB at 0x40300. -/
def record (ws : List W64) (state preds : W64) : State :=
  queueing queue0 ([(0x140308, state), (0x140310, preds)] ++ (List.range 8).map fun k => (0x140800 + 8 * k, ws.getD k 0))
def wordsOf (ws : List W64) (k : Nat) : W64 := ws.getD k 0
theorem nextRecord {s : State} {q : Nat} {w : Nat → W64} (h : (s.queueOf q).en = true ∧ (s.queueOf q).err = 0 ∧ (s.queueOf q).qhead ≠ (s.queueOf q).seen ∧ ∀ k, k < 8 →
    s.devGet (BitVec.ofNat 13 (cfgField (s.queueOf q) 38 13)) ((s.queueOf q).qbase.setWidth 56 +
      BitVec.ofNat 56 (64 * ((s.queueOf q).qhead.toNat % 2 ^ cfgField (s.queueOf q) 0 5)) + BitVec.ofNat 56 (8 * k)) 8 = some (w k)) : NextRecord s q w := h
theorem witness_QueuesAndRecords_blocks :
    (let s := queueing queue0 []
     let b := s.queueOf 0
     2 ^ cfgField b 0 5 = 1 ∧ 1 < (2 - b.qhead : W32).toNat ∧ (1 - b.qhead : W32).toNat ≤ 1 ∧ b.en = true ∧ b.err = 0 ∧ b.qhead ≠ b.seen ∧ ¬ ConfigBad s b) ∧
    ConfigBad base { queue0 with cfg := 17 } ∧ (queueing { queue0 with en := false } []).queueOf 0 = { queue0 with en := false } := by
  refine ⟨⟨?_, ?_, ?_, ?_, ?_, ?_, ?bad⟩, .inl ?_, ?_⟩
  case bad =>
    rintro (h | h | h | h | ⟨r, h1, h2, h3⟩)
    · exact absurd h (by decide +kernel)
    · exact absurd h (by decide +kernel)
    · exact absurd h (by decide +kernel)
    · exact absurd h (by decide +kernel)
    · have hq : ∀ r, r < 192 → ((queueing queue0 []).queueOf 0).qmask.getLsbD r = true →
          ((queueing queue0 []).func (cfgField ((queueing queue0 []).queueOf 0) 32 6)).fropes.getLsbD r = true := by decide +kernel
      rw [hq r h1 h2] at h3; cases h3
  all_goals decide +kernel
/-- The three records, each sound; a submit of a TCB in each state that matters; one with a wrong kind; one whose TCB cannot be read. -/
theorem witness_QueuesAndRecords :
    (let w := [0x10001, 0x40300, 5]
     let s := record w 0 0
     NextRecord s 0 (wordsOf w) ∧ RecOk (s.queueOf 0) (wordsOf w) ∧ (∀ r ∈ s.recs, r.id ≠ s.next) ∧ s.tcbReadable 5 0x40300 = true ∧ s.walk 5 0x40300 = some pShared ∧
       TcbAt s 5 0x40300 pShared ∧ s.walk 5 (0x40300 + 8) = some pShared ∧ s.walk 5 (0x40300 + 16) = some pShared ∧ predsAt s 5 0x40300 pShared = 0 ∧
       stateAt s 5 0x40300 pShared = 0 ∧ stateAt (record w 4 0) 5 0x40300 pShared = 4) ∧
    (let w := [0x10002, 0x40300, 5]
     let s := record w 1 1
     NextRecord s 0 (wordsOf w) ∧ RecOk (s.queueOf 0) (wordsOf w) ∧ (∀ r ∈ s.recs, r.id ≠ s.next) ∧ NoneDue s ∧ s.cores.ascending = true ∧ s.tcbReadable 5 0x40300 = true ∧
       Uncounted s 5 0x40300 ∧ TcbAt s 5 0x40300 pShared) ∧
    (let w := [3, 0, 5]
     let s := record w 0 0
     NextRecord s 0 (wordsOf w) ∧ RecOk (s.queueOf 0) (wordsOf w) ∧ (∀ r ∈ s.recs, r.id ≠ s.next) ∧ ∀ y ∈ s.recs, y.queue ≠ 0) ∧
    (let w := [4, 0, 5]
     NextRecord (record w 0 0) 0 (wordsOf w) ∧ ¬ RecOk ((record w 0 0).queueOf 0) (wordsOf w)) ∧
    (let w := [0x10001, 0x40300, 5]
     let s : State := { record w 0 0 with poison := [0x140300 / 128] }
     NextRecord s 0 (wordsOf w) ∧ RecOk (s.queueOf 0) (wordsOf w) ∧ 0 < 1 ∧ s.tcbReadable 5 0x40300 = false) ∧
    RecOk queue0 (wordsOf [0x10000001, 0, 5, 0, 0, 63]) ∧ ¬ RecOk queue0 (wordsOf [0x10010001, 0, 5]) ∧ ¬ RecOk queue0 (wordsOf [0x10001, 0, 5, 0, 0, 64]) := by
  refine ⟨⟨nextRecord ?_, ?_, ?_, ?_, ?_, tcbAt ?_ rfl, ?_⟩, ⟨nextRecord ?_, ?_, ?_, ?_, ?_, ?_, ?_, tcbAt ?_ rfl⟩, ⟨nextRecord ?_, ?_⟩, ⟨nextRecord ?_, ?_⟩, ⟨nextRecord ?_, ?_⟩, ?_⟩
  all_goals (try unfold RecOk); (try unfold NoneDue); (try unfold Uncounted); decide +kernel
/-- The curator may bind; queue 0 has the TCB at 0x40300, for any rope's first and identifier 5, with reserved words `res`. -/
def bindable (res : W64) : State :=
  let s := queueing { queue0 with ready := [(5, 0x40300)] } [(0x140308, 2), (0x140320, 1), (0x140338, 0x500000000), (0x1403C0, res)]
  { s with regs := { s.regs with fwstat := 2, rlctl := 0x4000000000000000 } }
theorem wins_zero : ∀ i, i < 8 → (bindable 0).tcbWord 5 0x40300 (0x48 + 16 * i) = 0 := by decide +kernel
theorem checks_pass : ∀ k, k < 8 → LaunchCheck (bindable 0) ((bindable 0).queueOf 0) 5 0x40300 k := by
  intro k hk
  have h3 : ((bindable 0).queueOf 0).qmask.getLsbD 0 = true ∧ ((bindable 0).tcbRopes 5 0x40300).getLsbD 0 = true := by decide +kernel
  have h5 : ∀ i, i < 8 → ((bindable 0).tcbWord 5 0x40300 (0x48 + 16 * i)).toNat < 2 ^ 40 := by decide +kernel
  rcases (by omega : k = 0 ∨ k = 1 ∨ k = 2 ∨ k = 3 ∨ k = 4 ∨ k = 5 ∨ k = 6 ∨ k = 7) with h | h | h | h | h | h | h | h <;> subst h
  case inr.inr.inr.inl => exact ⟨0, by omega, h3⟩
  case inr.inr.inr.inr.inr.inl => exact fun i hi => ⟨h5 i hi, fun h => absurd (wins_zero i hi) h⟩
  all_goals (simp only [LaunchCheck]; decide +kernel)
theorem witness_Binding :
    (let s := bindable 0
     s.mayBind = true ∧ s.nextQueue = some 0 ∧ s.nextReady 0 = some (5, 0x40300) ∧ 0x40300 < 2 ^ 56 ∧ s.tcbReadable 5 (BitVec.ofNat 56 0x40300) = true ∧
       MayTake s ((s.queueOf 0).qmask &&& s.tcbRopes 5 (BitVec.ofNat 56 0x40300)) 0 ∧ ((s.core 0).slot 1).v = false) ∧
    (let s := bindable 1
     s.mayBind = true ∧ s.nextQueue = some 0 ∧ s.nextReady 0 = some (5, 0x40300) ∧ s.tcbReadable 5 (BitVec.ofNat 56 0x40300) = true ∧ ¬ LaunchCheck s (s.queueOf 0) 5 0x40300 0 ∧
       Uncounted s 5 (BitVec.ofNat 56 0x40300) ∧ s.walk 5 (BitVec.ofNat 56 0x40300) = some pShared ∧ InPlace s 5 (BitVec.ofNat 56 0x40300 + 8) pShared) ∧
    (let s : State := { bindable 0 with poison := [0x140300 / 128] }
     s.mayBind = true ∧ s.nextQueue = some 0 ∧ s.nextReady 0 = some (5, 0x40300) ∧ s.tcbReadable 5 (BitVec.ofNat 56 0x40300) = false ∧ Uncounted s 5 (BitVec.ofNat 56 0x40300)) ∧
    base.nextQueue = none ∧
    (let s := core (fun c => { c with slots := [(0, { task with tcb := 0x40300, ctxloc := 3, bound := false })] }) (bindable 0)
     let u := (s.core 0).slot 0
     u.v = true ∧ u.bound = false ∧ u.ctxloc = 3 ∧ s.walk u.asid (u.tcb.setWidth 56) = some pShared ∧ InPlace s u.asid (u.tcb.setWidth 56 + 8) pShared ∧
       (stateAt s u.asid (u.tcb.setWidth 56) pShared).toNat % 256 = 2) ∧
    (let s := core (fun c => { c with slots := [(0, task), (1, { task with tcb := 0x40300, ctxloc := 3, bound := false, pe := true, prio := 1 })] }) (bindable 0)
     let u := (s.core 0).slot 1
     u.v = true ∧ u.bound = false ∧ u.ctxloc = 3 ∧ s.walk u.asid (u.tcb.setWidth 56) = some pShared ∧ (s.core 0).on = some 0 ∧ u.pe = true ∧
       ((s.core 0).slot 0).prio < u.prio ∧ (s.core 0).preempt = false ∧ (s.core 0).failing = none ∧ (s.core 0).halted = none ∧ (s.core 0).restored = none ∧
       (stateAt s u.asid (u.tcb.setWidth 56) pShared).toNat % 256 = 2) := by
  refine ⟨⟨?_, ?_, ?_, ?_, ?_, ⟨?_, ?_, ?_, 1, ?_⟩, ?_⟩, ⟨?_, ?_, ?_, ?_, fun h => absurd (h.2 0 (by decide)) ?_, ?_, ?_, inPlace ?_⟩, ⟨?_, ?_, ?_, ?_, ?_⟩, ?_, ⟨?_, ?_, ?_, ?_, inPlace ?_, ?_⟩, ?_⟩
  all_goals (try unfold Uncounted); decide +kernel
/-- A free core with one slot. -/
def freeCore (u : Slot) : State := core (fun c => { c with ctxs := [], slots := [(0, u)], on := none }) base
def newTask : Slot := { task with ctxloc := 3, copy := { TaskCopy.init with entry := 0x10000, scratch := 294912 } }
theorem witness_Dispatching :
    (let s := freeCore newTask
     (s.core 0).free = true ∧ s.thermal ≠ 2 ∧ (s.core 0).best none = some (0, newTask) ∧ newTask.ctxloc = 3 ∧ newTask.start.toNat ≤ s.now ∧ newTask.copy.scratch ≤ 294912 ∧
       (s.core 0).slot 0 = newTask ∧ Table.ascending (s.core 0).slots = true) ∧
    (let u := { task with ctxloc := 2 }
     let s := freeCore u
     (s.core 0).free = true ∧ s.thermal ≠ 2 ∧ (s.core 0).best none = some (0, u) ∧ u.ctxloc ≠ 3) ∧
    (base.core 0).free = false ∧ ((freeCore Slot.init).core 0).best none = none ∧
    Table.find? 0 (queueing { queue0 with ready := [(5, 0x40300)], age := 0xFFFFFE } []).queues = some { queue0 with ready := [(5, 0x40300)], age := 0xFFFFFE } := by decide +kernel

/-! ### Time -/

/-- Two lines, dirty since 48 ticks and clean since 61, an old and a new FIFO entry, and a slice that is over. -/
def aged : State :=
  core (fun c => { c with lines := [⟨5, 0x40000 / 128, 13, true, 15, 0, 0⟩, ⟨5, 0x40080 / 128, 0, false, 15, 0, 0⟩], slots := [(0, { task with wd := 3 })],
                          banks := (Banks.init.resized 4096 2 0).setFifo 17 [⟨0, 7, 13, false⟩, ⟨1, 8, 60, false⟩] })
    { base with tick := 61, queues := [(0, { QBlock.init with slice := 3 })], heat := [(0, (1, 2)), (75497471, (65535, 0))],
                regs := { HostRegs.init with heatctl := 0x800000000000000A, heatbase := 0x200000 } }
theorem witness_TimePasses :
    (∃ c, Table.find? 0 aged.cores = some c ∧ c.on = some 0 ∧ (aged.queueOf (c.slot 0).queue.toNat).slice.toNat % 2 ^ 32 ≠ 0 ∧
      (aged.queueOf (c.slot 0).queue.toNat).slice.toNat % 2 ^ 32 ≤ (c.slot 0).wd ∧ (∃ l ∈ c.lines, l.dirty = true ∧ 48 ≤ (aged.tick + 1 - l.stamp).toNat) ∧
      (∃ l ∈ c.lines, l.dirty = false ∧ 60 < (aged.tick + 1 - l.stamp).toNat) ∧ ∃ b ∈ c.banks.fifo, ∃ e ∈ b.2, 48 ≤ (aged.tick + 1 - e.stamp).toNat) ∧
    (let s := core (fun c => { c with renewing := [(3, 9)], zeroAt := 9 }) base
     ∃ c, Table.find? 0 s.cores = some c ∧ (∃ e ∈ c.renewing, e.1 = 3 ∧ s.now ≤ e.2) ∧ ¬ c.zeroAt ≤ s.now) ∧ (base.core 0).zeroAt ≤ base.now ∧
    base.now / 3000 % 1024 = 0 ∧ base.now / 3000 % 100 = 0 ∧ base.now / 3000 % 2 ^ 20 = 0 ∧ (512 * 7 < (base.core 0).banks.slen ∧ ¬ 512 * 8 < (base.core 0).banks.slen) ∧
    (aged.core 0).lineAt 5 (0x40000 / 128) = some ⟨5, 0x40000 / 128, 13, true, 15, 0, 0⟩ ∧ aged.locs.ascending = true ∧ 48 ≤ (aged.tick - 13).toNat ∧
    (aged.core 0).lineAt 5 (0x40080 / 128) = some ⟨5, 0x40080 / 128, 0, false, 15, 0, 0⟩ ∧ 60 < (aged.tick - 0).toNat ∧
    (aged.core 0).banks.role 17 = 2 ∧ (aged.core 0).banks.role 18 = 2 ∧ (aged.core 0).on = some 0 ∧
    base.regs.heatctl.getLsbD 63 = false ∧ aged.regs.heatctl.getLsbD 63 = true ∧ aged.heat.ascending = true ∧
    ∀ e ∈ aged.heat, e.1 < 75497472 ∧ e.2.1 < 2 ^ 16 ∧ e.2.2 < 2 ^ 16 := by
  refine ⟨⟨_, rfl, ?_⟩, ⟨_, rfl, ?_⟩, ?_⟩ <;> decide +kernel

/-! ### Page faults -/

/-- A vector access that a page fault holds; a bump that one holds. -/
def stuck (k : FlightKind) : State := { base with flights := [⟨7, 0, 0, 5, k, ⟨0xB0000, 64, 0, 0⟩, 3, 9, false, true, 0x10000⟩] }
def heldBump (a : W64) (s : State) : State := { s with cmds := [{ cmd (.cbump 0 3 4 5) a 1 with phase := .held }] }
def goesOf (r : Start) : Bool := match r with | .go _ => true | _ => false
theorem go_of {r : Start} (h : goesOf r = true) : ∃ b, r = .go b := by
  cases r with
  | go b => exact ⟨b, rfl⟩
  | trap t => cases h
  | hold v w => cases h
def stopsOf (r : Start) : Option (Trap ⊕ (VA × Bool)) := match r with | .go _ => none | .trap t => some (.inl t) | .hold v w => some (.inr (v, w))
theorem trap_of {r : Start} {t} (h : stopsOf r = some (.inl t)) : r = .trap t := by cases r <;> cases h; rfl
theorem hold_of {r : Start} {v w} (h : stopsOf r = some (.inr (v, w))) : r = .hold v w := by cases r <;> cases h; rfl
theorem not_parked {s : State} {n k} (h : (s.ctx n k).park = .no) : ∀ a va w, (s.ctx n k).park ≠ .pageFault a va w := fun _ _ _ => by rw [h]; nofun
theorem witness_PageFaults_contexts :
    (let s := me (fun c => { c with park := .pageFault 5 0x40000 true }) base
     (∀ f ∈ s.flights, ¬ (f.core = 0 ∧ f.ctx = 0)) ∧ (s.ctx 0 0).park = .pageFault 5 0x40000 true) ∧
    (∀ a va w, (base.ctx 0 0).park ≠ .pageFault a va w) ∧ (∀ f ∈ base.flights, f.core = 0 → f.ctx = 0 → f.stuck = false) ∧
    (let s := stuck (.vload 3 0xB0000 false [] 0x8001)
     ∃ f, s.flights = [f] ∧ f.stuck = true ∧ (∀ a va w, (s.ctx f.core f.ctx).park ≠ .pageFault a va w) ∧ (s.ctx f.core f.ctx).fault = none ∧
       f.kind = .vload 3 0xB0000 false [] 0x8001 ∧ s.lanesStop f.core .read (lanesOf 0xB0000 false [] 0x8001) = some (.inr (0xB0000, false))) ∧
    (let s := stuck (.vstore (Lanes.fill 0) 0xB0000 false [] 0x8001 0)
     ∃ f, s.flights = [f] ∧ f.stuck = true ∧ (∀ a va w, (s.ctx f.core f.ctx).park ≠ .pageFault a va w) ∧ (s.ctx f.core f.ctx).fault = none ∧
       f.kind = .vstore (Lanes.fill 0) 0xB0000 false [] 0x8001 0 ∧ s.lanesStop f.core .write
         ((lanesOf 0xB0000 false [] 0x8001).map fun l => if false then l.forStore (vfmt 0xB0000).1 else l) = some (.inr (0xB0000, true))) := by
  refine ⟨?_, not_parked ?_, ?_, ⟨_, rfl, rfl, not_parked ?_, ?_, rfl, ?_⟩, ⟨_, rfl, rfl, not_parked ?_, ?_, rfl, ?_⟩⟩
  all_goals decide +kernel
theorem witness_PageFaults :
    (∃ c, (heldBump 0x40400 (paged [])).cmds.find? (fun d => d.id == c.id && d.core == c.core && d.phase == .held) = some c ∧
      ((heldBump 0x40400 (paged [])).core c.core).on ≠ none ∧ ((heldBump 0x40400 (paged [])).core c.core).task.bind = c.bind ∧
      ((heldBump 0x40400 (paged [])).core c.core).stopped = none ∧
      ((heldBump 0x40400 (paged [])).ctx c.core c.ctx).fault = none ∧ EngineWords c.instr 0 .copy (·.g 3) (·.g 4) (·.g 5) ∧ (∃ b, ((heldBump 0x40400 (paged [])).bodyOf c).2 = .go b) ∧
      ((heldBump 0xB0000 base).bodyOf { c with a := 0xB0000 }).2 = .hold 0xB0000 true ∧
      (heldBump 0xB0000 base).cmds.find? (fun d => d.id == c.id && d.core == c.core && d.phase == .held) = some { c with a := 0xB0000 } ∧
      ((heldBump 0x60000 (paged [])).bodyOf { c with a := 0x60000 }).2 = .trap ⟨0x10, 0x60000, 0⟩) ∧
    (let s := paged []
     s.walk 5 0x30000 = some pPriv ∧ pPriv.cls = .normal ∧ pPriv.uc = false ∧ isRemote (pPriv.pa 0x30000) = false ∧ pPriv.sh = false ∧ s.locs.ascending = true ∧
       NoneCachedAt s pPriv.at' 16) ∧
    (paged []).walk 5 0x40000 = some pShared ∧ pShared.sh = true := by
  refine ⟨⟨{ cmd (.cbump 0 3 4 5) 0x40400 1 with phase := .held }, ?_, ?_, ?_, ?_, ?_, .cbump .., go_of ?_, hold_of ?_, ?_, trap_of ?_⟩, ?_, ?_⟩
  all_goals (try unfold NoneCachedAt); decide +kernel

end Sys2Proof.Tests
end

