-- ==== Sys2Proof/Tests/Witness9.lean ====
section
/-! SUPPORT. Witnesses of the hypotheses in the statements about upkeep, the host, resets, steps and encodings. -/

namespace Sys2Proof.Tests

set_option Elab.async false

open Sys2Proof Sys2Proof.Machine

/-! ### Invalidations and migration -/

/-- An invalidation under way: of a page of identifier 5, or of the identifier. -/
def invalidating (xreg : W64) (s : State) : State := { s with regs := { s.regs with xva := 0x40000, xreg } }
theorem not_its {s : State} {func} (h : func = none) : ¬ NotItsRange s func := by rintro ⟨f, hf, -⟩; rw [h] at hf; cases hf
theorem sizeAt {s : State} {asid va e} (h : s.walk asid va = some e ∧ e.sz = 0 ∧ s.tlb = []) : SizeAt s asid va 0 := by
  refine ⟨?_, .inl rfl⟩
  rintro y (⟨x, hx, hy⟩ | ⟨x, hx, -⟩)
  · rw [h.1] at hx; cases hx; rw [← hy]; exact Nat.le_of_eq h.2.1
  · rw [h.2.2] at hx; cases hx
theorem witness_Invalidations :
    (let s := invalidating 5 (paged [])
     s.regs.xreg.getLsbD 63 = false ∧ ¬ NotItsRange s none) ∧
    (invalidating 0x8000000000000005 base).regs.xreg.getLsbD 63 = true ∧
    NotItsRange (invalidating 6 (queueing queue0 [])) (some 0) ∧
    (let s := invalidating 0x8000000000000005 (paged [])
     s.regs.xreg.getLsbD 63 = true ∧ s.regs.xreg.getLsbD 62 = false ∧ SizeAt s (s.regs.xreg.setWidth 13) (s.regs.xva.setWidth 56) 0 ∧
       (∀ f ∈ s.flights, f.asid ≠ s.regs.xreg.setWidth 13) ∧
       (∀ c ∈ s.cmds, c.asid = s.regs.xreg.setWidth 13 → c.phase = .running → ∀ w ∈ c.writes, w.toMem = false) ∧ s.locs.ascending = true ∧ s.decs = []) ∧
    (let s := invalidating 0x8000000000000005 (sent [] (tcbAt3 1 1))
     SizeAt s (s.regs.xreg.setWidth 13) (s.regs.xva.setWidth 56) 0 ∧ s.decs = [(5, 0x40300, 0x140300)] ∧ 0x40300 / 2 ^ (16 + szBits 0) = (s.regs.xva.setWidth 56 : VA).toNat / 2 ^ (16 + szBits 0) ∧
       s.locs = [] ∧ s.poisoned 0x140300 = false ∧ s.pteAt 5 0x40308 0x140308 = pShared ∧ s.pteAt 5 0x40310 0x140310 = pShared ∧ TcbAt s 5 0x40300 pShared) ∧
    (invalidating 0xC000000000000005 base).regs.xreg.getLsbD 62 = true := by
  refine ⟨⟨?_, not_its rfl⟩, ?_, ⟨0, rfl, .inr ?_⟩, ⟨?_, ?_, sizeAt (e := pShared) ?_, ?_⟩, ⟨sizeAt (e := pShared) ?_, ?_, ?_, ?_, ?_, ?_, ?_, tcbAt ?_ rfl⟩, ?_⟩
  all_goals decide +kernel
/-- The migration ring at 0x180000 with one request: a page, a mode, formats; the new page at 0x200000. -/
def migrating (va w : W64) : State :=
  let s := paged [(0x180000, va), (0x180008, w), (0x180010, 0x200000)]
  { s with regs := { s.regs with migbase := 0x180000, migctl := 0x8000000000000000, migtail := 1 } }
theorem groups_length (bs : List Byte) : (groupsLE 1 bs.length bs).length = bs.length := by
  induction bs with
  | nil => rfl
  | cons b bs ih => simpa [groupsLE] using ih
theorem physBytes_length (s : State) (n : Nat) : ∀ pa, (s.physBytes pa n).length = n := by
  induction n with
  | zero => exact fun _ => rfl
  | succ n ih => exact fun pa => by simp [State.physBytes, ih]
theorem decodeRow_length {f : Fmt} (h : f.bits = 8) (n : Nat) (bs : List Byte) : (decodeRow f 0 n bs).length = min n bs.length := by
  have h1 : (fun c : Nat => (Blk.vals f 0 ⟨0, [c]⟩).length) = fun _ => 1 := rfl
  have : (codesIn f bs).length = bs.length := by rw [codesIn, h]; exact groups_length bs
  rw [decodeRow, blocksIn, if_pos rfl, valsOf, List.length_flatMap, List.map_map]
  simp only [Function.comp_def, h1, List.map_const', List.length_take, this]; simp
theorem encodeRow_length (g : Fmt) (b : Nat) (xs : List FVal) : (encodeRow g b xs).length = rowBytes g b xs.length := by
  simp only [encodeRow, fitLen, List.length_append, List.length_take, List.length_replicate]; omega
/-- From a format of 8 bits to one of `k` bits. -/
theorem recoded_length (s : State) (pa : Nat) {f : Fmt} (h : f.bits = 8) (g : Fmt) :
    (encodeRow g 0 (decodeRow f 0 (65536 * 8 / f.bits) (s.physBytes pa 65536))).length = rowBytes g 0 65536 := by
  rw [encodeRow_length, decodeRow_length h, physBytes_length, h]; rfl
theorem witness_Migration : base.regs.migctl.getLsbD 63 = false ∧
    (let s := migrating 0x30000 0x4000000000050000
     NextRequest s 0x180000 0x30000 0x4000000000050000 0x200000 ∧ (∀ e ∈ s.locs, e.2.dirty = 0) ∧ s.walk 5 0x30000 = some pPriv ∧ Moves pPriv ∧ pPriv.mig = 0 ∧
       Apart 0x180000 32 0x200000 65536 ∧ Apart 0x200000 65536 pPriv.at' 16 ∧ Apart 0x180000 32 pPriv.at' 16 ∧ MigFails 0x8000000000050000 (some pPriv) 4) ∧
    NextRequest (migrating 0x30000 0x0000000000050000) 0x180000 0x30000 0x0000000000050000 0x200000 ∧ (0x0000000000050000 : W64).toNat / 2 ^ 62 % 3 = 0 ∧
    NextRequest (migrating 0x60000 0x4000000000050000) 0x180000 0x60000 0x4000000000050000 0x200000 ∧ MigFails 0x4000000000050000 ((migrating 0x60000 0x4000000000050000).walk 5 0x60000) 3 ∧
    (let s := migrating 0xA0000 0x8000000000054050
     NextRequest s 0x180000 0xA0000 0x8000000000054050 0x200000 ∧ s.walk 5 0xA0000 = some pRo ∧ Moves pRo ∧ pRo.mig = 0 ∧ pRo.wr = false ∧
       ∃ f g, tagged (w64 ((0x8000000000054050 : W64).toNat / 2 ^ 8 % 256 * 2 ^ 56 : Nat)) = some f ∧ tagged (w64 ((0x8000000000054050 : W64).toNat % 256 * 2 ^ 56 : Nat)) = some g ∧
         f.blog = 0 ∧ (encodeRow g.fmt g.blog (decodeRow f.fmt f.blog (65536 * 8 / f.fmt.bits) (s.physBytes (pRo.pa 0xA0000 / 65536 * 65536) 65536))).length ≤ 65536) ∧
    (let s := migrating 0xA0000 0x8000000000054010
     ∃ f g, tagged (w64 ((0x8000000000054010 : W64).toNat / 2 ^ 8 % 256 * 2 ^ 56 : Nat)) = some f ∧ tagged (w64 ((0x8000000000054010 : W64).toNat % 256 * 2 ^ 56 : Nat)) = some g ∧
       f.blog = 0 ∧ 65536 < (encodeRow g.fmt g.blog (decodeRow f.fmt f.blog (65536 * 8 / f.fmt.bits) (s.physBytes (pRo.pa 0xA0000 / 65536 * 65536) 65536))).length) ∧
    MigFails 0x8000000000050101 (some pRo) 5 := by
  refine ⟨?_, ⟨?_, ?_, ?_, ?_, ?_, ?_, ?_, ?_, .inr ⟨_, rfl, ?_, .inr ⟨?_, rfl, .inl ?_⟩⟩⟩, ?_, ?_, ?_, .inl ⟨rfl, fun e he => ?nor⟩,
    ⟨?_, ?_, ?_, ?_, ?_, ⟨.e4m3, 0, 0⟩, ⟨.e5m2, 0, 0⟩, ?_, ?_, rfl, ?le⟩, ⟨⟨.e4m3, 0, 0⟩, ⟨.fp32, 0, 0⟩, ?_, ?_, rfl, ?gt⟩, .inr ⟨_, rfl, ?_, .inr ⟨?_, rfl, .inr ⟨rfl, ?_, .inl ?_⟩⟩⟩⟩
  case nor => rw [show (migrating 0x60000 0x4000000000050000).walk 5 0x60000 = some pVit by decide +kernel] at he; cases he; unfold Moves; decide +kernel
  case le => rw [recoded_length _ _ rfl]; decide +kernel
  case gt => rw [recoded_length _ _ rfl]; decide +kernel
  all_goals (try unfold NextRequest); (try unfold Moves); (try unfold Apart); decide +kernel

/-- A page that migrates with a copy: the home order of one of its words, a decrement on its way to it, and a poisoned line go along. -/
theorem witness_Migration_carried :
    let s := { migrating 0x30000 0x4000000000050000 with
      locs := [(5 * 2 ^ 53 + 0x6060, ⟨0x130300, [], 0, 0⟩)], decs := [(5, 0x30300, 0x130300)], poison := [0x130300 / 128] }
    NextRequest s 0x180000 0x30000 0x4000000000050000 0x200000 ∧ (∀ e ∈ s.locs, e.2.dirty = 0) ∧ s.walk 5 0x30000 = some pPriv ∧
      Table.find? (5 * 2 ^ 53 + 0x6060) s.locs = some ⟨0x130300, [], 0, 0⟩ ∧ InPage 5 0x30000 0 (5 * 2 ^ 53 + 0x6060) ∧
      0x130300 / 65536 = pPriv.pa 0x30000 / 65536 ∧ 0x30300 / 65536 = (0x30000 : VA).toNat / 65536 ∧ pPriv.pa 0x30000 / 65536 * 512 + 6 ∈ s.poison := by
  unfold NextRequest InPage; decide +kernel

/-! ### Retirement and firmware -/

/-- `n` corrected errors of the first row of the first port, all in the last second. -/
def eccs (n : Nat) : State := { base with ecc := [(2 ^ 60, List.replicate n 0)] }
theorem rowAt {pa : Nat} (h : 2 ^ 40 ≤ pa ∧ pa < 5 * 2 ^ 40) : RowAt pa (w64 (2 ^ 60 + (pa / 2 ^ 40 - 1) * 2 ^ 56 + pa % 2 ^ 40 / 2 ^ 16 : Nat))
    ((List.range 512).map fun i => pa / 65536 * 512 + i) := .inr ⟨h.1, h.2, rfl, rfl⟩
theorem witness_Retirement : base.regs.fwstat ≠ 2 ∧
    (let s : State := { base with regs := { base.regs with fwstat := 2 } }
     s.regs.fwstat = 2 ∧ s.regs.rlctl.getLsbD 63 = false) ∧
    (let s : State := { base with regs := { base.regs with rlctl := 0x8000000000000000 } }
     s.regs.rlctl.getLsbD 63 = true ∧ ¬ BaseBad s.regs.rlbase ∧ ¬ BaseBad s.regs.plbase) ∧
    BaseBad 0x20 ∧ BaseBad 0x8000000000 ∧ ¬ BaseBad 0x7FFFFFFFC0 ∧ (∀ e ls, ¬ RowAt (2 ^ 39) e ls) ∧ (∀ e ls, ¬ RowAt (5 * 2 ^ 40) e ls) ∧
    (∃ e ls, RowAt (2 ^ 40) e ls ∧ e.toNat = 2 ^ 60 ∧ 15 ≤ (((Table.find? e.toNat (eccs 15).ecc).getD []).filter fun u => (eccs 15).now / 3000 ≤ u + 1000).length ∧
      (((Table.find? e.toNat (eccs 14).ecc).getD []).filter fun u => (eccs 14).now / 3000 ≤ u + 1000).length < 15) ∧
    RowAt (2 ^ 39 - 1) (Config.rowOf (2 ^ 39 - 1)) ((2 ^ 39 - 1) / 128 :: Config.rowLines (Config.rowOf (2 ^ 39 - 1))) ∧
    (aged.core 0).lineAt 5 (0x40000 / 128) = some ⟨5, 0x40000 / 128, 13, true, 15, 0, 0⟩ ∧ (base.core 0).lineAt 5 (0x40000 / 128) = none ∧
    (base.ctx 0 0).live = true ∧ (base.core 0).on ≠ none ∧ (base.ctx 0 1).live = false ∧ ((stored 1).core 0).biv = some (Image.empty 1) ∧ (base.core 0).biv = none := by
  refine ⟨?_, ?_, ?_, ?_, ?_, ?_, ?n39, ?n5, ⟨_, _, rowAt ?_, ?_⟩, .inl ⟨?_, rfl, rfl⟩, ?_⟩
  case n39 => rintro e ls (h | h) <;> omega
  case n5 => rintro e ls (h | h) <;> omega
  all_goals (try unfold BaseBad); decide +kernel
/-- Granules of the save bank are its words 0 to 2047, 64 apiece. -/
theorem witness_Retirement_saveBank : GranuleWord 608 0 ∧ GranuleWord 639 2047 ∧ ¬ GranuleWord 607 0 ∧ ¬ GranuleWord 640 2048 := by
  unfold GranuleWord; omega
/-- A firmware image of 8256 bytes at 0 whose handler image begins at 64. -/
def firmware : State := { base with mem := words [(0, 0x0000000746574E58), (8, 0x2040), (16, 0)], regs := { base.regs with fwstat := 1 } }
theorem witness_FirmwareAndAttestation : base.regs.fwstat ≠ 1 ∧ base.regs.fwstat ≠ 2 ∧ firmware.regs.fwstat = 1 ∧ ¬ HeaderBad firmware ∧
    (let s : State := { base with regs := { base.regs with fwstat := 1 } }
     s.regs.fwstat = 1 ∧ HeaderBad s) ∧
    (let s : State := { base with regs := { base.regs with fwstat := 0x81 } }
     s.regs.fwstat ≠ 0 ∧ s.regs.fwstat ≠ 1 ∧ s.regs.fwstat ≠ 2) ∧ base.regs.fwstat = 0 ∧ base.regs.attctl.getLsbD 63 = false ∧
    ({ base with regs := { base.regs with attctl := 0x8000000000000000 } } : State).regs.attctl.getLsbD 63 = true := by unfold HeaderBad; decide +kernel

/-! ### Halts, resets and the host -/

theorem witness_HaltsAndThermalLevels :
    (let s := paged []
     (s.core 0).on = some 0 ∧ ((s.core 0).slot 0).v = true ∧ ((s.core 0).slot 0).bound = true ∧ ((s.core 0).slot 0).ctxloc = 0 ∧
       (∀ e ∈ (s.core 0).slots, e.1 ≠ 0 → e.2.ctxloc = 2 ∨ e.2.ctxloc = 3) ∧ Table.ascending (s.core 0).slots = true ∧ Uncounted s ((s.core 0).slot 0).asid 0x40100 ∧
       s.walk ((s.core 0).slot 0).asid 0x40100 = some pShared ∧ InPlace s ((s.core 0).slot 0).asid (0x40100 + 8) pShared) ∧
    ((base.core 1).on = none ∧ ∀ e ∈ (base.core 1).slots, e.2.v = false) ∧
    (let s : State := { slot (fun t => { t with wd := 4 }) base with queues := [(0, { QBlock.init with slice := 3, qmask := 1 })] }
     (s.core 0).on = some 0 ∧ (s.queueOf ((s.core 0).slot 0).queue.toNat).slice.toNat % 2 ^ 32 = 3 ∧ 3 < ((s.core 0).slot 0).wd ∧ (∃ c, Table.find? 0 s.cores = some c) ∧
       (s.queueOf ((s.core 0).slot 0).queue.toNat).qmask.getLsbD (0 / 8) = true) ∧
    (let s : State := { slot (fun t => { t with wd := 4 }) (paged []) with queues := [(0, { QBlock.init with slice := 3, qmask := 1 })] }
     let u := (s.core 0).slot 0
     (s.core 0).on = some 0 ∧ (s.queueOf u.queue.toNat).slice.toNat % 2 ^ 32 < u.wd ∧ u.v = true ∧ u.bound = true ∧ u.ctxloc.toNat < 2 ∧
       (s.queueOf u.queue.toNat).qmask.getLsbD (0 / 8) = true ∧ s.recs = [] ∧
       (∀ e ∈ s.cores, (s.queueOf u.queue.toNat).qmask.getLsbD (e.1 / 8) = true → ∀ x ∈ e.2.slots, x.2.v = true → x.2.bound = true → x.2.ctxloc.toNat < 2 → (e.1, x.1) = (0, 0)) ∧
       s.walk u.asid 0x40100 = some pShared ∧ InPlace s u.asid (0x40100 + 8) pShared) ∧
    ((slot (fun t => { t with wd := 3 }) base).core 0).slot 0 = { task with wd := 3 } ∧ base.thermal = 0 ∧ ¬ 104 ≤ 99 ∧ 104 ≤ 104 ∧ 100 ≤ 103 ∧ 95 ≤ 95 ∧ ¬ 96 ≤ 95 := by
  refine ⟨⟨?_, ?_, ?_, ?_, ?_, ?_, ?_, ?_, inPlace ?_⟩, ?_, ⟨?_, ?_, ?_, ⟨_, rfl⟩, ?_⟩, ⟨?_, ?_, ?_, ?_, ?_, ?_, ?_, ?_, ?_, inPlace ?_⟩, ?_⟩
  all_goals (try unfold Uncounted); decide +kernel
/-- Function 0 owns identifier 5 and queue 0; a READY TCB of its record; a function under reset with a held write. -/
def owned (ws : List (Nat × W64)) : State := queueing queue0 ws
theorem witness_Resets : (0 : BitVec 6).toNat ∉ (owned []).flr ∧ (owned []).func 0 = ⟨1, 0x0028014000000000, false⟩ ∧ cfgField ((owned []).queueOf 0) 32 6 = 0 ∧
    (∃ c, Table.find? 0 (owned []).cores = some c ∧ c.on = some 0 ∧ (c.slot 0).v = true ∧ ((owned []).func 0).w18.toNat / 2 ^ 38 % 2 ^ 13 ≤ (c.slot 0).asid.toNat ∧
      (c.slot 0).asid.toNat ≤ ((owned []).func 0).w18.toNat / 2 ^ 51) ∧
    (let r := { settled 1 0 0 0 false with waiting := [0x40300] }
     let s := slot (fun t => { t with asid := 9 }) { owned [(0x140308, 2)] with recs := [r] }
     s.recs = [r] ∧ r.waiting = [(0x40300 : VA).toNat] ∧ r.rcomp = 0 ∧ s.walk r.asid 0x40300 = some pShared ∧ InPlace s r.asid (0x40300 + 8) pShared ∧
       (stateAt s r.asid 0x40300 pShared).toNat % 256 = 2 ∧ ∀ e ∈ s.cores, ∀ x ∈ e.2.slots, ¬ x.2.asid.toNat ≤ (s.func 0).w18.toNat / 2 ^ 51) ∧
    (let s := owned []
     let u := (s.core 0).slot 0
     u.v = true ∧ u.bound = true ∧ s.recs = [] ∧ (s.func 0).w18.toNat / 2 ^ 38 % 2 ^ 13 ≤ u.asid.toNat ∧ u.asid.toNat ≤ (s.func 0).w18.toNat / 2 ^ 51 ∧
       (∀ e ∈ s.cores, ∀ x ∈ e.2.slots, x.2.v = true → (s.func 0).w18.toNat / 2 ^ 38 % 2 ^ 13 ≤ x.2.asid.toNat → (e.1, x.1) = (0, 0)) ∧
       s.walk u.asid 0x40100 = some pShared ∧ InPlace s u.asid (0x40100 + 8) pShared) ∧
    (let s : State := { owned [] with flr := [0] }
     (0 : BitVec 6).toNat ∈ s.flr ∧ (∀ w ∈ s.flrWrites, w.1 ≠ (0 : BitVec 6).toNat) ∧ Table.find? 0 s.queues = some queue0) ∧
    (let s : State := { base with flr := [0], flrWrites := [(0, .bar none 0x10008, 4, 1)] }
     s.flr = [(0 : BitVec 6).toNat] ∧ s.flrWrites = [((0 : BitVec 6).toNat, .bar none 0x10008, 4, 1)] ∧ s.queues = []) := by
  refine ⟨?_, ?_, ?_, ⟨_, rfl, ?_⟩, ⟨?_, ?_, ?_, ?_, inPlace ?_, ?_⟩, ⟨?_, ?_, ?_, ?_, ?_, ?_, ?_, inPlace ?_⟩, ?_⟩
  all_goals decide +kernel
/-- A core of the function to which one of its tasks is on its way while another of its tasks is in the bivouac. -/
theorem witness_Resets_incoming :
    let s := core (fun c => { c with incoming := some 0, biv := some (Image.empty 0) }) (owned [])
    let c := s.core 0
    Table.find? 0 s.cores = some c ∧ c.incoming = some 0 ∧ (c.slot 0).v = true ∧ (c.slot 0).bound = true ∧ c.biv = some (Image.empty 0) ∧
      (s.func 0).w18.toNat / 2 ^ 38 % 2 ^ 13 ≤ (c.slot 0).asid.toNat ∧ (c.slot 0).asid.toNat ≤ (s.func 0).w18.toNat / 2 ^ 51 := by decide +kernel
/-- A function reads the block that is its own, and not another's. -/
theorem witness_HostReads : (∀ f : BitVec 6, some 0 = some f → f.toNat = cfgField ((owned []).queueOf 0) 32 6) ∧
    (5 : BitVec 6).toNat ≠ cfgField ((owned []).queueOf 0) 32 6 := by decide +kernel
theorem witness_HostWrites : HostReg 0x188 (·.heatctl) 0x800000000000001F ∧ 0x18C / 8 * 8 = 0x188 ∧ 0x18C % 8 + 4 ≤ 8 ∧ HostReg 0x180 (·.heatbase) 0xFFFFFFFFFFFFFFFF ∧
    base.regs.xreg.getLsbD 63 = false ∧ (invalidating 0x8000000000000005 base).regs.xreg.getLsbD 63 = true ∧ (0x8000000000000005 : W64).getLsbD 63 = true ∧ ¬ NotItsRange base none ∧
    (let s : State := { base with regs := { base.regs with migctl := 0x8000000000000000 } }
     s.regs.migctl.getLsbD 63 = true ∧ s.regs.mighead ≠ (1 : W64).setWidth 32) ∧
    (63 < 64 ∧ 3 < 4 ∧ 63 ∉ base.flr) ∧
    (let s := queueing queue0 []
     (s.queueOf 0).func ∉ s.flr ∧ (s.queueOf 0).en = true ∧ (base.queueOf 63).en = false ∧ (base.queueOf 63).func ∉ base.flr ∧ (0xC000000000000000 : W64).getLsbD 63 = (s.queueOf 0).en ∧
       ((0xC000000000000000 : W64) >>> 40).setWidth 16 = (s.queueOf 0).errvec ∧ (0 : W64).getLsbD 63 ≠ (s.queueOf 0).en ∧ (0 : W64).getLsbD 62 = false ∧ Table.find? 0 s.queues = some queue0 ∧
       Table.ascending s.queues = true) ∧
    (let b := { QBlock.init with errvec := 0x8000 }
     let s : State := { base with queues := [(0, b)] }
     ((0x0080000000000000 : W64) >>> 40).setWidth 16 = b.errvec ∧ Table.find? 0 s.queues = some b ∧ (0x0080000000000000 : W64).getLsbD 62 = false) ∧
    (5 : BitVec 6).toNat ≠ cfgField ((queueing queue0 []).queueOf ((0x10000 - 0x10000) / 64)) 32 6 ∧
    (let s : State := { base with flr := [0] }
     (s.queueOf 0).func ∈ s.flr) ∧
    (base.flr = [] ∧ ∀ r ∈ base.recs, ∀ a ∈ r.waiting, False) ∧
    (let r := { settled 1 0 0 0 false with waiting := [0x40300] }
     let s : State := { tcbAt3 2 0 with recs := [r] }
     s.flr = [] ∧ r ∈ s.recs ∧ 0x40300 ∈ r.waiting ∧ s.walk r.asid (BitVec.ofNat 56 0x40300) = some pShared ∧
       1 ≤ (stateAt s r.asid (BitVec.ofNat 56 0x40300) pShared).toNat % 256 ∧ (stateAt s r.asid (BitVec.ofNat 56 0x40300) pShared).toNat % 256 ≤ 3 ∧
       0x140308 ≤ pShared.pa (BitVec.ofNat 56 0x40300) + 8 ∧ pShared.pa (BitVec.ofNat 56 0x40300) + 8 < 0x140308 + 1) := by
  refine ⟨.heatctl, ?_, ?_, .heatbase, ?_, ?_, ?_, not_its rfl, ?_⟩
  all_goals decide +kernel

/-! ### The machine as a whole -/

/-- The word `ADD g3, g4, g5` in the instruction cache; a word that decodes to nothing; a context that is not ready. -/
def cached (w : W32) : State := core (fun c => { c with icache := [(byteKey 5 0x10000, w)] }) base
theorem idle_of {s : State} (h : s.queue.head?.all (fun e => decide (s.now < e.1)) = true) : Idle s := by
  intro e he; rw [he] at h; exact .inl (by simpa using h)
theorem witness_StepRunsTheDecodedWord :
    (let s := cached 0x00190A01
     Idle s ∧ s.pick = some (0, 0, .word (.add 0 3 4 5)) ∧ (s.ctx 0 0).waiting = none ∧ s.fetched 0 0 = some 0x00190A01 ∧
       s.turnOf 0 0 = some (.word (.add 0 3 4 5)) ∧ (0, s.core 0) ∈ s.cores ∧
       s.mayIssue 0 0 = true ∧ (s.ctx 0 0).faulted = false ∧ decode 0x00190A01 = some (.add 0 3 4 5) ∧ s.unparked 0 0 (.add 0 3 4 5) = true ∧
       s.interlocked 0 0 (.add 0 3 4 5) = false) ∧
    ((cached 0).pick = some (0, 0, .bad 0) ∧ (cached 0).mayIssue 0 0 = true ∧ (cached 0).fetched 0 0 = some 0 ∧ decode 0 = none) ∧
    base.pick = some (0, 0, .fetch) ∧ (me (fun c => { c with fault := some ⟨⟨0x18, 0, 0, 0⟩, 0, false⟩ }) base).pick = some (0, 0, .imprecise) ∧
    (me (fun c => { c with readyAt := 1 }) base).pick = none ∧ Idle base ∧ Idle State.reset ∧
    (let s := me (fun c => { c with park := .belay .rope 0 0, word := some (.add 0 3 4 5) }) (cached 0)
     s.mayIssue 0 0 = true ∧ (s.ctx 0 0).waiting = some (.add 0 3 4 5) ∧ s.unparked 0 0 (.add 0 3 4 5) = false) ∧
    (let s := me (fun c => { c with park := .drain, word := some (.add 0 3 4 5) }) (cached 0)
     s.pick = some (0, 0, .word (.add 0 3 4 5)) ∧ (s.ctx 0 0).waiting = some (.add 0 3 4 5)) ∧
    (let s : State := { cached 0x00190A01 with queue := [(0, .wfeTimeout 0 1 7)] }
     ∀ e, s.queue.head? = some e → AfterWords e.2 ∧ s.pick ≠ none) ∧
    (let s : State := { me (fun c => { c with readyAt := 1 }) base with queue := [(0, .wfeTimeout 0 1 7)] }
     s.pick = none ∧ ∀ e ∈ s.queue, e.1 ≤ s.now) ∧
    (let s := core (fun c => { c with renewing := [(3, 0), (4, 8)] }) (me (fun c => { c with readyAt := 1 }) base)
     s.pick = none ∧ Idle s ∧ (∃ e ∈ (s.core 0).renewing, e.1 = 3 ∧ e.2 ≤ s.now) ∧ ((s.core 0).banks.granAt 3).exp = false ∧
       (s.tick - ((s.core 0).banks.granAt 3).stamp).toNat ≤ 60) ∧
    EvIs (.tick) (.tick) ∧ ({ base with queue := [(0, .tick)] } : State).queue = [(0, .tick)] ∧ 0 ≤ base.now := by
  refine ⟨⟨idle_of ?_, ?_⟩, ?_, ?_, ?_, ?_, idle_of ?_, idle_of ?_, ?_, ?_, ?_, ?_, ⟨?_, idle_of ?_, ?_⟩, .tick, ?_⟩
  case refine_11 => rintro s e h; cases h; exact ⟨trivial, by decide +kernel⟩
  all_goals decide +kernel
theorem witness_DecodeEncode : Instr.wf (.add 0 31 0 5) = true ∧ encode (.add 0 31 0 5) = some 0x00F80A01 ∧ decode 0x00F80A01 = some (.add 0 31 0 5) := by decide +kernel
theorem witness_MemoryStaysCanonical : Memory.wf (paged []).mem = true ∧ ∃ t, step (paged []) = .next t := ⟨by decide +kernel, _, rfl⟩

end Sys2Proof.Tests
end

section
/-! SUPPORT. What the device agent's accesses at home do (R11, R25, R366): the parts of the machine that a store leaves alone,
and what a word reads after a store to it and to another word. -/

namespace Sys2Proof.Machine

/-! ### Tables -/

theorem Table.find_map {α β : Type} (f : α → β) (k : Nat) (t : Table α) :
    Table.find? k (t.map fun e => (e.1, f e.2)) = (Table.find? k t).map f := by
  induction t with
  | nil => rfl
  | cons e t ih => simp only [List.map_cons, Table.find?]; split <;> simp [ih]
theorem Table.mem_put_self {α : Type} (k : Nat) (v : α) (t : Table α) : (k, v) ∈ Table.put k v t := by
  induction t with
  | nil => simp [Table.put]
  | cons e t ih =>
    rw [Table.put]; split
    · exact List.mem_cons_self
    · split
      · exact List.mem_cons_self
      · exact List.mem_cons_of_mem _ ih
theorem Table.mem_put_of_ne {α : Type} {k : Nat} {e : Nat × α} (v : α) {t : Table α} (h : e ∈ t) (hk : e.1 ≠ k) : e ∈ Table.put k v t := by
  induction t with
  | nil => cases h
  | cons x t ih =>
    simp only [Table.put]; split
    · exact List.mem_cons_of_mem _ h
    · split
      · rcases List.mem_cons.1 h with rfl | h
        · exact absurd ‹_› hk.symm
        · exact List.mem_cons_of_mem _ h
      · rcases List.mem_cons.1 h with rfl | h
        · exact List.mem_cons_self
        · exact List.mem_cons_of_mem _ (ih h)

/-! ### Bytes of a word -/

theorem byteBits_or (a b : BitVec 8) : byteBits (a ||| b) = byteBits a ||| byteBits b := by
  have h : ∀ (p q : Bool) (x : W64), (if (p || q) = true then x else 0) = (if p = true then x else 0) ||| (if q = true then x else 0) := by
    intro p q x; cases p <;> cases q <;> simp
  simp only [byteBits, BitVec.getLsbD_or, h]
  ac_rfl
/-- Bits put into a word through a mask. -/
theorem masked_bits (old new m d p : W64) :
    ((((old &&& d) ||| (p &&& ~~~d)) &&& ~~~m ||| (new &&& m)) &&& (d ||| m)) ||| (p &&& ~~~(d ||| m)) =
      ((old &&& d) ||| (p &&& ~~~d)) &&& ~~~m ||| (new &&& m) := by
  ext i hi
  simp only [BitVec.getElem_or, BitVec.getElem_and, BitVec.getElem_not]
  cases old[i] <;> cases new[i] <;> cases m[i] <;> cases d[i] <;> cases p[i] <;> rfl
theorem overlaid_bits (old d p : W64) : (old &&& d) ||| (((old &&& d) ||| (p &&& ~~~d)) &&& ~~~d) = (old &&& d) ||| (p &&& ~~~d) := by
  ext i hi
  simp only [BitVec.getElem_or, BitVec.getElem_and, BitVec.getElem_not]
  cases old[i] <;> cases d[i] <;> cases p[i] <;> rfl
/-- A mask that names whole bytes, at least one. -/
def WholeBytes (m : W64) : Prop := byteBits (touched m) = m ∧ touched m ≠ 0
theorem wholeBytes_eight : WholeBytes (spanBits 0 8) := by unfold WholeBytes; decide +kernel
theorem wholeBytes_four : WholeBytes (spanBits 0 4) := by unfold WholeBytes; decide +kernel

/-! ### Translation -/

section
variable {s t : State} (hm : t.mem = s.mem)
include hm

theorem State.phys64_same (pa : Nat) : t.phys64 pa = s.phys64 pa := by rw [State.phys64, State.phys, hm]; rfl
theorem State.bucketScan_same (base z : Nat) (va : VA) (n : Nat) : t.bucketScan base z va n = s.bucketScan base z va n := by
  induction n with
  | zero => rfl
  | succ n ih => simp only [State.bucketScan, State.phys64_same hm, ih]
theorem State.keyScan_same (base log z b : Nat) (va : VA) (n : Nat) : t.keyScan base log z b va n = s.keyScan base log z b va n := by
  induction n with
  | zero => rfl
  | succ n ih => simp only [State.keyScan, State.bucketScan_same hm, ih]
/-- A walk reads memory and the base of the identifier table. -/
theorem State.walk_same (hr : t.regs = s.regs) (asid : Asid) (va : VA) : t.walk asid va = s.walk asid va := by
  have hid (off : Nat) : t.idWord asid off = s.idWord asid off := by rw [State.idWord, State.phys64_same hm, hr]; rfl
  have hlog : t.ptLog asid = s.ptLog asid := by rw [State.ptLog, hid]; rfl
  have hbase : t.ptBase asid = s.ptBase asid := by rw [State.ptBase, hid]; rfl
  simp only [State.walk, hlog, hbase, State.keyScan_same hm]
end

/-! ### Locations -/

@[simp] theorem State.overlay_clean (s : State) (l : Loc) (h : l.dirty = 0) : s.overlay l = s.phys64 l.pa := by
  rw [State.overlay, h, show byteBits 0 = 0#64 from rfl, BitVec.and_zero, BitVec.zero_or, BitVec.not_zero, BitVec.and_allOnes]
theorem State.synced_frame (s : State) (l : Loc) :
    (s.synced l).pa = l.pa ∧ (s.synced l).dirty = l.dirty ∧ (s.synced l).latest = s.overlay l := by
  rw [State.synced]; split
  · rename_i h; exact ⟨rfl, rfl, h.symm⟩
  · exact ⟨rfl, rfl, rfl⟩
@[simp] theorem State.loc_setLoc (s : State) (key pa : Nat) (l : Loc) : (s.setLoc key l).loc key pa = l := by
  simp [State.loc, State.setLoc]
@[simp] theorem State.setLoc_setLoc (s : State) (key : Nat) (l k : Loc) : (s.setLoc key l).setLoc key k = s.setLoc key k := by
  simp [State.setLoc]
@[simp] theorem State.setLoc_phys64 (s : State) (key : Nat) (l : Loc) (pa : Nat) : (s.setLoc key l).phys64 pa = s.phys64 pa := rfl
@[simp] theorem State.heatUp_mem (s : State) (pa : Nat) (w : Bool) : (s.heatUp pa w).mem = s.mem := by rw [State.heatUp_eq]
@[simp] theorem State.heatUp_locs (s : State) (pa : Nat) (w : Bool) : (s.heatUp pa w).locs = s.locs := by rw [State.heatUp_eq]
@[simp] theorem State.publish_mem (s : State) (a : Nat) (sc : Scope) (f : Table Nat) : (s.publish a sc f).mem = s.mem := by
  rw [State.publish]; split <;> rfl
@[simp] theorem State.publish_locs (s : State) (a : Nat) (sc : Scope) (f : Table Nat) : (s.publish a sc f).locs = s.locs := by
  rw [State.publish]; split <;> rfl
theorem State.through_dirty {s : State} {key : Nat} {l : Loc} (h : Table.find? key s.locs = some l) (hd : l.dirty ≠ 0) :
    s.through key = ((s.setPhys l.pa 8 (s.overlay l).toNat).setLoc key { l with dirty := 0 }).heatUp l.pa true := by
  simp only [State.through, h, State.writeBack, if_neg hd]
theorem State.phys64_setPhys_other (s : State) {pa a : Nat} (x : Nat) (h : a + 8 ≤ pa ∨ pa + 8 ≤ a) :
    (s.setPhys pa 8 x).phys64 a = s.phys64 a := congrArg (BitVec.ofNat 64) (s.phys_setPhys_other x h)

/-! ### A word at home -/

/-- The word of an address as its home holds it. -/
def State.homeWord (s : State) (asid : Asid) (va : VA) (e : Pte) : W64 :=
  if hasOrder e (e.pa va) then s.overlay (s.loc (wordKey asid va) (e.pa va)) else s.phys64 (e.pa va / 8 * 8)
/-- The place in memory that its write-back goes to. -/
def State.homePlace (s : State) (asid : Asid) (va : VA) (e : Pte) : Nat :=
  if hasOrder e (e.pa va) then (s.loc (wordKey asid va) (e.pa va)).pa else e.pa va / 8 * 8
theorem State.devRead_eq (s : State) (asid : Asid) (va : VA) (size : Nat) (e : Pte) :
    s.devRead asid va size e = (s.homeWord asid va e >>> (8 * (va.toNat % 8))) &&& spanBits 0 size := rfl
theorem State.homeWord_congr {s t : State} (hm : t.mem = s.mem) (hl : t.locs = s.locs) (asid : Asid) (va : VA) (e : Pte) :
    t.homeWord asid va e = s.homeWord asid va e := by
  simp only [State.homeWord, State.overlay, State.loc, State.phys64, State.phys, hm, hl]
theorem State.devRead_congr {s t : State} (hm : t.mem = s.mem) (hl : t.locs = s.locs) (asid : Asid) (va : VA) (size : Nat) (e : Pte) :
    t.devRead asid va size e = s.devRead asid va size e := by
  rw [State.devRead_eq, State.devRead_eq, State.homeWord_congr hm hl]
/-- A word after some of its bits are stored. -/
def storedWord (old : W64) (va : VA) (size : Nat) (x : W64) : W64 :=
  let m := spanBits 0 size <<< (8 * (va.toNat % 8))
  (old &&& ~~~m) ||| ((x <<< (8 * (va.toNat % 8))) &&& m)

section
variable (s : State) (f : Table Nat) (asid : Asid) (va : VA) (size : Nat) (x : W64) (e : Pte)

/-- A store at the home of a word that has a home order: the new word stands in memory, and no dirty byte of it is left. -/
theorem State.homeStore_ordered (h : hasOrder e (e.pa va) = true) (hw : WholeBytes (spanBits 0 size <<< (8 * (va.toNat % 8)))) :
    let l := s.loc (wordKey asid va) (e.pa va)
    let new := storedWord (s.homeWord asid va e) va size x
    (s.homeStore f asid va size x e).2 =
      ((s.setPhys l.pa 8 new.toNat).setLoc (wordKey asid va) { s.synced l with vers := ⟨new, s.now⟩ :: (s.synced l).vers, dirty := 0 }).heatUp l.pa true := by
  intro l new
  obtain ⟨hpa, hdirty, hlatest⟩ := s.synced_frame l
  have hword : s.homeWord asid va e = s.overlay l := by simp [State.homeWord, h, l]
  let d := l.dirty ||| touched (spanBits 0 size <<< (8 * (va.toNat % 8)))
  have hd : d ≠ 0 := fun e0 => hw.2 (BitVec.or_eq_zero_iff.1 e0).2
  let l' : Loc := { s.synced l with vers := ⟨new, s.now⟩ :: (s.synced l).vers, dirty := d }
  have hover : (s.setLoc (wordKey asid va) l').overlay l' = new := by
    show (new &&& byteBits d) ||| (s.phys64 (s.synced l).pa &&& ~~~ byteBits d) = new
    rw [hpa, byteBits_or, hw.1]
    simp only [new, hword, storedWord, State.overlay]
    exact masked_bits _ _ _ _ _
  have hstore : ((s.setLoc (wordKey asid va) (s.synced l)).storeAt f asid va size x (spanBits 0 size) e (e.pa va)).2 =
      s.setLoc (wordKey asid va) l' := by
    simp only [State.storeAt, h, Bool.not_true, Bool.false_eq_true, if_false, State.loc_setLoc, State.setLoc_setLoc, hdirty, hlatest]
    simp only [l', d, new, hword, storedWord]; rfl
  have hfind : Table.find? (wordKey asid va) (s.setLoc (wordKey asid va) l').locs = some l' := by simp [State.setLoc]
  simp only [State.homeStore, h, if_true]
  rw [hstore, State.through_dirty hfind hd, hover]
  conv => rhs; rw [← hpa]
  exact congrArg (State.heatUp · l'.pa true) (State.setLoc_setLoc (s.setPhys l'.pa 8 new.toNat) (wordKey asid va) l' { l' with dirty := 0 })
/-- A store to a word that memory itself holds. -/
theorem State.homeStore_raw (h : hasOrder e (e.pa va) = false) :
    (s.homeStore f asid va size x e).2 =
      (s.setPhys (e.pa va / 8 * 8) 8 (storedWord (s.homeWord asid va e) va size x).toNat).heatUp (e.pa va) true := by
  simp [State.homeStore, State.storeAt, State.homeWord, h, storedWord]

theorem State.homeWord_homeStore (hw : WholeBytes (spanBits 0 size <<< (8 * (va.toNat % 8)))) :
    (s.homeStore f asid va size x e).2.homeWord asid va e = storedWord (s.homeWord asid va e) va size x := by
  cases h : hasOrder e (e.pa va)
  · rw [State.homeStore_raw s f asid va size x e h, State.homeWord_congr (State.heatUp_mem ..) (State.heatUp_locs ..)]
    rw [State.homeWord, h]; exact State.phys64_setPhys ..
  · rw [State.homeStore_ordered s f asid va size x e h hw, State.homeWord_congr (State.heatUp_mem ..) (State.heatUp_locs ..)]
    rw [State.homeWord, h, if_pos rfl, State.loc_setLoc, State.overlay_clean _ _ rfl, State.setLoc_phys64]
    rw [(s.synced_frame _).1]; exact State.phys64_setPhys ..

/-- A store leaves the words that lie apart from it. -/
theorem State.homeWord_homeStore_other (hw : WholeBytes (spanBits 0 size <<< (8 * (va.toNat % 8)))) {a : Asid} {v : VA} {g : Pte}
    (hk : wordKey a v ≠ wordKey asid va)
    (hp : s.homePlace a v g + 8 ≤ s.homePlace asid va e ∨ s.homePlace asid va e + 8 ≤ s.homePlace a v g) :
    (s.homeStore f asid va size x e).2.homeWord a v g = s.homeWord a v g := by
  have key : ∀ (t : State), t.phys64 (s.homePlace a v g) = s.phys64 (s.homePlace a v g) →
      Table.find? (wordKey a v) t.locs = Table.find? (wordKey a v) s.locs → t.homeWord a v g = s.homeWord a v g := by
    intro t hphys hfind
    simp only [State.homeWord, State.homePlace] at hphys ⊢
    cases ho : hasOrder g (g.pa v)
    · simpa [ho] using hphys
    · simp only [ho, if_true, State.loc, hfind] at hphys ⊢
      cases hl : Table.find? (wordKey a v) s.locs
      all_goals simp [hl, State.overlay, Loc.latest] at hphys ⊢
      all_goals rw [hphys]
  cases h : hasOrder e (e.pa va)
  · rw [State.homeStore_raw s f asid va size x e h, State.homeWord_congr (State.heatUp_mem ..) (State.heatUp_locs ..)]
    have : s.homePlace asid va e = e.pa va / 8 * 8 := by simp [State.homePlace, h]
    exact key _ (State.phys64_setPhys_other _ _ (this ▸ hp)) rfl
  · rw [State.homeStore_ordered s f asid va size x e h hw, State.homeWord_congr (State.heatUp_mem ..) (State.heatUp_locs ..)]
    have : s.homePlace asid va e = (s.loc (wordKey asid va) (e.pa va)).pa := by simp [State.homePlace, h]
    exact key _ (State.phys64_setPhys_other _ _ (this ▸ hp)) (Table.find_put_other hk _ _)

theorem szBits_cases (z : Nat) : szBits z = 0 ∨ szBits z = 5 ∨ szBits z = 14 := by
  unfold szBits; split
  · exact .inl rfl
  · split
    · exact .inr (.inl rfl)
    · exact .inr (.inr rfl)
theorem Pte.pa_mod_eight (e : Pte) (va : VA) : e.pa va % 8 = va.toNat % 8 := by
  rcases szBits_cases e.sz with h | h | h <;> simp only [Pte.pa, h] <;> omega
/-- A word that lies where its page says is written back there. -/
theorem State.homePlace_of_inPlace (h : InPlace s asid va e) : s.homePlace asid va e = e.pa va := by
  have ha : e.pa va / 8 * 8 = e.pa va := by have := e.pa_mod_eight va; have := h.1; omega
  rw [State.homePlace, State.loc, ha]; split
  · cases hf : Table.find? (wordKey asid va) s.locs with
    | none => rfl
    | some l => exact h.2 l hf
  · rfl

theorem State.find_homeStore_other (hw : WholeBytes (spanBits 0 size <<< (8 * (va.toNat % 8)))) {key : Nat} (hk : key ≠ wordKey asid va) :
    Table.find? key (s.homeStore f asid va size x e).2.locs = Table.find? key s.locs := by
  cases h : hasOrder e (e.pa va)
  · rw [State.homeStore_raw s f asid va size x e h, State.heatUp_locs]; rfl
  · rw [State.homeStore_ordered s f asid va size x e h hw, State.heatUp_locs, State.setLoc, Table.find_put_other hk]; rfl
/-- A word lies where its page says after a store too. -/
theorem State.homeStore_inPlace (hw : WholeBytes (spanBits 0 size <<< (8 * (va.toNat % 8)))) (hp : InPlace s asid va e) :
    InPlace (s.homeStore f asid va size x e).2 asid va e := by
  refine ⟨hp.1, fun l hl => ?_⟩
  cases h : hasOrder e (e.pa va)
  · rw [State.homeStore_raw s f asid va size x e h, State.heatUp_locs] at hl
    exact hp.2 l hl
  · have hplace := s.homePlace_of_inPlace asid va e hp
    rw [State.homePlace, h, if_pos rfl] at hplace
    rw [State.homeStore_ordered s f asid va size x e h hw, State.heatUp_locs, State.setLoc, Table.find_put_self] at hl
    cases hl
    exact (s.synced_frame _).1.trans hplace

/-- The device agent's store leaves memory and the words as a store at home does. -/
theorem State.devWrite_mem : (s.devWrite asid va size x e).mem = (s.homeStore [] asid va size x e).2.mem := by
  cases h : hasOrder e (e.pa va) <;> simp [State.devWrite, State.agentWrite, State.homeStore, h]
theorem State.devWrite_locs : (s.devWrite asid va size x e).locs = (s.homeStore [] asid va size x e).2.locs := by
  cases h : hasOrder e (e.pa va) <;> simp [State.devWrite, State.agentWrite, State.homeStore, h]
end

/-! ### STATE and PREDS after a store -/

theorem spanBits_eight : spanBits 0 8 = BitVec.allOnes 64 := by decide
theorem and_spanBits_four (x : W64) : (x &&& spanBits 0 4).toNat = x.toNat % 2 ^ 32 := by
  rw [BitVec.toNat_and, show (spanBits 0 4).toNat = 2 ^ 32 - 1 by decide, Nat.and_two_pow_sub_one_eq_mod]
theorem WholeBytes.aligned {va : VA} {size : Nat} (h : WholeBytes (spanBits 0 size)) (ha : va.toNat % 8 = 0) :
    WholeBytes (spanBits 0 size <<< (8 * (va.toNat % 8))) := by rwa [ha, Nat.mul_zero, BitVec.shiftLeft_zero]

section
variable (s : State) (f : Table Nat) (asid : Asid) {va : VA} (x : W64) (e : Pte)

theorem State.devRead_homeStore_eight (ha : va.toNat % 8 = 0) : (s.homeStore f asid va 8 x e).2.devRead asid va 8 e = x := by
  rw [State.devRead_eq, State.homeWord_homeStore _ _ _ _ _ _ _ (wholeBytes_eight.aligned ha), storedWord, ha]
  simp only [Nat.mul_zero, BitVec.shiftLeft_zero, BitVec.ushiftRight_zero, spanBits_eight, BitVec.not_allOnes, BitVec.and_zero,
    BitVec.zero_or, BitVec.and_allOnes]
theorem State.devRead_homeStore_four (ha : va.toNat % 8 = 0) :
    (s.homeStore f asid va 4 x e).2.devRead asid va 4 e = x &&& spanBits 0 4 := by
  rw [State.devRead_eq, State.homeWord_homeStore _ _ _ _ _ _ _ (wholeBytes_four.aligned ha), storedWord, ha]
  ext i hi
  simp only [Nat.mul_zero, BitVec.shiftLeft_zero, BitVec.ushiftRight_zero, BitVec.getElem_and, BitVec.getElem_or, BitVec.getElem_not]
  cases (spanBits 0 4)[i] <;> simp
theorem State.devRead_devWrite_eight (ha : va.toNat % 8 = 0) : (s.devWrite asid va 8 x e).devRead asid va 8 e = x := by
  rw [State.devRead_congr (State.devWrite_mem ..) (State.devWrite_locs ..), State.devRead_homeStore_eight s [] asid x e ha]
end

/-! ### What a store at home leaves of the machine -/

/-- Memory, the home orders, the heat counts and what is published may differ, and nothing else. -/
def OnlyHome (s t : State) : Prop := t = { s with mem := t.mem, locs := t.locs, heat := t.heat, pubs := t.pubs }

theorem OnlyHome.refl (s : State) : OnlyHome s s := rfl
theorem OnlyHome.trans {s t u : State} (h : OnlyHome s t) (k : OnlyHome t u) : OnlyHome s u := by
  rw [OnlyHome] at h k ⊢; rw [h] at k; exact k
section
variable {s t : State} (h : OnlyHome s t)
include h
theorem OnlyHome.now : t.now = s.now := by rw [h]
theorem OnlyHome.cores : t.cores = s.cores := by rw [h]
theorem OnlyHome.core (n : Nat) : t.core n = s.core n := by rw [h]; rfl
theorem OnlyHome.recs : t.recs = s.recs := by rw [h]
theorem OnlyHome.queues : t.queues = s.queues := by rw [h]
end
theorem State.setLoc_onlyHome (s : State) (key : Nat) (l : Loc) : OnlyHome s (s.setLoc key l) := rfl
theorem State.heatUp_onlyHome (s : State) (pa : Nat) (w : Bool) : OnlyHome s (s.heatUp pa w) := by
  rw [OnlyHome, State.heatUp_eq]
theorem State.publish_onlyHome (s : State) (a : Nat) (sc : Scope) (f : Table Nat) : OnlyHome s (s.publish a sc f) := by
  rw [State.publish]; split <;> rfl
theorem State.writeBack_onlyHome (s : State) (key : Nat) (l : Loc) : OnlyHome s (s.writeBack key l) := by
  rw [OnlyHome, State.writeBack_eq]
theorem State.through_onlyHome (s : State) (key : Nat) : OnlyHome s (s.through key) := by
  rw [State.through]
  split
  · split
    · exact .refl s
    · exact (s.writeBack_onlyHome ..).trans (State.heatUp_onlyHome ..)
  · exact .refl s
theorem State.storeAt_onlyHome (s : State) (f : Table Nat) (asid : Asid) (va : VA) (size : Nat) (x m : W64) (e : Pte) (pa : Nat) :
    OnlyHome s (s.storeAt f asid va size x m e pa).2 := by
  simp only [State.storeAt]; split <;> rfl
theorem State.homeStore_onlyHome (s : State) (f : Table Nat) (asid : Asid) (va : VA) (size : Nat) (x : W64) (e : Pte) :
    OnlyHome s (s.homeStore f asid va size x e).2 := by
  cases h : hasOrder e (e.pa va)
  · simp only [State.homeStore, h, Bool.false_eq_true, if_false]
    exact (State.storeAt_onlyHome ..).trans (State.heatUp_onlyHome ..)
  · simp only [State.homeStore, h, if_true]
    exact (s.setLoc_onlyHome ..).trans ((State.storeAt_onlyHome ..).trans (State.through_onlyHome ..))
theorem State.devWrite_onlyHome (s : State) (asid : Asid) (va : VA) (size : Nat) (x : W64) (e : Pte) :
    OnlyHome s (s.devWrite asid va size x e) := by
  cases h : hasOrder e (e.pa va)
  · simp only [State.devWrite, State.agentWrite, h, Bool.false_eq_true, if_false]
    exact (State.storeAt_onlyHome ..).trans (State.heatUp_onlyHome ..)
  · simp only [State.devWrite, State.agentWrite, h, if_true]
    exact (s.setLoc_onlyHome ..).trans ((State.storeAt_onlyHome ..).trans ((State.through_onlyHome ..).trans (State.publish_onlyHome ..)))
theorem State.setTcb_onlyHome (s : State) (asid : Asid) (tcb : VA) (f : W64 → W64) : OnlyHome s (s.setTcb asid tcb f) := by
  rw [State.setTcb]; split
  · exact State.devWrite_onlyHome ..
  · exact .refl s

/-! ### The device's changes of a TCB's STATE -/

theorem State.setTcb_of_walk {s : State} {asid : Asid} {tcb : VA} {e : Pte} (h : s.walk asid tcb = some e) (f : W64 → W64) :
    s.setTcb asid tcb f = s.devWrite asid (tcb + 8) 8 (f (stateAt s asid tcb e)) e := by
  rw [State.setTcb, h]; rfl
theorem stateAt_congr {s t : State} (hm : t.mem = s.mem) (hl : t.locs = s.locs) (asid : Asid) (tcb : VA) (e : Pte) :
    stateAt t asid tcb e = stateAt s asid tcb e := State.devRead_congr hm hl ..
theorem stateAt_setTcb {s : State} {asid : Asid} {tcb : VA} {e : Pte} (h : s.walk asid tcb = some e) (ha : (tcb + 8).toNat % 8 = 0)
    (f : W64 → W64) : stateAt (s.setTcb asid tcb f) asid tcb e = f (stateAt s asid tcb e) := by
  rw [State.setTcb_of_walk h]; exact State.devRead_devWrite_eight _ _ _ _ ha

end Sys2Proof.Machine
end

section
/-! SUPPORT. The ready lists, the records, queue errors and the call of the curator: what each leaves alone (R23, R72, R73). -/

namespace Sys2Proof.Machine

/-! ### Queues -/

@[simp] theorem State.queueOf_onQueue (s : State) (q : Nat) (f : QBlock → QBlock) : (s.onQueue q f).queueOf q = f (s.queueOf q) := by
  simp [State.queueOf, State.onQueue]
@[simp] theorem State.queueOf_onQueue_other (s : State) {p q : Nat} (h : p ≠ q) (f : QBlock → QBlock) :
    (s.onQueue q f).queueOf p = s.queueOf p := by simp [State.queueOf, State.onQueue, h]
/-- A field of a queue that an update of a queue keeps. -/
theorem State.queueOf_onQueue_field {α : Type} (s : State) (p q : Nat) {f : QBlock → QBlock} (g : QBlock → α) (h : ∀ b, g (f b) = g b) :
    g ((s.onQueue q f).queueOf p) = g (s.queueOf p) := by
  by_cases hp : p = q
  · subst hp; rw [State.queueOf_onQueue, h]
  · rw [State.queueOf_onQueue_other s hp]
theorem State.queueOf_unready (s : State) (asid : Asid) (tcb : VA) (p : Nat) :
    (s.unready asid tcb).queueOf p = { s.queueOf p with ready := (s.queueOf p).ready.filter fun t => t != (asid, tcb.toNat) } := by
  simp only [State.queueOf, State.unready]
  refine (congrArg (Option.getD · QBlock.init) (Table.find_map (fun b : QBlock => { b with ready := b.ready.filter fun t => t != (asid, tcb.toNat) }) p s.queues)).trans ?_
  cases Table.find? p s.queues <;> rfl
theorem State.not_mem_unready (s : State) (asid : Asid) (tcb : VA) (p : Nat) :
    (asid, tcb.toNat) ∉ ((s.unready asid tcb).queueOf p).ready := by simp [State.queueOf_unready]

/-! ### Records -/

theorem State.ended_uncounted {s : State} {asid : Asid} {tcb : VA} (h : Uncounted s asid tcb) (e : Ended) : s.ended asid tcb e = s := by
  have hnone : (s.recs.filter fun r => r.asid == asid && r.waiting.contains tcb.toNat) = [] := by
    simpa [List.filter_eq_nil_iff, Uncounted] using h
  rw [State.ended, hnone]; rfl

/-! ### The call of the curator -/

/-- The curator is called: nothing comes of it, or a bind is to come. -/
theorem State.callCurator_cases (s : State) : s.callCurator = s ∨
    ∃ n j a b c, s.callCurator = ({ s with fresh := s.fresh + 1 } : State).after s.lat.home (.curatorBind n j a b c) := by
  unfold State.callCurator
  split
  · exact .inl rfl
  · split
    · exact .inl rfl
    · split
      · exact .inl rfl
      · simp only [State.freshen]
        split
        · exact .inl rfl
        · exact .inr ⟨_, _, _, _, _, rfl⟩
theorem State.callCurator_eq (s : State) : s.callCurator = { s with queue := s.callCurator.queue, fresh := s.callCurator.fresh } := by
  rcases s.callCurator_cases with h | ⟨n, j, a, b, c, h⟩
  · rw [h]
  · rw [h]; rfl
theorem State.mem_callCurator {s : State} {x : Nat × Ev} (h : x ∈ s.queue) : x ∈ s.callCurator.queue := by
  rcases s.callCurator_cases with e | ⟨n, j, a, b, c, e⟩
  · rw [e]; exact h
  · rw [e]; exact State.mem_after_of_mem _ _ h
@[simp] theorem State.callCurator_mem (s : State) : s.callCurator.mem = s.mem := by rw [State.callCurator_eq]
@[simp] theorem State.callCurator_locs (s : State) : s.callCurator.locs = s.locs := by rw [State.callCurator_eq]
@[simp] theorem State.callCurator_cores (s : State) : s.callCurator.cores = s.cores := by rw [State.callCurator_eq]
@[simp] theorem State.callCurator_queues (s : State) : s.callCurator.queues = s.queues := by rw [State.callCurator_eq]
@[simp] theorem State.callCurator_msix (s : State) : s.callCurator.msix = s.msix := by rw [State.callCurator_eq]
@[simp] theorem State.callCurator_served (s : State) : s.callCurator.served = s.served := by rw [State.callCurator_eq]
@[simp] theorem State.callCurator_binds (s : State) : s.callCurator.binds = s.binds := by rw [State.callCurator_eq]
@[simp] theorem State.callCurator_core (s : State) (n : Nat) : s.callCurator.core n = s.core n := by simp [State.core]
@[simp] theorem State.callCurator_queueOf (s : State) (q : Nat) : s.callCurator.queueOf q = s.queueOf q := by simp [State.queueOf]

/-! ### Queue errors (R72) -/

theorem State.raiseVec_eq (s : State) (f vec : Nat) : s.raiseVec f vec = { s with msix := (s.raiseVec f vec).msix } := by
  rw [State.raiseVec]; split <;> split <;> rfl
@[simp] theorem State.raiseVec_queueOf (s : State) (f vec q : Nat) : (s.raiseVec f vec).queueOf q = s.queueOf q := by
  rw [State.raiseVec_eq]; rfl
theorem State.mem_raiseVec {s : State} {f vec : Nat} (hf : f < 64) (hv : vec < 64) (hm : (s.func f).masked = false) (hr : f ∉ s.flr) :
    (f, vec) ∈ (s.raiseVec f vec).msix := by
  have : f ≠ 64 := by omega
  simp [State.raiseVec, hv, hm, hr, this]
theorem QBlock.func_eq (b : QBlock) : b.func = cfgField b 32 6 := by
  simp [QBlock.func, cfgField, BitVec.extractLsb'_toNat, Nat.shiftRight_eq_div_pow]
theorem State.queueError_frame (s : State) (q err : Nat) (force : Bool) :
    s.queueError q err force = { s with queues := (s.queueError q err force).queues, msix := (s.queueError q err force).msix } := by
  simp only [State.queueError]; split
  · rw [State.raiseVec_eq]; rfl
  · split <;> rfl
theorem State.queueError_ready (s : State) (q err : Nat) (force : Bool) (p : Nat) :
    ((s.queueError q err force).queueOf p).ready = (s.queueOf p).ready := by
  have h : ((s.onQueue q fun b => { b with err := BitVec.ofNat 8 err }).queueOf p).ready = (s.queueOf p).ready :=
    s.queueOf_onQueue_field p q QBlock.ready fun _ => rfl
  simp only [State.queueError]; split
  · rw [State.raiseVec_queueOf, h]
  · split
    · exact h
    · rfl
theorem State.takesError_queueError (s : State) (q : Nat) {err : Nat} (h : err < 256) : TakesError s (s.queueError q err false) q err := by
  constructor
  · intro h0
    have hs : s.queueError q err false =
        (s.onQueue q fun b => { b with err := BitVec.ofNat 8 err }).raiseVec (cfgField (s.queueOf q) 32 6) (s.queueOf q).errvec.toNat := by
      simp [State.queueError, h0, QBlock.func_eq]
    rw [hs]
    refine ⟨?_, fun hv hm hr => State.mem_raiseVec (Nat.mod_lt _ (by decide)) hv hm hr⟩
    rw [State.raiseVec_queueOf, State.queueOf_onQueue]; exact Nat.mod_eq_of_lt h
  · intro h0; simp only [State.queueError, if_neg h0, Bool.false_eq_true, if_false]
/-- Whether a queue takes an error depends on its ERR, ERRVEC and CFG, on the functions and on the vectors raised. -/
theorem TakesError.congr {s u t v : State} {q code : Nat} (h : TakesError u v q code) (herr : (u.queueOf q).err = (s.queueOf q).err)
    (hvec : (u.queueOf q).errvec = (s.queueOf q).errvec) (hcfg : (u.queueOf q).cfg = (s.queueOf q).cfg)
    (hf : u.funcs = s.funcs) (hr : u.flr = s.flr) (hv : t.queueOf q = v.queueOf q) (hm : t.msix = v.msix) : TakesError s t q code := by
  simp only [TakesError, cfgField, State.func, herr, hvec, hcfg, hf, hr] at h
  simpa only [TakesError, cfgField, State.func, hv, hm] using h

end Sys2Proof.Machine
end

section
/-! SUPPORT. What the curator chooses (R73) and checks (R20) before a bind. -/

namespace Sys2Proof.Machine

/-! ### The best of a list, the first of equals -/

section
variable {α : Type} (r : α → Nat) {f : Option α → α → Option α} (h0 : ∀ x, f none x = some x)
  (h1 : ∀ y x, f (some y) x = if r y < r x then some x else some y)
include h0 h1

/-- A fold that keeps the greater of two, the first of equals, finds the first of the greatest. -/
theorem foldl_best (l : List α) : (l = [] ∧ l.foldl f none = none) ∨
    ∃ a x b, l = a ++ x :: b ∧ l.foldl f none = some x ∧ (∀ y ∈ a, r y < r x) ∧ ∀ y ∈ b, r y ≤ r x := by
  rw [← l.reverse_reverse]
  induction l.reverse with
  | nil => exact .inl ⟨rfl, rfl⟩
  | cons z l ih =>
    refine .inr ?_
    rw [List.reverse_cons]
    generalize l.reverse = l at ih ⊢
    rw [List.foldl_append, List.foldl_cons, List.foldl_nil]
    rcases ih with ⟨rfl, hf⟩ | ⟨a, x, b, rfl, hf, ha, hb⟩
    · exact ⟨[], z, [], rfl, by rw [hf, h0], by simp, by simp⟩
    · rw [hf, h1]
      by_cases hz : r x < r z
      · refine ⟨a ++ x :: b, z, [], rfl, if_pos hz, fun y hy => ?_, by simp⟩
        rcases List.mem_append.1 hy with hy | hy
        · exact Nat.lt_trans (ha y hy) hz
        · rcases List.mem_cons.1 hy with rfl | hy
          · exact hz
          · exact Nat.lt_of_le_of_lt (hb y hy) hz
      · refine ⟨a, x, b ++ [z], by simp, if_neg hz, ha, fun y hy => ?_⟩
        rcases List.mem_append.1 hy with hy | hy
        · exact hb y hy
        · obtain rfl := List.mem_singleton.1 hy; exact Nat.le_of_not_lt hz
theorem foldl_best_none {l : List α} (h : l.foldl f none = none) : l = [] := by
  rcases foldl_best r h0 h1 l with ⟨hl, -⟩ | ⟨a, x, b, -, hx, -⟩
  · exact hl
  · rw [hx] at h; cases h
theorem foldl_best_some {l : List α} {x : α} (h : l.foldl f none = some x) :
    ∃ a b, l = a ++ x :: b ∧ (∀ y ∈ a, r y < r x) ∧ ∀ y ∈ b, r y ≤ r x := by
  rcases foldl_best r h0 h1 l with ⟨-, hl⟩ | ⟨a, z, b, hl, hz, ha, hb⟩
  · rw [hl] at h; cases h
  · rw [hz] at h; cases h; exact ⟨a, b, hl, ha, hb⟩
end

/-! ### The queue and the TCB to be served (R73) -/

theorem Core.freeSlot_isSome (c : Core) : c.freeSlot.isSome = true ↔ ∃ j, j < 11 ∧ (c.slot j).v = false := by
  simp [Core.freeSlot, List.find?_isSome]
theorem mayTake_iff (s : State) (m : BitVec 192) (n : Nat) :
    MayTake s m n ↔ n < Config.cores ∧ inMask m n = true ∧ s.takesBind n = true := by
  simp only [MayTake, inMask, ropeOf, State.takesBind, Bool.and_eq_true, Core.freeSlot_isSome, Option.isNone_iff_eq_none]
  rfl
theorem servable_iff (s : State) (q : Nat) : Servable s q ↔
    (!(s.queueOf q).ready.isEmpty && (List.range Config.cores).any fun n => inMask (s.queueOf q).qmask n && s.takesBind n) = true := by
  simp [Servable, mayTake_iff]
/-- The queues in the order of their turns, those that may be served. -/
def State.turns (s : State) : List Nat := ((List.range 64).map fun j => (s.served + 1 + j) % 64).filter fun q =>
  !(s.queueOf q).ready.isEmpty && (List.range Config.cores).any fun n => inMask (s.queueOf q).qmask n && s.takesBind n
theorem mem_turns (s : State) (q : Nat) : q ∈ s.turns ↔ q < 64 ∧ Servable s q := by
  rw [State.turns, List.mem_filter, ← servable_iff, List.mem_map]
  refine and_congr_left fun _ => ⟨?_, fun h => ⟨turnOf s q, ?_, ?_⟩⟩
  · rintro ⟨j, -, rfl⟩; exact Nat.mod_lt _ (by decide)
  · exact List.mem_range.2 (Nat.mod_lt _ (by decide))
  · rw [turnOf]; omega
theorem turns_ordered (s : State) : s.turns.Pairwise fun p q => turnOf s p < turnOf s q := by
  refine List.Pairwise.filter _ (List.pairwise_map.2 (List.pairwise_lt_range.imp_of_mem fun {i j} hi hj hij => ?_))
  have hi := List.mem_range.1 hi
  have hj := List.mem_range.1 hj
  simp only [turnOf]; omega
theorem nextQueue_some {s : State} {q : Nat} (h : s.nextQueue = some q) :
    ∃ a b, s.turns = a ++ q :: b ∧ (∀ p ∈ a, (s.queueOf p).eprio.toNat < (s.queueOf q).eprio.toNat) ∧
      ∀ p ∈ b, (s.queueOf p).eprio.toNat ≤ (s.queueOf q).eprio.toNat :=
  foldl_best_some (fun q => (s.queueOf q).eprio.toNat) (fun _ => rfl) (fun _ _ => rfl) h
theorem nextQueue_none {s : State} (h : s.nextQueue = none) : s.turns = [] :=
  foldl_best_none (fun q => (s.queueOf q).eprio.toNat) (fun _ => rfl) (fun _ _ => rfl) h
/-- The queue served has the highest EPRIO, and the nearest turn among equals. -/
theorem nextQueue_best {s : State} {q : Nat} (h : s.nextQueue = some q) : q < 64 ∧ Servable s q ∧ ∀ p, p < 64 → Servable s p →
    (s.queueOf p).eprio < (s.queueOf q).eprio ∨ (s.queueOf p).eprio = (s.queueOf q).eprio ∧ turnOf s q ≤ turnOf s p := by
  obtain ⟨a, b, hl, ha, hb⟩ := nextQueue_some h
  obtain ⟨hq, hs⟩ := (mem_turns s q).1 (hl ▸ List.mem_append_right _ List.mem_cons_self)
  have hord := turns_ordered s
  rw [hl, List.pairwise_append, List.pairwise_cons] at hord
  refine ⟨hq, hs, fun p hp hsp => ?_⟩
  have hmem : p ∈ a ++ q :: b := hl ▸ (mem_turns s p).2 ⟨hp, hsp⟩
  rcases List.mem_append.1 hmem with hm | hm
  · exact .inl (ha p hm)
  · rcases List.mem_cons.1 hm with rfl | hm
    · exact .inr ⟨rfl, Nat.le_refl _⟩
    · rcases Nat.lt_or_eq_of_le (hb p hm) with hlt | heq
      · exact .inl hlt
      · exact .inr ⟨BitVec.eq_of_toNat_eq heq, Nat.le_of_lt (hord.2.1.1 p hm)⟩
theorem State.nextReady_best {s : State} {q : Nat} {x : Asid × Nat} (h : s.nextReady q = some x) :
    ∃ a b, (s.queueOf q).ready = a ++ x :: b ∧ (∀ y ∈ a, s.tcbPrio y < s.tcbPrio x) ∧ ∀ y ∈ b, s.tcbPrio y ≤ s.tcbPrio x :=
  foldl_best_some s.tcbPrio (fun _ => rfl) (fun _ _ => rfl) h

/-! ### The checks of R20 -/

theorem firstCode_eq_find (l : List (Bool × Nat)) : firstCode l = (l.find? (·.1)).map (·.2) := by
  induction l with
  | nil => rfl
  | cons e l ih => obtain ⟨b, c⟩ := e; cases b <;> simp [firstCode, ih]
theorem extract_toNat {n : Nat} (x : BitVec n) (lo w : Nat) : (x.extractLsb' lo w).toNat = x.toNat / 2 ^ lo % 2 ^ w := by
  rw [BitVec.extractLsb'_toNat, Nat.shiftRight_eq_div_pow]
theorem extract_low_toNat {n : Nat} (x : BitVec n) (w : Nat) : (x.extractLsb' 0 w).toNat = x.toNat % 2 ^ w := by
  rw [extract_toNat, Nat.pow_zero, Nat.div_one]
theorem extract_eq_zero {n : Nat} (x : BitVec n) (lo w : Nat) : x.extractLsb' lo w = 0 ↔ x.toNat / 2 ^ lo % 2 ^ w = 0 := by
  rw [← BitVec.toNat_inj, extract_toNat]; rfl
theorem extract_top_eq_zero (x : W64) (lo w : Nat) (h : lo + w = 64) : x.extractLsb' lo w = 0 ↔ x.toNat / 2 ^ lo = 0 := by
  rw [extract_eq_zero, Nat.mod_eq_of_lt]
  rw [Nat.div_lt_iff_lt_mul (Nat.two_pow_pos lo), ← Nat.pow_add, Nat.add_comm w lo, h]; exact x.isLt
theorem and_eq_zero_iff_bits {n : Nat} (a b : BitVec n) : a &&& b ≠ 0 ↔ ∃ r, r < n ∧ a.getLsbD r = true ∧ b.getLsbD r = true := by
  rw [ne_eq, BitVec.eq_of_getLsbD_eq_iff]
  simp

theorem tagOf_eq_zero (x : W64) : tagOf x = 0 ↔ x.toNat / 2 ^ 56 = 0 := extract_top_eq_zero x 56 8 rfl
theorem extract_eq_ofNat (x : W64) (lo w : Nat) : x.extractLsb' lo w = BitVec.ofNat w (x.toNat / 2 ^ lo) := by
  apply BitVec.eq_of_toNat_eq; rw [extract_toNat, BitVec.toNat_ofNat]
theorem ofNat_mod_width (w n : Nat) : BitVec.ofNat w (n % 2 ^ w) = BitVec.ofNat w n := by
  apply BitVec.eq_of_toNat_eq; simp
theorem QBlock.asidLo_eq (b : QBlock) : b.asidLo = cfgField b 38 13 := extract_toNat ..
theorem QBlock.asidHi_eq (b : QBlock) : b.asidHi = cfgField b 51 13 := extract_toNat ..
theorem range_eight_map {α : Type} (f : Nat → α) : (List.range 8).map f = [f 0, f 1, f 2, f 3, f 4, f 5, f 6, f 7] := rfl

theorem outside_iff (x lo hi : Nat) (b : Bool) (p : Prop) :
    (((x < lo ∨ hi < x) ∨ b = false) ∨ ¬ p) ↔ ¬ (lo ≤ x ∧ x ≤ hi ∧ b = true ∧ p) := by
  simp only [Classical.not_and_iff_not_or_not, Nat.not_le, Bool.not_eq_true, or_assoc]

open Classical in
/-- The bind's reason is the first check of R20 that does not hold. -/
theorem State.launchReason_eq (s : State) (b : QBlock) (asid : Asid) (tcb : VA) : s.launchReason b asid tcb =
    firstCode ((List.range 8).map fun k => (decide (¬ LaunchCheck s b asid tcb k), 0xE0 + k)) := by
  rw [range_eight_map fun k => (decide (¬ LaunchCheck s b asid tcb k), 0xE0 + k)]
  refine congrArg firstCode ?_
  simp only [List.cons.injEq, Prod.mk.injEq, and_true]
  refine ⟨?_, ?_, ?_, ?_, ?_, ?_, ?_, ?_⟩ <;> refine Bool.eq_iff_iff.2 ?_ <;> simp only [decide_eq_true_iff, LaunchCheck]
  case refine_1 =>
    simp only [Bool.or_eq_true, decide_eq_true_iff, ne_eq, List.any_eq_true, extract_eq_zero, List.mem_range, Classical.not_and_iff_not_or_not, Classical.not_forall, exists_prop]
  case refine_2 =>
    simp only [Bool.or_eq_true, decide_eq_true_iff, ne_eq, extract_eq_zero, tagOf_eq_zero, Nat.pow_zero, Nat.div_one]
    exact Classical.not_and_iff_not_or_not.symm
  case refine_3 =>
    rw [QBlock.asidLo_eq, QBlock.asidHi_eq, QBlock.func_eq, extract_toNat, extract_toNat, extract_eq_ofNat, ofNat_mod_width]
    simp only [Bool.or_eq_true, decide_eq_true_iff, Bool.not_eq_true', bne_iff_ne, ne_eq]
    exact outside_iff ..
  case refine_4 => simpa using not_congr (and_eq_zero_iff_bits _ _)
  case refine_5 => rw [extract_low_toNat, Nat.not_le]
  case refine_6 =>
    have hlen (x : W64) : x.toNat / 2 ^ 40 = 0 ↔ x.toNat < 2 ^ 40 := Nat.div_eq_zero_iff_lt (by decide)
    simp only [List.any_map, List.any_eq_true, List.mem_range, Function.comp, Bool.or_eq_true, Bool.and_eq_true, decide_eq_true_iff, ne_eq,
      extract_top_eq_zero _ 40 24 rfl, hlen, Classical.not_forall, exists_prop, Classical.not_and_iff_not_or_not, Option.isNone_iff_eq_none, Option.eq_none_iff_forall_ne_some, not_exists]
  case refine_7 =>
    simp only [Bool.or_eq_true, Bool.and_eq_true, decide_eq_true_iff, ne_eq, tagOf_eq_zero, bne_iff_ne, not_or, Classical.not_and_iff_not_or_not]
  case refine_8 => rw [QBlock.pitchOk, extract_toNat]; exact iff_of_eq ((Bool.not_eq_true' _).trans (Bool.not_eq_true _).symm)
section
variable {s : State} {b : QBlock} {asid : Asid} {tcb : VA}

theorem launchReason_some {k : Nat} (hk : k < 8) (hp : ∀ i, i < k → LaunchCheck s b asid tcb i) (hf : ¬ LaunchCheck s b asid tcb k) :
    s.launchReason b asid tcb = some (0xE0 + k) := by
  classical
  have hfind : (List.range 8).find? (fun i => decide (¬ LaunchCheck s b asid tcb i)) = some k := by
    rw [List.find?_range_eq_some]
    exact ⟨decide_eq_true hf, List.mem_range.2 hk, fun i hi => by simpa using hp i hi⟩
  rw [State.launchReason_eq, firstCode_eq_find, List.find?_map, Function.comp_def, hfind]; rfl
theorem launchReason_none (h : ∀ k, k < 8 → LaunchCheck s b asid tcb k) : s.launchReason b asid tcb = none := by
  classical
  have hfind : (List.range 8).find? (fun i => decide (¬ LaunchCheck s b asid tcb i)) = none := by
    rw [List.find?_eq_none]
    exact fun i hi => by simpa using h i (List.mem_range.1 hi)
  rw [State.launchReason_eq, firstCode_eq_find, List.find?_map, Function.comp_def, hfind]; rfl
end

end Sys2Proof.Machine
end

section
/-! The bind (R20, R72–R76): what the curator and dispatch do in each case, and the statement assembled from it. -/

namespace Sys2Proof.Machine

/-! ### STATE words -/

theorem addr_eq_setWidth (x : W64) : addr x = x.setWidth 56 := BitVec.eq_of_toNat_eq rfl
theorem tcbCode_eq (x : W64) : tcbCode x = x.toNat % 256 := extract_low_toNat ..
theorem withReason_eq_failedWord (x : W64) (r : Nat) : withReason x r = failedWord x r := by
  have hr : BitVec.ofNat 64 (r * 2 ^ 24 + 6) = 6 ||| BitVec.ofNat 64 (r * 2 ^ 24) := by
    rw [Nat.mul_comm, Nat.two_pow_add_eq_or_of_lt (by decide), BitVec.ofNat_or, BitVec.or_comm]; rfl
  rw [withReason, withCode, failedWord, hr, BitVec.and_or_distrib_right, BitVec.and_assoc, BitVec.or_assoc]; rfl
theorem coord11_toNat (n : Nat) : (coord11 n).toNat = n / 384 % 4 * 2 ^ 9 + n / 8 % 48 * 2 ^ 3 + n % 8 := by
  simp only [coord11, dieOf, ropeOf, BitVec.toNat_ofNat]; omega
theorem withCore_eq_boundWord (x : W64) (n : Nat) : withCore x n = boundWord x n := by
  have hr : w64 ((3 + (n / 384 % 4 * 2 ^ 9 + n / 8 % 48 * 2 ^ 3 + n % 8) * 2 ^ 32 : Nat) : Int) =
      3 ||| BitVec.ofNat 64 ((coord11 n).toNat * 2 ^ 32) := by
    rw [w64, BitVec.ofInt_natCast, coord11_toNat, Nat.add_comm, Nat.mul_comm, Nat.two_pow_add_eq_or_of_lt (by decide), BitVec.ofNat_or,
      BitVec.or_comm]; rfl
  rw [withCore, withCode, boundWord, hr, BitVec.and_or_distrib_right, BitVec.and_assoc, BitVec.or_assoc]; rfl

/-! ### Slots -/

@[simp] theorem Core.slot_onSlot (c : Core) (j : Nat) (f : Slot → Slot) : (c.onSlot j f).slot j = f (c.slot j) := by
  simp [Core.slot, Core.onSlot]
@[simp] theorem Core.slot_onSlot_other (c : Core) {i j : Nat} (h : i ≠ j) (f : Slot → Slot) : (c.onSlot j f).slot i = c.slot i := by
  simp [Core.slot, Core.onSlot, h]
theorem Core.mem_onSlot (c : Core) (j : Nat) (f : Slot → Slot) : (j, f (c.slot j)) ∈ (c.onSlot j f).slots := Table.mem_put_self ..

/-! ### What the curator does (R20, R72–R74) -/

/-- What the curator has read of a TCB counts as served and may have reached the memory-side cache. -/
def State.tcbSeen (s : State) (q : Nat) (asid : Asid) (tcb : VA) : State :=
  (({ s with served := q } : State).devSeen asid tcb).devSeen asid (tcb + 128)
theorem State.fillHeat_eq (s : State) (pa : Nat) : s.fillHeat pa = { s with heat := (s.fillHeat pa).heat, fresh := (s.fillHeat pa).fresh } := by
  simp only [State.fillHeat]; split
  · rfl
  · split
    · rfl
    · rw [State.heatUp_eq]
theorem State.devSeen_eq (s : State) (asid : Asid) (va : VA) :
    s.devSeen asid va = { s with heat := (s.devSeen asid va).heat, fresh := (s.devSeen asid va).fresh } := by
  rw [State.devSeen]; split
  · split
    · rw [State.fillHeat_eq]
    · rw [State.heatUp_eq]
  · rfl
theorem State.tcbSeen_eq (s : State) (q : Nat) (asid : Asid) (tcb : VA) : s.tcbSeen q asid tcb =
    { s with served := q, heat := (s.tcbSeen q asid tcb).heat, fresh := (s.tcbSeen q asid tcb).fresh } := by
  rw [State.tcbSeen, State.devSeen_eq, State.devSeen_eq { s with served := q }]
@[simp] theorem State.tcbSeen_mem (s : State) (q : Nat) (asid : Asid) (tcb : VA) : (s.tcbSeen q asid tcb).mem = s.mem := by rw [State.tcbSeen_eq]
@[simp] theorem State.tcbSeen_locs (s : State) (q : Nat) (asid : Asid) (tcb : VA) : (s.tcbSeen q asid tcb).locs = s.locs := by rw [State.tcbSeen_eq]
@[simp] theorem State.tcbSeen_cores (s : State) (q : Nat) (asid : Asid) (tcb : VA) : (s.tcbSeen q asid tcb).cores = s.cores := by rw [State.tcbSeen_eq]
@[simp] theorem State.tcbSeen_recs (s : State) (q : Nat) (asid : Asid) (tcb : VA) : (s.tcbSeen q asid tcb).recs = s.recs := by rw [State.tcbSeen_eq]
@[simp] theorem State.tcbSeen_served (s : State) (q : Nat) (asid : Asid) (tcb : VA) : (s.tcbSeen q asid tcb).served = q := by rw [State.tcbSeen_eq]
@[simp] theorem State.tcbSeen_core (s : State) (q : Nat) (asid : Asid) (tcb : VA) (n : Nat) : (s.tcbSeen q asid tcb).core n = s.core n := by
  simp [State.core]
@[simp] theorem State.tcbSeen_now (s : State) (q : Nat) (asid : Asid) (tcb : VA) : (s.tcbSeen q asid tcb).now = s.now := by rw [State.tcbSeen_eq]
@[simp] theorem State.tcbSeen_lat (s : State) (q : Nat) (asid : Asid) (tcb : VA) : (s.tcbSeen q asid tcb).lat = s.lat := by rw [State.tcbSeen_eq]
@[simp] theorem State.tcbSeen_regs (s : State) (q : Nat) (asid : Asid) (tcb : VA) : (s.tcbSeen q asid tcb).regs = s.regs := by rw [State.tcbSeen_eq]
theorem State.tcbSeen_walk (s : State) (q : Nat) (asid : Asid) (tcb : VA) (a : Asid) (va : VA) : (s.tcbSeen q asid tcb).walk a va = s.walk a va :=
  State.walk_same (s.tcbSeen_mem ..) (s.tcbSeen_regs ..) a va

/-- A slot is written for a new bind. -/
def State.withSlot (s : State) (n j : Nat) (r : Slot) : State := { s.onCore n fun c => c.onSlot j fun _ => r with binds := r.bind }
/-- The curator's bind of a task that passes the checks: its slot is written and dispatch is told. -/
def State.placed (s : State) (asid : Asid) (tcb : VA) (n j : Nat) (r : Slot) : State :=
  ((s.unready asid tcb).withSlot n j r).after s.lat.home (.dispatchBind n j)

section
variable (s : State) (asid : Asid) (tcb : VA) (n j : Nat) (r : Slot)

theorem State.placed_mem : (s.placed asid tcb n j r).mem = s.mem := rfl
theorem State.placed_served : (s.placed asid tcb n j r).served = s.served := rfl
theorem State.placed_binds : (s.placed asid tcb n j r).binds = r.bind := rfl
theorem State.placed_core : (s.placed asid tcb n j r).core n = (s.core n).onSlot j fun _ => r :=
  (s.unready asid tcb).onCore_core n fun c => c.onSlot j fun _ => r
theorem State.placed_core_other {m : Nat} (h : m ≠ n) : (s.placed asid tcb n j r).core m = s.core m :=
  (s.unready asid tcb).onCore_core_other h fun c => c.onSlot j fun _ => r
theorem State.mem_placed : (s.now + s.lat.home, Ev.dispatchBind n j) ∈ (s.placed asid tcb n j r).queue := State.mem_after _ s.lat.home _
theorem State.not_mem_placed (p : Nat) : (asid, tcb.toNat) ∉ ((s.placed asid tcb n j r).queueOf p).ready := s.not_mem_unready asid tcb p
end

/-- The TCB to be bound next, and its queue (R73). -/
def NextTcb (s : State) (q : Nat) (asid : Asid) (tcb : VA) : Prop :=
  s.mayBind = true ∧ s.nextQueue = some q ∧ s.nextReady q = some (asid, tcb.toNat)

section
variable {s : State} {q : Nat} {asid : Asid} {tcb : VA} (n j : Nat) (start delay spill : W64) (hn : NextTcb s q asid tcb)
include hn

theorem exec_curatorBind_unreadable (h : s.tcbReadable asid tcb = false) : exec (.curatorBind n j start delay spill) s =
    .next ((((({ s with served := q } : State).unready asid tcb).ended asid tcb .failed).queueError q 8 false).callCurator) := by
  obtain ⟨hbind, hq, hr⟩ := hn
  simp [exec_curatorBind, execCuratorBind, hbind, hq, hr, h]
theorem exec_curatorBind_refused (h : s.tcbReadable asid tcb = true) {r : Nat} (hl : s.launchReason (s.queueOf q) asid tcb = some r) :
    exec (.curatorBind n j start delay spill) s =
      .next (((((s.tcbSeen q asid tcb).setTcb asid tcb fun x => withReason x r).unready asid tcb).ended asid tcb .failed).callCurator) := by
  obtain ⟨hbind, hq, hr⟩ := hn
  simp [exec_curatorBind, execCuratorBind, hbind, hq, hr, h, hl, State.tcbSeen]
theorem exec_curatorBind_taken (h : s.tcbReadable asid tcb = true) (hl : s.launchReason (s.queueOf q) asid tcb = none)
    (hm : MayTake s ((s.queueOf q).qmask &&& s.tcbRopes asid tcb) n) (hj : j < 11) (hv : ((s.core n).slot j).v = false) :
    exec (.curatorBind n j start delay spill) s =
      .next (((s.tcbSeen q asid tcb).placed asid tcb n j (s.bindRecord q n asid tcb (start + delay) spill)).callCurator) := by
  obtain ⟨hbind, hq, hr⟩ := hn
  obtain ⟨hcore, hmask, htakes⟩ := (mayTake_iff ..).1 hm
  have hmay : (decide (Config.cores ≤ n) || decide (11 ≤ j) || ((s.core n).slot j).v || !s.takesBind n ||
      !inMask ((s.queueOf q).qmask &&& s.tcbRopes asid tcb) n) = false := by
    simp only [Nat.not_le.2 hcore, Nat.not_le.2 hj, hv, htakes, hmask, decide_false, Bool.not_true, Bool.or_false]
  simp only [exec_curatorBind, execCuratorBind, hbind, hq, hr, BitVec.ofNat_toNat, BitVec.setWidth_eq, h, hl, hmay, Bool.not_true, Bool.false_eq_true,
    if_false]
  have hlat : (s.tcbSeen q asid tcb).lat = s.lat := s.tcbSeen_lat ..
  rw [State.placed, hlat]; rfl

theorem curatorBind_unreadable (h : s.tcbReadable asid tcb = false) (hu : Uncounted s asid tcb) :
    ∃ t, exec (.curatorBind n j start delay spill) s = .next t ∧ TakesError s t q 8 ∧
      (∀ p, (asid, tcb.toNat) ∉ (t.queueOf p).ready) ∧ t.mem = s.mem ∧ t.cores = s.cores := by
  refine ⟨_, exec_curatorBind_unreadable n j start delay spill hn h, ?_⟩
  rw [State.ended_uncounted (s := ({ s with served := q } : State).unready asid tcb) hu .failed]
  refine ⟨?_, fun p => ?_, ?_, ?_⟩
  · refine (State.takesError_queueError (({ s with served := q } : State).unready asid tcb) q (err := 8) (by decide)).congr
      ?_ ?_ ?_ rfl rfl (State.callCurator_queueOf ..) (State.callCurator_msix ..) <;> rw [State.queueOf_unready] <;> rfl
  · rw [State.callCurator_queueOf, State.queueError_ready]
    exact State.not_mem_unready _ _ _ _
  · rw [State.callCurator_mem, State.queueError_frame]; rfl
  · rw [State.callCurator_cores, State.queueError_frame]; rfl

theorem curatorBind_refused (h : s.tcbReadable asid tcb = true) (hu : Uncounted s asid tcb) {r : Nat}
    (hl : s.launchReason (s.queueOf q) asid tcb = some r) {e : Pte} (hw : s.walk asid tcb = some e) (hp : InPlace s asid (tcb + 8) e) :
    ∃ t, exec (.curatorBind n j start delay spill) s = .next t ∧ stateAt t asid tcb e = failedWord (stateAt s asid tcb e) r ∧
      (∀ p, (asid, tcb.toNat) ∉ (t.queueOf p).ready) ∧ t.cores = s.cores := by
  refine ⟨_, exec_curatorBind_refused n j start delay spill hn h hl, ?_⟩
  have hstate := stateAt_setTcb ((s.tcbSeen_walk q asid tcb asid tcb).trans hw) hp.1 fun x => withReason x r
  have honly := (s.tcbSeen q asid tcb).setTcb_onlyHome asid tcb fun x => withReason x r
  generalize (s.tcbSeen q asid tcb).setTcb asid tcb (fun x => withReason x r) = u at hstate honly ⊢
  have hrecs : u.recs = s.recs := honly.recs.trans (s.tcbSeen_recs ..)
  rw [State.ended_uncounted (s := u.unready asid tcb) (fun x hx => hu x (hrecs ▸ hx))]
  refine ⟨?_, fun p => ?_, ?_⟩
  · rw [stateAt_congr (State.callCurator_mem _) (State.callCurator_locs _)]
    rw [stateAt_congr (s.tcbSeen_mem ..) (s.tcbSeen_locs ..), withReason_eq_failedWord] at hstate
    exact hstate
  · rw [State.callCurator_queueOf]; exact State.not_mem_unready _ _ _ _
  · rw [State.callCurator_cores]; exact honly.cores.trans (s.tcbSeen_cores ..)

/-- The slot that the bind writes (R74, R76). -/
theorem curatorBind_taken (h : s.tcbReadable asid tcb = true) (hl : s.launchReason (s.queueOf q) asid tcb = none)
    (hm : MayTake s ((s.queueOf q).qmask &&& s.tcbRopes asid tcb) n) (hj : j < 11) (hv : ((s.core n).slot j).v = false) :
    ∃ t, exec (.curatorBind n j start delay spill) s = .next t ∧ t.mem = s.mem ∧ (s.now + s.lat.home, Ev.dispatchBind n j) ∈ t.queue ∧
      t.served = q ∧ t.binds = s.binds + 1 ∧ (∀ p, (asid, tcb.toNat) ∉ (t.queueOf p).ready) ∧ (∀ m, m ≠ n → t.core m = s.core m) ∧
      (∀ i, i ≠ j → (t.core n).slot i = (s.core n).slot i) ∧ (t.core n).slot j = s.bindRecord q n asid tcb (start + delay) spill := by
  refine ⟨_, exec_curatorBind_taken n j start delay spill hn h hl hm hj hv, ?_⟩
  rw [State.callCurator_mem, State.callCurator_served, State.callCurator_binds, State.callCurator_core, State.placed_mem, State.placed_served,
    State.placed_binds, State.placed_core, s.tcbSeen_mem, s.tcbSeen_served, s.tcbSeen_core]
  have hev := (s.tcbSeen q asid tcb).mem_placed asid tcb n j (s.bindRecord q n asid tcb (start + delay) spill)
  rw [s.tcbSeen_now, s.tcbSeen_lat] at hev
  refine ⟨rfl, State.mem_callCurator hev, rfl, rfl, fun p => ?_, fun m hm => ?_, fun i hi => Core.slot_onSlot_other _ hi _, Core.slot_onSlot ..⟩
  · rw [State.callCurator_queueOf]; exact State.not_mem_placed _ _ _ _ _ _ p
  · rw [State.callCurator_core, State.placed_core_other _ _ _ _ _ _ hm, s.tcbSeen_core]
end

/-! ### Dispatch's swap (R75, R76) -/

/-- The pre-emption request is made, or nothing happens. -/
theorem State.request_cases (s : State) (n : Nat) : s.request n = s ∨
    s.request n = (s.onCore n fun c => { c with preempt := true }).at' s.now (.preemptTake n) := by
  simp only [State.request]; split
  · exact .inl rfl
  · exact .inr rfl
theorem State.request_eq (s : State) (n : Nat) : s.request n = { s with cores := (s.request n).cores, queue := (s.request n).queue } := by
  rcases s.request_cases n with h | h
  · rw [h]
  · rw [h]; rfl
theorem State.request_slot (s : State) (n j : Nat) : ((s.request n).core n).slot j = (s.core n).slot j := by
  rcases s.request_cases n with h | h
  · rw [h]
  · rw [h]
    show ((s.onCore n fun c => { c with preempt := true }).core n).slot j = _
    rw [State.onCore_core]; rfl
theorem State.mem_request {s : State} {x : Nat × Ev} (n : Nat) (h : x ∈ s.queue) : x ∈ (s.request n).queue := by
  rcases s.request_cases n with e | e
  · rw [e]; exact h
  · rw [e]; exact State.mem_at_of_mem _ _ h
theorem State.request_asks {s : State} {n : Nat} (hp : (s.core n).preempt = false) (hf : (s.core n).failing = none) (hh : (s.core n).halted = none)
    (ho : (s.core n).on ≠ none) (hr : (s.core n).restored = none) :
    ((s.request n).core n).preempt = true ∧ (s.now, Ev.preemptTake n) ∈ (s.request n).queue := by
  have hon : (s.core n).on.isNone = false := by simpa [Option.isNone_eq_false_iff, Option.isSome_iff_ne_none] using ho
  have h : s.request n = (s.onCore n fun c => { c with preempt := true }).at' s.now (.preemptTake n) := by
    simp [State.request, hp, hf, hh, hon, hr]
  rw [h]
  refine ⟨?_, State.mem_at ..⟩
  show ((s.onCore n fun c => { c with preempt := true }).core n).preempt = true
  rw [State.onCore_core]

/-- The slot of a bind that has not reached dispatch. -/
def AwaitsSwap (s : State) (n j : Nat) (u : Slot) : Prop := (s.core n).slot j = u ∧ u.v = true ∧ u.bound = false ∧ u.ctxloc = 3
/-- A slot that dispatch has made BOUND, and its queue's block, whose AGE starts anew (R75, R78). -/
def Slot.asBound (t : Slot) : Slot := { t with bound := true }
def QBlock.bindOne (b : QBlock) : QBlock := { b with age := 0, bound := true }.aged
/-- What the swap marks besides STATE: the ready lists, AGE, the slot, and the core's next selection. -/
def State.marked (s : State) (n j : Nat) (u : Slot) : State :=
  (((s.unready u.asid (addr u.tcb)).onQueue u.queue.toNat QBlock.bindOne).onCore n (·.onSlot j Slot.asBound)).after 1 (.dispatchSelect n)
/-- The swap's outcome where STATE is READY. -/
def State.swapped (s : State) (n j : Nat) (u : Slot) : State := (s.setTcb u.asid (addr u.tcb) fun x => withCore x n).marked n j u
/-- Its outcome where it is not. -/
def State.unswapped (s : State) (n j : Nat) : State := (s.onCore n fun c => c.onSlot j Slot.clear).callCurator

section
variable {s : State} {n j : Nat} {u : Slot} (hu : AwaitsSwap s n j u) {e : Pte} (hw : s.walk u.asid (addr u.tcb) = some e)
include hu hw

theorem bindSwap_eq :
    s.bindSwap n j = if (stateAt s u.asid (addr u.tcb) e).toNat % 256 = 2 then s.swapped n j u else s.unswapped n j := by
  obtain ⟨rfl, hv, hb, hl⟩ := hu
  have hstate : s.tcbState ((s.core n).slot j).asid (addr ((s.core n).slot j).tcb) =
      some (stateAt s ((s.core n).slot j).asid (addr ((s.core n).slot j).tcb) e) := by rw [State.tcbState, hw]; rfl
  simp only [State.bindSwap, hv, hb, hl, hstate, tcbCode_eq, Bool.not_true, Bool.or_false, bne_self_eq_false, Bool.false_eq_true, if_false, beq_iff_eq]
  rfl
end

section
variable (s : State) (n j : Nat) (u : Slot)

theorem State.marked_mem : (s.marked n j u).mem = s.mem := rfl
theorem State.marked_locs : (s.marked n j u).locs = s.locs := rfl
theorem State.marked_now : (s.marked n j u).now = s.now := rfl
theorem State.marked_core : (s.marked n j u).core n = (s.core n).onSlot j Slot.asBound := State.onCore_core _ n (·.onSlot j Slot.asBound)
theorem State.marked_queueOf (p : Nat) :
    (s.marked n j u).queueOf p = ((s.unready u.asid (addr u.tcb)).onQueue u.queue.toNat QBlock.bindOne).queueOf p := rfl
theorem State.not_mem_marked (p : Nat) : (u.asid, (addr u.tcb).toNat) ∉ ((s.marked n j u).queueOf p).ready := by
  rw [State.marked_queueOf, State.queueOf_onQueue_field _ p u.queue.toNat QBlock.ready (f := QBlock.bindOne) fun _ => rfl]
  exact State.not_mem_unready _ _ _ p
theorem State.marked_age : ((s.marked n j u).queueOf u.queue.toNat).age = 0 := by
  rw [State.marked_queueOf, State.queueOf_onQueue]; rfl
theorem State.mem_marked : (s.now + 1, Ev.dispatchSelect n) ∈ (s.marked n j u).queue := State.mem_after _ 1 _

theorem State.swapped_now : (s.swapped n j u).now = s.now := (State.marked_now ..).trans (s.setTcb_onlyHome ..).now
theorem State.swapped_core : (s.swapped n j u).core n = (s.core n).onSlot j Slot.asBound := by
  rw [State.swapped, State.marked_core, (s.setTcb_onlyHome ..).core]
theorem State.mem_swapped : (s.now + 1, Ev.dispatchSelect n) ∈ (s.swapped n j u).queue := by
  have hev := (s.setTcb u.asid (addr u.tcb) fun x => withCore x n).mem_marked n j u
  rwa [(s.setTcb_onlyHome ..).now] at hev
theorem State.stateAt_swapped {e : Pte} (hw : s.walk u.asid (addr u.tcb) = some e) (ha : (addr u.tcb + 8).toNat % 8 = 0) :
    stateAt (s.swapped n j u) u.asid (addr u.tcb) e = boundWord (stateAt s u.asid (addr u.tcb) e) n := by
  rw [State.swapped, stateAt_congr (State.marked_mem ..) (State.marked_locs ..), stateAt_setTcb hw ha, withCore_eq_boundWord]
theorem State.unswapped_slot : ((s.unswapped n j).core n).slot j = ((s.core n).slot j).clear := by
  rw [State.unswapped, State.callCurator_core, State.onCore_core, Core.slot_onSlot]
end

/-- A bound slot of higher PRIO with PE outranks the task on the core (R76). -/
theorem Core.outranked_of {c : Core} {i j : Nat} {u : Slot} (hon : c.on = some i) (hm : (j, u) ∈ c.slots) (hs : u.selectable = true)
    (hpe : u.pe = true) (hp : (c.slot i).prio < u.prio) : c.outranked = true := by
  have htask : c.task = c.slot i := by rw [Core.task, hon]
  simp only [Core.outranked, hon, List.any_eq_true, Bool.and_eq_true, decide_eq_true_iff]
  exact ⟨(j, u), hm, ⟨hs, hpe⟩, htask ▸ hp⟩

/-- Dispatch leaves what the swap has written and asks for a pre-emption where a slot outranks the task (R76). -/
theorem bindSwapped_eq (s : State) (n j : Nat) : s.bindSwapped n j =
    if ((s.bindSwap n j).core n).outranked then (s.bindSwap n j).request n else s.bindSwap n j := rfl
theorem bindSwapped_frame (s : State) (n j : Nat) : s.bindSwapped n j =
    { s.bindSwap n j with cores := (s.bindSwapped n j).cores, queue := (s.bindSwapped n j).queue } := by
  rw [bindSwapped_eq]; split
  · rw [State.request_eq]
  · rfl
theorem bindSwapped_slot (s : State) (n j i : Nat) : ((s.bindSwapped n j).core n).slot i = ((s.bindSwap n j).core n).slot i := by
  rw [bindSwapped_eq]; split
  · exact State.request_slot ..
  · rfl
theorem mem_bindSwapped {s : State} {n j : Nat} {x : Nat × Ev} (h : x ∈ (s.bindSwap n j).queue) : x ∈ (s.bindSwapped n j).queue := by
  rw [bindSwapped_eq]; split
  · exact State.mem_request n h
  · exact h

section
variable {s : State} {n j : Nat} {u : Slot} (hu : AwaitsSwap s n j u) {e : Pte} (hw : s.walk u.asid (addr u.tcb) = some e)
  (hp : InPlace s u.asid (addr u.tcb + 8) e)
include hu hw

/-- A task of lower PRIO on the core is asked to save itself. -/
theorem dispatchBind_asks (hc : (stateAt s u.asid (addr u.tcb) e).toNat % 256 = 2) {i : Nat} (hon : (s.core n).on = some i) (hpe : u.pe = true)
    (hprio : ((s.core n).slot i).prio < u.prio) (hq : (s.core n).preempt = false) (hf : (s.core n).failing = none)
    (hh : (s.core n).halted = none) (hr : (s.core n).restored = none) :
    ((s.bindSwapped n j).core n).preempt = true ∧ (s.now, Ev.preemptTake n) ∈ (s.bindSwapped n j).queue := by
  have hswap := bindSwap_eq hu hw
  rw [if_pos hc] at hswap
  have hcore := s.swapped_core n j u
  obtain ⟨hslot, hv, hb, hl⟩ := hu
  have hij : i ≠ j := by rintro rfl; rw [hslot] at hprio; exact absurd hprio (BitVec.lt_irrefl _)
  have hout : ((s.swapped n j u).core n).outranked = true := by
    rw [hcore]
    refine Core.outranked_of (j := j) (u := u.asBound) hon ?_ ?_ hpe ?_
    · have hm := (s.core n).mem_onSlot j Slot.asBound
      rwa [hslot] at hm
    · simp [Slot.selectable, Slot.asBound, hv, hl]
    · rwa [Core.slot_onSlot_other _ hij]
  rw [bindSwapped_eq, hswap, if_pos hout, ← s.swapped_now n j u]
  exact State.request_asks (hcore ▸ hq) (hcore ▸ hf) (hcore ▸ hh) (hcore ▸ by rw [Core.onSlot, hon]; simp) (hcore ▸ hr)

theorem dispatchBind_ready (ha : InPlace s u.asid (addr u.tcb + 8) e) (hc : (stateAt s u.asid (addr u.tcb) e).toNat % 256 = 2) :
    ∃ t, exec (.dispatchBind n j) s = .next t ∧ stateAt t u.asid (addr u.tcb) e = boundWord (stateAt s u.asid (addr u.tcb) e) n ∧
      ((t.core n).slot j).bound = true ∧ ((t.core n).slot j).v = true ∧ (∀ p, (u.asid, (addr u.tcb).toNat) ∉ (t.queueOf p).ready) ∧
      (t.queueOf u.queue.toNat).age = 0 ∧ (s.now + 1, Ev.dispatchSelect n) ∈ t.queue ∧
      ∀ i, (s.core n).on = some i → u.pe = true → ((s.core n).slot i).prio < u.prio → (s.core n).preempt = false → (s.core n).failing = none →
        (s.core n).halted = none → (s.core n).restored = none → (t.core n).preempt = true ∧ (s.now, Ev.preemptTake n) ∈ t.queue := by
  refine ⟨_, rfl, ?_⟩
  have hswap := bindSwap_eq hu hw
  rw [if_pos hc] at hswap
  have hframe := bindSwapped_frame s n j
  rw [hswap] at hframe
  have hslot : ((s.bindSwapped n j).core n).slot j = u.asBound := by
    rw [bindSwapped_slot, hswap, State.swapped_core, Core.slot_onSlot, hu.1]
  have hqueues (p : Nat) : (s.bindSwapped n j).queueOf p = (s.swapped n j u).queueOf p := by rw [hframe]; rfl
  refine ⟨?_, congrArg Slot.bound hslot, (congrArg Slot.v hslot).trans hu.2.1, fun p => ?_, ?_, mem_bindSwapped (hswap ▸ s.mem_swapped n j u), ?_⟩
  · rw [stateAt_congr (congrArg State.mem hframe) (congrArg State.locs hframe)]
    exact s.stateAt_swapped n j u hw ha.1
  · rw [hqueues]; exact State.not_mem_marked _ n j u p
  · rw [hqueues]; exact State.marked_age _ n j u
  · exact fun i => dispatchBind_asks hu hw hc

theorem dispatchBind_unready (hc : (stateAt s u.asid (addr u.tcb) e).toNat % 256 ≠ 2) :
    ∃ t, exec (.dispatchBind n j) s = .next t ∧ ((t.core n).slot j).v = false ∧ t.mem = s.mem ∧ t.locs = s.locs := by
  refine ⟨_, rfl, ?_⟩
  have hswap := bindSwap_eq hu hw
  rw [if_neg hc] at hswap
  have hframe := bindSwapped_frame s n j
  rw [hswap] at hframe
  refine ⟨?_, ?_, ?_⟩
  · rw [bindSwapped_slot, hswap, State.unswapped_slot]; rfl
  · exact (congrArg State.mem hframe).trans (State.callCurator_mem _)
  · exact (congrArg State.locs hframe).trans (State.callCurator_locs _)
end

/-- Settles O45: the choice by the folds' first maximum, the checks one by one, the slot and the swap by their equations. -/
theorem binding : Obligations.Binding := by
  unfold Obligations.Binding
  refine ⟨fun s q h => nextQueue_best h, fun s q h hq hs => ?_, fun s q x h => State.nextReady_best h, ?_, ?_⟩
  · have hm := (mem_turns s q).2 ⟨hq, hs⟩
    rw [nextQueue_none h] at hm; cases hm
  · intro n j start delay spill s q asid a hbind hq hr ha tcb b
    have htcb : tcb.toNat = a := Nat.mod_eq_of_lt ha
    have hn : NextTcb s q asid tcb := ⟨hbind, hq, by rw [hr, htcb]⟩
    rw [← htcb]
    refine ⟨fun h hu => curatorBind_unreadable n j start delay spill hn h hu, fun h => ⟨fun k hk hpre hfail hu e hw hp =>
      curatorBind_refused n j start delay spill hn h hu (launchReason_some hk hpre hfail) hw hp, fun hall hm hj hv => ?_⟩⟩
    obtain ⟨t, ht, hmem, hev, hserved, hbinds, hready, hcores, hslots, hslot⟩ :=
      curatorBind_taken n j start delay spill hn h (launchReason_none hall) hm hj hv
    refine ⟨t, ht, hmem, hev, hserved, hbinds, hready, hcores, hslots, ?_⟩
    intro w u
    rw [show u = s.bindRecord q n asid tcb (start + delay) spill from hslot]
    refine ⟨rfl, rfl, ?_, rfl, rfl, rfl, rfl, rfl, rfl, rfl, extract_eq_ofNat .., extract_eq_ofNat .., extract_eq_ofNat .., rfl, rfl, ?_, fun k => ?_⟩
    · simp [State.bindRecord, Option.isSome_iff_ne_none, b]
    · exact extract_low_toNat ..
    · exact Vector.getElem_ofFn ..
  · intro n j s u tcb hv hb hl e hw hp
    have htcb : tcb = addr u.tcb := (addr_eq_setWidth _).symm
    clear_value tcb
    subst htcb
    have hu : AwaitsSwap s n j u := ⟨rfl, hv, hb, hl⟩
    exact ⟨dispatchBind_ready hu hw hp, dispatchBind_unready hu hw⟩

end Sys2Proof.Machine
end

section
/-! SUPPORT. A decrement at home (R12, R16, R17), and what a write-back and an invalidation leave (R215, R217). -/

namespace Sys2Proof.Machine

/-! ### A decrement at home (R12, R16, R17) -/

section
variable {s : State} {asid : Asid} {tcb : VA} {e : Pte} (h : TcbAt s asid tcb e)
include h

theorem TcbAt.places : s.homePlace asid (tcb + 8) e = e.pa tcb + 8 ∧ s.homePlace asid (tcb + 16) e = e.pa tcb + 16 := by
  obtain ⟨-, hstate, hpreds, -, hs, hp⟩ := h
  exact ⟨(State.homePlace_of_inPlace _ _ _ _ hs).trans hstate, (State.homePlace_of_inPlace _ _ _ _ hp).trans hpreds⟩
theorem TcbAt.aligned : (tcb + 8).toNat % 8 = 0 ∧ (tcb + 16).toNat % 8 = 0 := by
  obtain ⟨-, -, -, -, hs, hp⟩ := h
  exact ⟨hs.1, hp.1⟩
theorem TcbAt.apart : wordKey asid (tcb + 8) ≠ wordKey asid (tcb + 16) := by
  obtain ⟨ht, -⟩ := h
  have h8 : (tcb + 8).toNat = tcb.toNat + 8 := by
    rw [BitVec.toNat_add]; have := tcb.isLt; simp; omega
  have h16 : (tcb + 16).toNat = tcb.toNat + 16 := by
    rw [BitVec.toNat_add]; have := tcb.isLt; simp; omega
  rw [wordKey, wordKey, h8, h16]; omega

/-- Storing STATE leaves PREDS, and the TCB where it is. -/
theorem TcbAt.storeState (f : Table Nat) (x : W64) :
    let t := (s.homeStore f asid (tcb + 8) 8 x e).2
    stateAt t asid tcb e = x ∧ predsAt t asid tcb e = predsAt s asid tcb e := by
  obtain ⟨ha, -⟩ := h.aligned
  obtain ⟨hp, hq⟩ := h.places
  refine ⟨State.devRead_homeStore_eight s f asid x e ha, ?_⟩
  rw [predsAt, predsAt, State.devRead_eq, State.devRead_eq,
    State.homeWord_homeStore_other _ _ _ _ _ _ _ (wholeBytes_eight.aligned ha) h.apart.symm (by omega)]
/-- Storing PREDS leaves STATE, and the TCB where it is. -/
theorem TcbAt.storePreds (f : Table Nat) (x : W64) :
    let t := (s.homeStore f asid (tcb + 16) 4 x e).2
    predsAt t asid tcb e = x &&& spanBits 0 4 ∧ stateAt t asid tcb e = stateAt s asid tcb e ∧ TcbAt t asid tcb e := by
  have hw := wholeBytes_four.aligned h.aligned.2
  obtain ⟨hp, hq⟩ := h.places
  have hapart := h.apart
  obtain ⟨ht, hstate, hpreds, hpa, ⟨ha, hs⟩, hpr⟩ := h
  refine ⟨State.devRead_homeStore_four s f asid x e hpr.1, ?_, ht, hstate, hpreds, hpa, ⟨ha, fun l hl => hs l ?_⟩, State.homeStore_inPlace _ _ _ _ _ _ _ hw hpr⟩
  · rw [stateAt, stateAt, State.devRead_eq, State.devRead_eq, State.homeWord_homeStore_other _ _ _ _ _ _ _ hw hapart (by omega)]
  · rwa [State.find_homeStore_other _ _ _ _ _ _ _ hw hapart] at hl
end

/-- A READY task joins its queue's list, and the curator is called. -/
theorem State.enqueue_eq (s : State) (asid : Asid) (tcb : VA) (q : Nat) : s.enqueue asid tcb q =
    { s with queues := (s.enqueue asid tcb q).queues, queue := (s.enqueue asid tcb q).queue, fresh := (s.enqueue asid tcb q).fresh } := by
  rw [State.enqueue, State.callCurator_eq]; rfl
theorem State.mem_enqueue (s : State) (asid : Asid) (tcb : VA) (q : Nat) : (asid, tcb.toNat) ∈ ((s.enqueue asid tcb q).queueOf q).ready := by
  rw [State.enqueue, State.callCurator_queueOf, State.queueOf_onQueue]; simp

theorem predsAt_lt (s : State) (asid : Asid) (tcb : VA) (e : Pte) : (predsAt s asid tcb e).toNat < 2 ^ 32 := by
  rw [predsAt, State.devRead_eq, and_spanBits_four]; exact Nat.mod_lt _ (by decide)
/-- PREDS less one fits its field. -/
theorem pred_and_spanBits_four {n : W64} (h : n.toNat < 2 ^ 32) (h0 : n ≠ 0) : (n - 1) &&& spanBits 0 4 = n - 1 := by
  have h0 : n.toNat ≠ 0 := fun h => h0 (BitVec.eq_of_toNat_eq h)
  have h1 : (n - 1).toNat = n.toNat - 1 := by rw [BitVec.toNat_sub]; simp; omega
  apply BitVec.eq_of_toNat_eq
  rw [and_spanBits_four, h1]; omega

/-- Besides memory and the home orders, a decrement may put the task on a ready list, and nothing else. -/
def OnlyHomeOrReady (s t : State) : Prop :=
  t = { s with mem := t.mem, locs := t.locs, heat := t.heat, pubs := t.pubs, queues := t.queues, queue := t.queue, fresh := t.fresh }
theorem OnlyHome.orReady {s t : State} (h : OnlyHome s t) : OnlyHomeOrReady s t := by
  rw [OnlyHomeOrReady, h]
theorem OnlyHomeOrReady.trans {s t u : State} (h : OnlyHomeOrReady s t) (k : OnlyHomeOrReady t u) : OnlyHomeOrReady s u := by
  rw [OnlyHomeOrReady] at h k ⊢; rw [h] at k; exact k
theorem State.enqueue_orReady (s : State) (asid : Asid) (tcb : VA) (q : Nat) : OnlyHomeOrReady s (s.enqueue asid tcb q) := by
  rw [OnlyHomeOrReady, State.enqueue_eq]

section
variable {s : State} {asid : Asid} {tcb : VA} {pa : Nat} {e : Pte} (hp : s.poisoned pa = false) (he : s.pteAt asid (tcb + 8) (pa + 8) = e)
  (hq : s.pteAt asid (tcb + 16) (pa + 16) = e) (f : Table Nat)
include hp he hq

/-- PREDS is 0: the overflow bit of STATE is set. -/
theorem State.decrement_zero (hn : predsAt s asid tcb e = 0) :
    s.decrement f asid tcb pa = s.homeStore f asid (tcb + 8) 8 (stateAt s asid tcb e ||| 0x10000) e := by
  simp only [predsAt] at hn
  simp only [State.decrement, hp, he, hq, hn, if_true, Bool.false_eq_true, if_false]; rfl
/-- The last decrement of a WAITING task makes it READY. -/
theorem State.decrement_last (hn : predsAt s asid tcb e = 1) (hx : (stateAt s asid tcb e).toNat % 256 = 1) :
    let w := s.homeStore f asid (tcb + 16) 4 (predsAt s asid tcb e - 1) e
    (s.decrement f asid tcb pa).2 =
      (w.2.homeStore w.1 asid (tcb + 8) 8 (withCode (stateAt s asid tcb e) 2) e).2.enqueue asid tcb (tcbQueue (stateAt s asid tcb e)) := by
  have hc : tcbCode (stateAt s asid tcb e) = 1 := (tcbCode_eq _).trans hx
  simp only [predsAt, stateAt] at hn hc ⊢
  simp only [State.decrement, hp, he, hq, hn, hc, Bool.false_eq_true, if_false, decide_true, Bool.and_true, if_true]; rfl
/-- Any other decrement changes PREDS alone. -/
theorem State.decrement_other (h0 : predsAt s asid tcb e ≠ 0) (hn : ¬ (predsAt s asid tcb e = 1 ∧ (stateAt s asid tcb e).toNat % 256 = 1)) :
    (s.decrement f asid tcb pa).2 = (s.homeStore f asid (tcb + 16) 4 (predsAt s asid tcb e - 1) e).2 := by
  rw [← tcbCode_eq] at hn
  simp only [predsAt, stateAt] at h0 hn ⊢
  simp only [State.decrement, hp, he, hq, h0, Bool.false_eq_true, if_false, Bool.and_eq_true, decide_eq_true_iff, if_neg hn]

/-- A decrement at home does what R12, R16 and R19 say. -/
theorem State.decrement_decremented (ht : TcbAt s asid tcb e) : Decremented s (s.decrement f asid tcb pa).2 asid tcb e := by
  refine ⟨fun hn => ?_, fun h0 => ?_⟩
  · rw [State.decrement_zero hp he hq f hn]
    obtain ⟨hstate, hpreds⟩ := ht.storeState f (stateAt s asid tcb e ||| 0x10000)
    exact ⟨hstate, hpreds.trans hn, (State.homeStore_onlyHome ..).queues⟩
  · obtain ⟨hpreds, hstate, hat⟩ := ht.storePreds f (predsAt s asid tcb e - 1)
    rw [pred_and_spanBits_four (predsAt_lt ..) h0] at hpreds
    by_cases hlast : predsAt s asid tcb e = 1 ∧ (stateAt s asid tcb e).toNat % 256 = 1
    · rw [State.decrement_last hp he hq f hlast.1 hlast.2]
      generalize s.homeStore f asid (tcb + 16) 4 (predsAt s asid tcb e - 1) e = w at hpreds hstate hat ⊢
      obtain ⟨hstate', hpreds'⟩ := hat.storeState w.1 (withCode (stateAt s asid tcb e) 2)
      generalize (w.2.homeStore w.1 asid (tcb + 8) 8 (withCode (stateAt s asid tcb e) 2) e).2 = u at hstate' hpreds' ⊢
      have hframe := u.enqueue_eq asid tcb (tcbQueue (stateAt s asid tcb e))
      have hmem := congrArg State.mem hframe
      have hlocs := congrArg State.locs hframe
      refine ⟨(State.devRead_congr hmem hlocs ..).trans (hpreds'.trans hpreds), fun _ _ => ⟨(stateAt_congr hmem hlocs ..).trans hstate', ?_⟩,
        fun hno => absurd hlast hno⟩
      rw [← show tcbQueue (stateAt s asid tcb e) = (stateAt s asid tcb e).toNat / 2 ^ 8 % 64 from extract_toNat ..]
      exact State.mem_enqueue ..
    · rw [State.decrement_other hp he hq f h0 hlast]
      exact ⟨hpreds, fun h1 h2 => absurd ⟨h1, h2⟩ hlast, fun _ => ⟨hstate, (State.homeStore_onlyHome ..).queues⟩⟩
theorem State.decrement_frame : OnlyHomeOrReady s (s.decrement f asid tcb pa).2 := by
  by_cases hn : predsAt s asid tcb e = 0
  · rw [State.decrement_zero hp he hq f hn]; exact (State.homeStore_onlyHome ..).orReady
  · by_cases hlast : predsAt s asid tcb e = 1 ∧ (stateAt s asid tcb e).toNat % 256 = 1
    · rw [State.decrement_last hp he hq f hlast.1 hlast.2]
      exact ((State.homeStore_onlyHome ..).trans (State.homeStore_onlyHome ..)).orReady.trans (State.enqueue_orReady ..)
    · rw [State.decrement_other hp he hq f hn hlast]; exact (State.homeStore_onlyHome ..).orReady
end

end Sys2Proof.Machine
end

section
/-! Translation invalidation (R17, R215): what a write of GO starts and what stands when it completes. -/

namespace Sys2Proof.Machine

/-! ### Write-backs (R217) -/

/-- One write-back leaves every word as its home holds it, and brings its own to memory. -/
theorem State.writeBack_overlay (s : State) (key : Nat) {d l : Loc} (hd : d.pa % 8 = 0) (hl : l.pa % 8 = 0) (h : d.pa = l.pa → d = l) :
    (s.writeBack key d).overlay l = s.overlay l ∧
      (s.phys64 l.pa = s.overlay l ∨ d = l → (s.writeBack key d).phys64 l.pa = s.overlay l) := by
  rw [State.writeBack]
  by_cases h0 : d.dirty = 0
  · rw [if_pos h0]
    refine ⟨rfl, fun hk => hk.elim id fun hdl => ?_⟩
    subst hdl; exact (s.overlay_clean d h0).symm
  · rw [if_neg h0]
    by_cases hpa : d.pa = l.pa
    · obtain rfl := h hpa
      have hphys : ((s.setPhys d.pa 8 (s.overlay d).toNat).setLoc key { d with dirty := 0 }).phys64 d.pa = s.overlay d := State.phys64_setPhys ..
      exact ⟨by rw [State.overlay, hphys]; exact overlaid_bits .., fun _ => hphys⟩
    · have hphys : ((s.setPhys d.pa 8 (s.overlay d).toNat).setLoc key { d with dirty := 0 }).phys64 l.pa = s.phys64 l.pa :=
        State.phys64_setPhys_other _ _ (by omega)
      exact ⟨by rw [State.overlay, hphys]; rfl, fun hk => hphys.trans (hk.resolve_right fun hdl => hpa (hdl ▸ rfl))⟩
theorem foldl_writeBack_overlay {l : Loc} (hl : l.pa % 8 = 0) (es : Table Loc) (h : ∀ d ∈ es, d.2.pa % 8 = 0 ∧ (d.2.pa = l.pa → d.2 = l)) :
    ∀ s : State, let t := es.foldl (fun s e => s.writeBack e.1 e.2) s
      t.overlay l = s.overlay l ∧ (s.phys64 l.pa = s.overlay l ∨ (∃ d ∈ es, d.2 = l) → t.phys64 l.pa = s.overlay l) := by
  induction es with
  | nil => exact fun s => ⟨rfl, fun hk => hk.elim id fun ⟨d, hd, _⟩ => nomatch hd⟩
  | cons d es ih =>
    intro s
    obtain ⟨hd, hdl⟩ := h d List.mem_cons_self
    obtain ⟨hover, hphys⟩ := s.writeBack_overlay d.1 hd hl hdl
    obtain ⟨hover', hphys'⟩ := ih (fun x hx => h x (List.mem_cons_of_mem _ hx)) (s.writeBack d.1 d.2)
    rw [hover] at hover' hphys'
    refine ⟨hover', fun hk => hphys' ?_⟩
    rcases hk with hk | ⟨x, hx, rfl⟩
    · exact .inl (hphys (.inl hk))
    · rcases List.mem_cons.1 hx with rfl | hx
      · exact .inl (hphys (.inr rfl))
      · exact .inr ⟨x, hx, rfl⟩
theorem foldl_writeBack_mem_locs {e : Nat × Loc} (es : Table Loc) (h : ∀ d ∈ es, d.1 ≠ e.1) :
    ∀ s : State, e ∈ s.locs → e ∈ (es.foldl (fun s e => s.writeBack e.1 e.2) s).locs := by
  induction es with
  | nil => exact fun _ he => he
  | cons d es ih =>
    refine fun s he => ih (fun x hx => h x (List.mem_cons_of_mem _ hx)) (s.writeBack d.1 d.2) ?_
    rw [State.writeBack]; split
    · exact he
    · exact Table.mem_put_of_ne _ he (h d List.mem_cons_self).symm
theorem foldl_heatUp_frame (ns : List Nat) : ∀ s : State,
    (ns.foldl (fun s n => s.heatUp (128 * n) true) s).mem = s.mem ∧ (ns.foldl (fun s n => s.heatUp (128 * n) true) s).locs = s.locs := by
  induction ns with
  | nil => exact fun _ => ⟨rfl, rfl⟩
  | cons n ns ih =>
    intro s
    obtain ⟨hm, hl⟩ := ih (s.heatUp (128 * n) true)
    exact ⟨hm.trans (s.heatUp_mem ..), hl.trans (s.heatUp_locs ..)⟩

section
variable (s : State) (p : Nat → Bool)

theorem State.writeBackAll_mem : (s.writeBackAll p).mem = (s.writeBackLocs p).mem := (foldl_heatUp_frame _ _).1
theorem State.writeBackAll_locs : (s.writeBackAll p).locs = (s.writeBackLocs p).locs := (foldl_heatUp_frame _ _).2
theorem State.mem_writeBackAll {e : Nat × Loc} (he : e ∈ s.locs) (h : p e.1 = false) : e ∈ (s.writeBackAll p).locs := by
  rw [State.writeBackAll_locs, State.writeBackLocs]
  refine foldl_writeBack_mem_locs _ (fun d hd hk => ?_) s he
  have hd := (List.mem_filter.1 hd).2
  rw [hk, h] at hd; cases hd
/-- A chosen word stands in memory, where no other word is kept at its address. -/
theorem State.writeBackAll_phys64 {e : Nat × Loc} (he : e ∈ s.locs) (h : p e.1 = true)
    (hsep : ∀ d ∈ s.locs, d.2.pa % 8 = 0 ∧ (d.2.pa = e.2.pa → d = e)) : (s.writeBackAll p).phys64 e.2.pa = s.overlay e.2 := by
  rw [State.phys64, State.phys, State.writeBackAll_mem]
  refine (foldl_writeBack_overlay (hsep e he).1 _ (fun d hd => ?_) s).2 ?_
  · obtain ⟨ha, hd⟩ := hsep d (List.mem_filter.1 hd).1
    exact ⟨ha, fun hpa => congrArg Prod.snd (hd hpa)⟩
  · by_cases h0 : e.2.dirty = 0
    · exact .inl (s.overlay_clean e.2 h0).symm
    · exact .inr ⟨e, List.mem_filter.2 ⟨he, by rw [h, bne_iff_ne.2 h0]; rfl⟩, rfl⟩
theorem State.writeBackAll_of_no_locs (h : s.locs = []) : s.writeBackAll p = s := by
  simp [State.writeBackAll, State.writeBackLocs, h]
end

/-! ### Copies dropped -/

/-- Every core changed alike. -/
theorem State.core_of_map {s t : State} {f : Core → Core} (h : t.cores = s.cores.map fun c => (c.1, f c.2)) (h0 : f Core.init = Core.init)
    (n : Nat) : t.core n = f (s.core n) := by
  rw [State.core, h, Table.find_map, State.core]
  cases Table.find? n s.cores
  · exact h0.symm
  · rfl
/-- A context without the floors, and a core without the lines and the floors, of dropped words. -/
def Ctx.dropFloors (keys : Nat → Bool) (x : Ctx) : Ctx := { x with floors := x.floors.filter fun e => !keys (e.1 / 16) }
def Core.dropFloors (keys : Nat → Bool) (c : Core) : Core := { c with ctxs := c.ctxs.map fun x => (x.1, x.2.dropFloors keys) }
def Core.dropLines (lines : Asid → Nat → Bool) (c : Core) : Core := { c with lines := c.lines.filter fun l => !lines l.asid l.line }

section
variable (s : State) (keys : Nat → Bool) (lines : Asid → Nat → Bool)

theorem State.dropLocs_core (n : Nat) : (s.dropLocs keys).core n = (s.core n).dropFloors keys :=
  State.core_of_map (f := Core.dropFloors keys) rfl rfl n
theorem State.dropLines_core (n : Nat) : (s.dropLines lines).core n = (s.core n).dropLines lines :=
  State.core_of_map (f := Core.dropLines lines) rfl rfl n
theorem Core.dropFloors_ctx (c : Core) (k : Nat) : (c.dropFloors keys).ctx k = (c.ctx k).dropFloors keys := by
  rw [Core.ctx, Core.dropFloors, Table.find_map (Ctx.dropFloors keys), Core.ctx]
  cases Table.find? k c.ctxs <;> rfl
end

/-- What an invalidation drops: words by their keys, lines, and the page's or the identifier's translations. -/
def State.dropped (s : State) (keys : Nat → Bool) (lines : Asid → Nat → Bool) (asid : Asid) (va : Option VA) : State :=
  (((s.writeBackAll keys).dropLocs keys).dropLines lines).dropXlat asid va

section
variable (s : State) (keys : Nat → Bool) (lines : Asid → Nat → Bool) (asid : Asid) (va : Option VA)

theorem State.dropped_eq : s.dropped keys lines asid va = { s with
    mem := (s.writeBackAll keys).mem, locs := (s.writeBackAll keys).locs.filter fun e => !keys e.1, heat := (s.writeBackAll keys).heat,
    cores := (s.dropped keys lines asid va).cores, pubs := (s.dropped keys lines asid va).pubs, tlb := (s.dropXlat asid va).tlb } := by
  rw [State.dropped, State.writeBackAll_eq]; rfl
theorem State.dropped_mem : (s.dropped keys lines asid va).mem = (s.writeBackAll keys).mem := rfl
theorem State.dropped_locs : (s.dropped keys lines asid va).locs = (s.writeBackAll keys).locs.filter fun e => !keys e.1 := rfl
theorem State.dropped_core (n : Nat) : (s.dropped keys lines asid va).core n = ((s.core n).dropFloors keys).dropLines lines := by
  have hcore : (s.writeBackAll keys).core n = s.core n := by rw [State.writeBackAll_eq]; rfl
  rw [← hcore, ← State.dropLocs_core, ← State.dropLines_core]; rfl
theorem State.dropped_ctx (n k : Nat) : (s.ctx n k).SameRegs ((s.dropped keys lines asid va).ctx n k) := by
  rw [State.ctx, State.ctx, State.dropped_core]
  change ((s.core n).ctx k).SameRegs (((s.core n).dropFloors keys).ctx k)
  rw [Core.dropFloors_ctx]
  exact ⟨rfl, rfl, rfl, rfl, rfl⟩
theorem State.mem_dropped_lines {n : Nat} {l : Line} (h : l ∈ ((s.dropped keys lines asid va).core n).lines) :
    l ∈ (s.core n).lines ∧ lines l.asid l.line = false := by
  rw [State.dropped_core] at h
  obtain ⟨hl, hk⟩ := List.mem_filter.1 h
  exact ⟨hl, by simpa using hk⟩
/-- The dirty bytes of the dropped words are at home, the other words are as they were, and no dropped word is left. -/
theorem State.dropped_carriedHome : CarriedHome s (s.dropped keys lines asid va) (fun key => keys key = true) ∧
    ∀ e ∈ (s.dropped keys lines asid va).locs, ¬ keys e.1 = true := by
  rw [CarriedHome, State.dropped_locs]
  have hgone : ∀ e ∈ (s.writeBackAll keys).locs.filter (fun e => !keys e.1), ¬ keys e.1 = true := fun e he => by
    simpa using (List.mem_filter.1 he).2
  refine ⟨⟨fun e he hk => absurd hk (hgone e he), fun e he hk => ?_, fun e he hk hsep => ?_⟩, hgone⟩
  · have hk := Bool.eq_false_iff.2 hk
    exact List.mem_filter.2 ⟨s.mem_writeBackAll keys he hk, by rw [hk]; rfl⟩
  · rw [State.phys64_same (State.dropped_mem ..)]
    exact s.writeBackAll_phys64 keys he hk hsep
end

/-! ### The words, lines and translations of a page or an identifier (R215) -/

/-- An address of the page, or any where the identifier is invalidated; and the words of either. -/
def xlatPage (all : Bool) (va : VA) (k a : Nat) : Bool := all || a / 2 ^ (16 + k) == va.toNat / 2 ^ (16 + k)
def xlatKeys (asid : Asid) (all : Bool) (va : VA) (k key : Nat) : Bool := if all then asidKeys asid key else pageKeys asid va k key
/-- What the invalidation names: the page of an address, or nothing but the identifier. -/
def xlatTarget (all : Bool) (va : VA) : Option VA := if all then none else some va

theorem xlatPage_iff (all : Bool) (va : VA) (k a : Nat) : xlatPage all va k a = true ↔ all = true ∨ a / 2 ^ (16 + k) = va.toNat / 2 ^ (16 + k) := by
  simp only [xlatPage, Bool.or_eq_true, beq_iff_eq]
theorem pageKeys_iff (asid : Asid) (va : VA) (z key : Nat) : pageKeys asid va (szBits z) key = true ↔
    key / 2 ^ 53 = asid.toNat ∧ key % 2 ^ 53 * 8 / 2 ^ (16 + szBits z) = va.toNat / 2 ^ (16 + szBits z) := by
  have hva := va.isLt
  rcases szBits_cases z with h | h | h <;> simp only [pageKeys, h, beq_iff_eq] <;> omega
theorem xlatKeys_iff (asid : Asid) (all : Bool) (va : VA) (z key : Nat) : xlatKeys asid all va (szBits z) key = true ↔
    key / 2 ^ 53 = asid.toNat ∧ (all = true ∨ key % 2 ^ 53 * 8 / 2 ^ (16 + szBits z) = va.toNat / 2 ^ (16 + szBits z)) := by
  cases all
  · simpa [xlatKeys] using pageKeys_iff asid va z key
  · simp [xlatKeys, asidKeys]
theorem State.mem_dropXlat {s : State} {asid : Asid} {all : Bool} {va : VA} {x : Tlb} (h : x ∈ (s.dropXlat asid (xlatTarget all va)).tlb) :
    x ∈ s.tlb ∧ ¬ (x.asid = asid ∧ (all = true ∨ (Pte.mk x.pte x.w0 x.w8).covers va = true)) := by
  obtain ⟨hx, hk⟩ := List.mem_filter.1 h
  refine ⟨hx, fun ⟨ha, hc⟩ => ?_⟩
  cases all with
  | true => simp [xlatTarget, ha] at hk
  | false => simp [xlatTarget, ha, hc.resolve_left Bool.false_ne_true] at hk

/-! ### The size of the page -/

theorem foldl_max_eq {l : List Nat} {z : Nat} (h : ∀ y ∈ l, y ≤ z) : ∀ a, a ≤ z → a = z ∨ z ∈ l → l.foldl max a = z := by
  induction l with
  | nil => exact fun a _ hz => hz.resolve_right List.not_mem_nil
  | cons y l ih =>
    intro a ha hz
    have hy := h y List.mem_cons_self
    refine ih (fun x hx => h x (List.mem_cons_of_mem _ hx)) (max a y) (Nat.max_le.2 ⟨ha, hy⟩) ?_
    rcases hz with rfl | hz
    · exact .inl (Nat.max_eq_left hy)
    · rcases List.mem_cons.1 hz with rfl | hz
      · exact .inl (Nat.max_eq_right ha)
      · exact .inr hz
theorem State.pageSize_eq {s : State} {asid : Asid} {va : VA} {z : Nat} (h : SizeAt s asid va z) : s.pageSize asid va = szBits z := by
  obtain ⟨hle, hz⟩ := h
  have hmem (y : Nat) : y ∈ ((s.tlb.filter fun t => t.asid == asid && (Pte.mk t.pte t.w0 t.w8).covers va).map fun t => (t.w0.extractLsb' 61 2).toNat) ++
      (match s.walk asid va with | some e => [e.sz] | none => []) ↔
      (∃ e, s.walk asid va = some e ∧ e.sz = y) ∨ ∃ x ∈ s.tlb, x.asid = asid ∧ (Pte.mk x.pte x.w0 x.w8).covers va = true ∧ (Pte.mk x.pte x.w0 x.w8).sz = y := by
    rw [List.mem_append, or_comm]
    refine or_congr ?_ ?_
    · cases s.walk asid va <;> simp [eq_comm]
    · simp [Pte.sz, and_assoc]
  exact congrArg szBits (foldl_max_eq (fun y hy => hle y ((hmem y).1 hy)) 0 (Nat.zero_le z) (hz.imp Eq.symm (hmem z).2))

/-! ### The invalidation completes -/

section
variable {s : State} {asid : Asid} {va : VA} {all : Bool} {k : Nat}

/-- No access of the identifier is under way, and no copy of it that writes memory. -/
def SettledFor (s : State) (asid : Asid) : Prop := (∀ f ∈ s.flights, f.asid ≠ asid) ∧
  ∀ c ∈ s.cmds, c.asid = asid → c.phase = .running → ∀ w ∈ c.writes, w.toMem = false
theorem SettledFor.settleAsid_eq (h : SettledFor s asid) : s.settleAsid asid = s := by
  obtain ⟨hf, hc⟩ := h
  have hflights : s.flights.filter (fun f => f.asid == asid) = [] := List.filter_eq_nil_iff.2 fun f hm => by simpa using hf f hm
  have hcmds : s.cmds.filter (fun c => c.asid == asid && c.phase == .running && c.writes.any CmdWrite.toMem) = [] :=
    List.filter_eq_nil_iff.2 fun c hm => by simpa [and_assoc] using hc c hm
  simp only [State.settleAsid, hflights, List.foldl_nil, hcmds]

/-- What an invalidation drops of the machine. -/
def State.forgotten (s : State) (asid : Asid) (va : VA) (all : Bool) (k : Nat) : State :=
  s.dropped (xlatKeys asid all va k) (fun a l => a == asid && xlatPage all va k (l * 128)) asid (xlatTarget all va)
/-- The decrements on their way that wait on a dropped translation. -/
def State.waitingDecs (s : State) (asid : Asid) (va : VA) (all : Bool) (k : Nat) : List (Asid × Nat × Nat) :=
  s.decs.filter fun d => d.1 == asid && xlatPage all va k d.2.1
theorem State.forgotten_frame : s.forgotten asid va all k = { s with
    mem := (s.forgotten asid va all k).mem, locs := (s.forgotten asid va all k).locs, heat := (s.forgotten asid va all k).heat,
    cores := (s.forgotten asid va all k).cores, pubs := (s.forgotten asid va all k).pubs, tlb := (s.dropXlat asid (xlatTarget all va)).tlb } :=
  State.dropped_eq ..
theorem State.forgotten_kept : (s.forgotten asid va all k).regs = s.regs ∧ (s.forgotten asid va all k).tlb = (s.dropXlat asid (xlatTarget all va)).tlb ∧
    (s.forgotten asid va all k).decs = s.decs ∧ (s.forgotten asid va all k).queues = s.queues ∧
    ∀ pa, (s.forgotten asid va all k).poisoned pa = s.poisoned pa := by
  rw [State.forgotten_frame]; exact ⟨rfl, rfl, rfl, rfl, fun _ => rfl⟩
theorem State.forgotten_of_no_locs (h : s.locs = []) :
    (s.forgotten asid va all k).mem = s.mem ∧ (s.forgotten asid va all k).locs = s.locs := by
  rw [State.forgotten, State.dropped_mem, State.dropped_locs, State.writeBackAll_of_no_locs _ _ h, h]; exact ⟨rfl, rfl⟩
theorem State.invalidate_eq (h : SettledFor s asid) (hk : all = false → s.pageSize asid va = k) : s.invalidate asid (xlatTarget all va) =
    (s.waitingDecs asid va all k).foldl (fun s d => (State.decrement { s with decs := s.decs.erase d } [] d.1 (BitVec.ofNat 56 d.2.1) d.2.2).2)
      (s.forgotten asid va all k) := by
  obtain ⟨-, -, hdecs, -⟩ := s.forgotten_kept (asid := asid) (va := va) (all := all) (k := k)
  rw [State.waitingDecs, ← hdecs]
  cases all
  · obtain rfl := hk rfl
    simp only [State.invalidate, h.settleAsid_eq, xlatTarget]; rfl
  · simp only [State.invalidate, h.settleAsid_eq, xlatTarget]; rfl
end

/-- GO reads 0, the other bits as they were in `x`. -/
def State.goCleared (s : State) (x : W64) : State := { s with regs := { s.regs with xreg := x &&& 0x7FFFFFFFFFFFFFFF } }
theorem exec_xlatInvalidateComplete_go {s : State} (h : s.regs.xreg.getLsbD 63 = true) : exec .xlatInvalidateComplete s =
    .next ((s.invalidate (s.regs.xreg.setWidth 13) (xlatTarget (s.regs.xreg.getLsbD 62) (s.regs.xva.setWidth 56))).goCleared s.regs.xreg) := by
  have hasid : s.regs.xreg.extractLsb' 0 13 = s.regs.xreg.setWidth 13 := BitVec.eq_of_toNat_eq rfl
  simp only [exec_xlatInvalidateComplete, execXlatInvalidateComplete, h, Bool.not_true, Bool.false_eq_true, if_false, hasid, addr_eq_setWidth]
  rfl

/-- What every completed invalidation leaves: GO at 0, the registers of every context, and neither translations nor lines of what it names. -/
def Forgets (s t : State) (asid : Asid) (va : VA) (all : Bool) (k : Nat) : Prop :=
  t.regs = { s.regs with xreg := s.regs.xreg &&& 0x7FFFFFFFFFFFFFFF } ∧ (∀ n k, (s.ctx n k).SameRegs (t.ctx n k)) ∧
    (∀ x ∈ t.tlb, x ∈ s.tlb ∧ ¬ (x.asid = asid ∧ (all = true ∨ (Pte.mk x.pte x.w0 x.w8).covers va = true))) ∧
    ∀ n, ∀ l ∈ (t.core n).lines, l ∈ (s.core n).lines ∧
      ¬ (l.asid = asid ∧ (all = true ∨ 128 * l.line / 2 ^ (16 + k) = va.toNat / 2 ^ (16 + k)))
theorem forgets_of_forgotten {s u : State} {asid : Asid} {va : VA} {all : Bool} {k : Nat} (hr : u.regs = s.regs)
    (hc : u.cores = (s.forgotten asid va all k).cores) (ht : u.tlb = (s.dropXlat asid (xlatTarget all va)).tlb) : Forgets s (u.goCleared s.regs.xreg) asid va all k := by
  have hcore (n : Nat) : (u.goCleared s.regs.xreg).core n = (s.forgotten asid va all k).core n := by
    show (Table.find? n u.cores).getD Core.init = _
    rw [hc]; rfl
  refine ⟨by rw [State.goCleared, hr], fun n j => ?_, fun x hx => State.mem_dropXlat (ht ▸ hx), fun n l hl => ?_⟩
  · rw [State.ctx, State.ctx, hcore]; exact State.dropped_ctx ..
  · rw [hcore] at hl
    obtain ⟨hl, hgone⟩ := State.mem_dropped_lines _ _ _ _ _ hl
    refine ⟨hl, fun ⟨ha, hpage⟩ => ?_⟩
    rw [Nat.mul_comm, ← xlatPage_iff] at hpage
    rw [ha, hpage] at hgone
    simp at hgone

theorem CarriedHome.congr {s t u : State} {p : Nat → Prop} (h : CarriedHome s t p) (hm : u.mem = t.mem) (hl : u.locs = t.locs) : CarriedHome s u p := by
  simpa only [CarriedHome, State.phys64_same hm, hl] using h
theorem Decremented.congr {s t u v : State} {asid : Asid} {tcb : VA} {e : Pte} (h : Decremented u v asid tcb e) (hm : u.mem = s.mem) (hl : u.locs = s.locs)
    (hq : u.queues = s.queues) (hm' : t.mem = v.mem) (hl' : t.locs = v.locs) (hq' : t.queues = v.queues) : Decremented s t asid tcb e := by
  have hs := stateAt_congr hm hl asid tcb e
  have ht := stateAt_congr hm' hl' asid tcb e
  have hsp : predsAt u asid tcb e = predsAt s asid tcb e := State.devRead_congr hm hl ..
  have htp : predsAt t asid tcb e = predsAt v asid tcb e := State.devRead_congr hm' hl' ..
  simp only [Decremented, hs, hsp, hq] at h
  simpa only [Decremented, ht, htp, hq', State.queueOf] using h
theorem State.pteAt_same {s t : State} (hm : t.mem = s.mem) (hr : t.regs = s.regs) (hl : t.locs = s.locs) (asid : Asid) (va : VA) (pa : Nat) :
    t.pteAt asid va pa = s.pteAt asid va pa := by
  simp only [State.pteAt, State.walk_same hm hr, hl]
theorem TcbAt.congr {s t : State} {asid : Asid} {tcb : VA} {e : Pte} (h : TcbAt s asid tcb e) (hl : t.locs = s.locs) : TcbAt t asid tcb e := by
  simpa only [TcbAt, InPlace, hl] using h
theorem OnlyHomeOrReady.kept {s t : State} (h : OnlyHomeOrReady s t) : t.regs = s.regs ∧ t.cores = s.cores ∧ t.tlb = s.tlb ∧ t.decs = s.decs := by
  rw [h]; exact ⟨rfl, rfl, rfl, rfl⟩

section
variable {s : State} (h : s.regs.xreg.getLsbD 63 = true) {asid : Asid} (ha : s.regs.xreg.setWidth 13 = asid) {va : VA} (hv : s.regs.xva.setWidth 56 = va)
  {all : Bool} (hall : s.regs.xreg.getLsbD 62 = all) {z : Nat} (hz : all = false → SizeAt s asid va z) (hs : SettledFor s asid)
include h ha hv hall hz hs

theorem exec_xlatInvalidateComplete_eq : exec .xlatInvalidateComplete s =
    .next (((s.waitingDecs asid va all (szBits z)).foldl (fun s d => (State.decrement { s with decs := s.decs.erase d } [] d.1 (BitVec.ofNat 56 d.2.1) d.2.2).2)
      (s.forgotten asid va all (szBits z))).goCleared s.regs.xreg) := by
  rw [exec_xlatInvalidateComplete_go h, ha, hv, hall, State.invalidate_eq hs fun hpage => State.pageSize_eq (hz hpage)]

/-- No decrement waits: what the invalidation names is dropped, its dirty bytes at home. -/
theorem xlatInvalidateComplete_forgets (hd : s.waitingDecs asid va all (szBits z) = []) : ∃ t, exec .xlatInvalidateComplete s = .next t ∧
    Forgets s t asid va all (szBits z) ∧ CarriedHome s t (fun key => xlatKeys asid all va (szBits z) key = true) ∧ t.decs = s.decs ∧
    ∀ e ∈ t.locs, ¬ xlatKeys asid all va (szBits z) e.1 = true := by
  have hexec := exec_xlatInvalidateComplete_eq h ha hv hall hz hs
  rw [hd, List.foldl_nil] at hexec
  obtain ⟨hregs, htlb, hdecs, -⟩ := s.forgotten_kept (asid := asid) (va := va) (all := all) (k := szBits z)
  obtain ⟨hhome, hgone⟩ := State.dropped_carriedHome s (xlatKeys asid all va (szBits z)) (fun a l => a == asid && xlatPage all va (szBits z) (l * 128))
    asid (xlatTarget all va)
  exact ⟨_, hexec, forgets_of_forgotten hregs rfl htlb, hhome.congr rfl rfl, hdecs, hgone⟩

/-- One decrement waits on the page's translation: it is performed. -/
theorem xlatInvalidateComplete_decrements {tcb : VA} {pa : Nat} {e : Pte} (hd : s.decs = [(asid, tcb.toNat, pa)])
    (hw : s.waitingDecs asid va all (szBits z) = s.decs) (hl : s.locs = []) (hp : s.poisoned pa = false) (he : s.pteAt asid (tcb + 8) (pa + 8) = e)
    (hq : s.pteAt asid (tcb + 16) (pa + 16) = e) (ht : TcbAt s asid tcb e) : ∃ t, exec .xlatInvalidateComplete s = .next t ∧
      Forgets s t asid va all (szBits z) ∧ Decremented s t asid tcb e ∧ t.decs = [] := by
  have hexec := exec_xlatInvalidateComplete_eq h ha hv hall hz hs
  rw [hw, hd, List.foldl_cons, List.foldl_nil, BitVec.ofNat_toNat, BitVec.setWidth_eq] at hexec
  obtain ⟨hregs, htlb, hdecs, hqueues, hpoisoned⟩ := s.forgotten_kept (asid := asid) (va := va) (all := all) (k := szBits z)
  obtain ⟨hm, hlocs⟩ := s.forgotten_of_no_locs (asid := asid) (va := va) (all := all) (k := szBits z) hl
  generalize hg : s.forgotten asid va all (szBits z) = v at hexec hregs htlb hdecs hqueues hpoisoned hm hlocs
  have hpv : State.poisoned { v with decs := v.decs.erase (asid, tcb.toNat, pa) } pa = false := (hpoisoned pa).trans hp
  have hev := (State.pteAt_same (t := { v with decs := v.decs.erase (asid, tcb.toNat, pa) }) hm hregs hlocs asid (tcb + 8) (pa + 8)).trans he
  have hqv := (State.pteAt_same (t := { v with decs := v.decs.erase (asid, tcb.toNat, pa) }) hm hregs hlocs asid (tcb + 16) (pa + 16)).trans hq
  have hdec := State.decrement_decremented hpv hev hqv [] (ht.congr hlocs)
  obtain ⟨hregs', hcores', htlb', hdecs'⟩ := (State.decrement_frame hpv hev hqv []).kept
  generalize (State.decrement { v with decs := v.decs.erase (asid, tcb.toNat, pa) } [] asid tcb pa).2 = u at hexec hdec hregs' hcores' htlb' hdecs'
  refine ⟨_, hexec, forgets_of_forgotten (hregs'.trans hregs) (hg ▸ hcores') (htlb'.trans htlb), hdec.congr hm hlocs hqueues rfl rfl rfl, hdecs'.trans ?_⟩
  rw [hdecs, hd, List.erase_cons_head]
end

/-! ### A write of GO -/

theorem not_notItsRange_none (s : State) : ¬ NotItsRange s none := fun ⟨_, hf, _⟩ => nomatch hf
theorem notItsRange_some (s : State) (f : BitVec 6) : NotItsRange s (some f) ↔ (s.regs.xreg.extractLsb' 0 13).toNat < (s.func f.toNat).asidLo ∨
    (s.func f.toNat).asidHi < (s.regs.xreg.extractLsb' 0 13).toNat := by
  have hhi : (s.func f.toNat).asidHi = (s.func f.toNat).w18.toNat / 2 ^ 51 := by
    rw [FEntry.asidHi, extract_toNat, Nat.mod_eq_of_lt]; have := (s.func f.toNat).w18.isLt; omega
  rw [hhi, FEntry.asidLo, extract_low_toNat, extract_toNat]
  simp [NotItsRange]
theorem State.xlatGo_ignored {s : State} {func : Option (BitVec 6)} (h : s.regs.xreg.getLsbD 63 = true ∨ NotItsRange s func) (all : Bool) :
    s.xlatGo func all = s := by
  cases func with
  | none => simp [State.xlatGo, h.resolve_right (not_notItsRange_none s)]
  | some f =>
    have h := h.imp_right (notItsRange_some s f).1
    simp only [State.xlatGo, Bool.or_eq_true, decide_eq_true_iff, if_pos h]
theorem State.xlatGo_starts {s : State} {func : Option (BitVec 6)} (h : s.regs.xreg.getLsbD 63 = false) (hf : ¬ NotItsRange s func) (all : Bool) :
    s.xlatGo func all = ({ s with regs := { s.regs with
      xreg := (s.regs.xreg &&& 0x1FFF) ||| (if all then 0xC000000000000000 else 0x8000000000000000) } } : State).after s.lat.xlat .xlatInvalidateComplete := by
  cases func with
  | none => simp only [State.xlatGo, h, Bool.or_self, Bool.false_eq_true, if_false]
  | some f =>
    have hf := mt (notItsRange_some s f).2 hf
    simp only [State.xlatGo, h, Bool.or_eq_true, decide_eq_true_iff, Bool.false_or, if_neg hf]

/-- Settles O49: a GO that may start sets XREG and the completion to come; at the completion every clause is a fact of what is dropped, or of the one
decrement that waits. -/
theorem invalidations : Obligations.Invalidations := by
  unfold Obligations.Invalidations
  refine ⟨?_, fun s h => ?_, ?_⟩
  · intro i all func s hi
    have hexec : exec i s = .next (s.xlatGo func all) := by rcases hi with ⟨rfl, rfl⟩ | ⟨rfl, rfl⟩ <;> rfl
    rw [hexec]
    refine ⟨fun h => congrArg _ (State.xlatGo_ignored h all), fun h hf => ?_⟩
    rw [State.xlatGo_starts h hf all]
    exact ⟨_, rfl, rfl, rfl, State.mem_after ..⟩
  · simp only [exec_xlatInvalidateComplete, execXlatInvalidateComplete, h, Bool.not_false, if_true]
  · intro s z h asid va all hz hf hc _ inPage gone
    have hkeys : (fun key => xlatKeys asid all va (szBits z) key = true) = fun key => key / 2 ^ 53 = asid.toNat ∧ inPage (key % 2 ^ 53 * 8) :=
      funext fun key => propext (xlatKeys_iff asid all va z key)
    refine ⟨fun hd => ?_, ?_⟩
    · have hnone : s.waitingDecs asid va all (szBits z) = [] := List.filter_eq_nil_iff.2 fun d hm hk => by
        rw [Bool.and_eq_true, beq_iff_eq, xlatPage_iff] at hk
        exact hd d hm hk
      obtain ⟨t, hexec, hforgets, hhome, hdecs, hlocs⟩ := xlatInvalidateComplete_forgets h rfl rfl rfl hz ⟨hf, hc⟩ hnone
      rw [hkeys] at hhome
      exact ⟨t, hexec, hforgets, hhome, hdecs, fun e he hk => hlocs e he ((xlatKeys_iff asid all va z e.1).2 hk)⟩
    · intro tcb pa hd hpage hl hp e hq ht
      have hall : s.waitingDecs asid va all (szBits z) = s.decs := by
        have hin : xlatPage all va (szBits z) tcb.toNat = true := (xlatPage_iff ..).2 hpage
        rw [State.waitingDecs, hd]; simp [hin]
      exact xlatInvalidateComplete_decrements h rfl rfl rfl hz ⟨hf, hc⟩ hd hall hl hp rfl hq ht

end Sys2Proof.Machine
end

section
/-! SUPPORT. Number formats: what rounding does to an integer, and that a code of a format is what its value encodes to. -/

namespace Sys2Proof

/-! ### Rounding to an integer (R44) -/

/-- The quotient and the rest of a rounding, and the three things it can do: it is exact, it leaves the rest out, or it steps away from zero. -/
theorem roundShift_cases (mode : RM) (neg : Bool) (m k : Nat) : ∃ n rem, m = n * 2 ^ k + rem ∧ m % 2 ^ k = rem ∧ rem < 2 ^ k ∧
    (rem = 0 ∧ roundShift mode neg m k = (n, false) ∨
     0 < rem ∧ 2 ^ k = 2 * 2 ^ (k - 1) ∧
      (roundUp mode neg (n % 2 = 1) rem (2 ^ (k - 1)) = false ∧ roundShift mode neg m k = (n, true) ∨
       roundUp mode neg (n % 2 = 1) rem (2 ^ (k - 1)) = true ∧ roundShift mode neg m k = (n + 1, true))) := by
  refine ⟨m / 2 ^ k, m % 2 ^ k, (Nat.div_add_mod' m _).symm, rfl, Nat.mod_lt _ (Nat.two_pow_pos k), ?_⟩
  cases k with
  | zero => exact .inl ⟨Nat.mod_one m, by simp [roundShift]⟩
  | succ k =>
    rcases Nat.eq_zero_or_pos (m % 2 ^ (k + 1)) with h0 | hpos
    · refine .inl ⟨h0, ?_⟩
      have hstay : ∀ odd, roundUp mode neg odd 0 (2 ^ k) = false := by
        have := Nat.ne_of_lt (Nat.two_pow_pos k)
        intro odd; cases mode <;> simp [roundUp, this]
      simp [roundShift, h0, hstay]
    · refine .inr ⟨hpos, Nat.pow_succ', ?_⟩
      have hx : (m % 2 ^ (k + 1) != 0) = true := bne_iff_ne.2 (Nat.ne_of_gt hpos)
      cases hup : roundUp mode neg (m / 2 ^ (k + 1) % 2 = 1) (m % 2 ^ (k + 1)) (2 ^ (k + 1 - 1))
      · exact .inl ⟨rfl, by simp only [roundShift, hup, hx]; rfl⟩
      · exact .inr ⟨rfl, by simp only [roundShift, hup, hx]; rfl⟩

/-- A rounding is inexact exactly where something is left out, and moves by less than one. -/
theorem roundShift_moves (mode : RM) (neg : Bool) (m k : Nat) :
    ((roundShift mode neg m k).2 = false ↔ m % 2 ^ k = 0) ∧
    ((roundShift mode neg m k).2 = false → (roundShift mode neg m k).1 * 2 ^ k = m) ∧
    (roundShift mode neg m k).1 * 2 ^ k < m + 2 ^ k ∧ m < (roundShift mode neg m k).1 * 2 ^ k + 2 ^ k := by
  obtain ⟨n, rem, hm, hmod, hlt, hcase⟩ := roundShift_cases mode neg m k
  rw [hmod]
  rcases hcase with ⟨h0, hr⟩ | ⟨hpos, -, ⟨-, hr⟩ | ⟨-, hr⟩⟩
  · rw [hr]; dsimp only; exact ⟨⟨fun _ => h0, fun _ => rfl⟩, fun _ => by omega, by omega, by omega⟩
  · rw [hr]; dsimp only; exact ⟨⟨nofun, fun h => by omega⟩, nofun, by omega, by omega⟩
  · rw [hr]; simp only [Nat.add_mul, Nat.one_mul]; exact ⟨⟨nofun, fun h => by omega⟩, nofun, by omega, by omega⟩

/-- The direction of a rounding is the mode's; to nearest it moves by at most a half, and a tie goes to the even neighbour. -/
theorem roundShift_direction (mode : RM) (neg : Bool) (m k : Nat) :
    match mode with
    | .rtz => (roundShift mode neg m k).1 * 2 ^ k ≤ m
    | .rdn => if neg then m ≤ (roundShift mode neg m k).1 * 2 ^ k else (roundShift mode neg m k).1 * 2 ^ k ≤ m
    | .rup => if neg then (roundShift mode neg m k).1 * 2 ^ k ≤ m else m ≤ (roundShift mode neg m k).1 * 2 ^ k
    | .rne => 2 * ((roundShift mode neg m k).1 * 2 ^ k) ≤ 2 * m + 2 ^ k ∧ 2 * m ≤ 2 * ((roundShift mode neg m k).1 * 2 ^ k) + 2 ^ k ∧
        (2 * ((roundShift mode neg m k).1 * 2 ^ k) = 2 * m + 2 ^ k ∨ 2 * m = 2 * ((roundShift mode neg m k).1 * 2 ^ k) + 2 ^ k →
          (roundShift mode neg m k).1 % 2 = 0) := by
  obtain ⟨n, rem, hm, -, hlt, hcase⟩ := roundShift_cases mode neg m k
  have hunit := Nat.two_pow_pos k
  rcases hcase with ⟨h0, hr⟩ | ⟨hpos, hhalf, ⟨hstay, hr⟩ | ⟨hup, hr⟩⟩
  · have hexact : n * 2 ^ k = m := by omega
    rw [hr]; dsimp only; rw [hexact]
    cases mode with
    | rtz => exact Nat.le_refl m
    | rdn => simp
    | rup => simp
    | rne => exact ⟨by omega, by omega, by omega⟩
  · rw [hr]
    cases mode with
    | rtz => dsimp only; omega
    | rdn =>
      have hneg : neg = false := by simpa [roundUp, Nat.ne_of_gt hpos] using hstay
      rw [hneg]; simp only [Bool.false_eq_true, if_false]; omega
    | rup =>
      have hneg : neg = true := by simpa [roundUp, Nat.ne_of_gt hpos] using hstay
      rw [hneg]; simp only [if_true]; omega
    | rne => simp [roundUp] at hstay ⊢; omega
  · rw [hr]; simp only [Nat.add_mul, Nat.one_mul]
    cases mode with
    | rtz => cases hup
    | rdn =>
      have hneg : neg = true := by simpa [roundUp, Nat.ne_of_gt hpos] using hup
      rw [hneg]; simp only [if_true]; omega
    | rup =>
      have hneg : neg = false := by simpa [roundUp, Nat.ne_of_gt hpos] using hup
      rw [hneg]; simp only [Bool.false_eq_true, if_false]; omega
    | rne => simp [roundUp] at hup ⊢; omega

/-! ### A code, its value, and the code again (R32) -/

/-- A value whose last place is no finer than the format's quantum there is coded as it is. -/
theorem roundAt_of_le (mode : RM) (neg : Bool) (m : Nat) {e q : Int} (h : q ≤ e) :
    roundAt mode neg m e q = (m * 2 ^ (e - q).toNat, false) := if_pos h

/-- A subnormal magnitude is its own code. -/
theorem FloatFmt.roundMag_subnormal (f : FloatFmt) (mode : RM) (neg : Bool) {m : Nat} (h0 : m ≠ 0) (h : m < 2 ^ f.mbits) :
    ∃ tiny, f.roundMag mode neg m f.qmin = (m, false, tiny) := by
  refine ⟨(f.roundMag mode neg m f.qmin).2.2, ?_⟩
  have hlog : Nat.log2 m < f.mbits := (Nat.log2_lt h0).2 h
  have hq : (Nat.log2 m : Int) + f.qmin - f.mbits < f.qmin := by omega
  simp only [FloatFmt.roundMag, if_pos hq, roundAt_of_le mode neg m (Int.le_refl f.qmin)]
  simp

/-- A normal magnitude's code is its exponent's place, with the significand added. -/
theorem FloatFmt.roundMag_normal (f : FloatFmt) (mode : RM) (neg : Bool) {m E : Nat} (h : m < 2 ^ f.mbits) :
    f.roundMag mode neg (2 ^ f.mbits + m) (f.qmin + E) = (E * 2 ^ f.mbits + (2 ^ f.mbits + m), false, false) := by
  have hlog : Nat.log2 (2 ^ f.mbits + m) = f.mbits :=
    (Nat.log2_eq_iff (by have := Nat.two_pow_pos f.mbits; omega)).2 ⟨by omega, by rw [Nat.pow_succ]; omega⟩
  have hq : (f.mbits : Int) + (f.qmin + E) - f.mbits = f.qmin + E := by omega
  simp only [FloatFmt.roundMag, hlog, hq, if_neg (show ¬ f.qmin + (E : Int) < f.qmin by omega),
    roundAt_of_le mode neg _ (Int.le_refl (f.qmin + E)), Int.sub_self, show (f.qmin + (E : Int) - f.qmin).toNat = E by omega,
    Int.toNat_zero, Nat.pow_zero, Nat.mul_one]

/-- A magnitude above zero, split at the fraction: its decoded significand and exponent round to it in every direction. -/
theorem FloatFmt.roundMag_decoded (f : FloatFmt) (mode : RM) (neg : Bool) {mag : Nat} (h : mag ≠ 0) :
    ∃ tiny, f.roundMag mode neg (if mag / 2 ^ f.mbits = 0 then mag % 2 ^ f.mbits else 2 ^ f.mbits + mag % 2 ^ f.mbits)
      (if mag / 2 ^ f.mbits = 0 then f.qmin else f.qmin + (mag / 2 ^ f.mbits - 1 : Nat)) = (mag, false, tiny) := by
  have hlt := Nat.mod_lt mag (Nat.two_pow_pos f.mbits)
  have hsplit := Nat.div_add_mod' mag (2 ^ f.mbits)
  by_cases hE : mag / 2 ^ f.mbits = 0
  · rw [if_pos hE, if_pos hE]
    rw [hE, Nat.zero_mul, Nat.zero_add] at hsplit
    rw [hsplit] at hlt ⊢
    exact f.roundMag_subnormal mode neg h hlt
  · rw [if_neg hE, if_neg hE, f.roundMag_normal mode neg hlt]
    obtain ⟨E, hE'⟩ := Nat.exists_eq_succ_of_ne_zero hE
    rw [hE', Nat.succ_mul] at hsplit
    refine ⟨false, ?_⟩
    rw [hE']; simp only [Nat.succ_sub_one, Prod.mk.injEq, and_true]; omega

/-- The significand of a magnitude above zero is above zero. -/
theorem FloatFmt.significand_pos (f : FloatFmt) {mag : Nat} (h : mag ≠ 0) :
    0 < if mag / 2 ^ f.mbits = 0 then mag % 2 ^ f.mbits else 2 ^ f.mbits + mag % 2 ^ f.mbits := by
  have hsplit := Nat.div_add_mod' mag (2 ^ f.mbits)
  split
  next hE => rw [hE, Nat.zero_mul, Nat.zero_add] at hsplit; omega
  next => exact Nat.add_pos_left (Nat.two_pow_pos _) _

/-- A format's infinity, where it has one, is the code after the greatest finite one, and the only one with no fraction above it. -/
def FloatFmt.InfIsNext (f : FloatFmt) : Prop := f.hasInf = true → f.maxCode + 1 + 2 ^ f.mbits = f.signBit

theorem FloatFmt.infIsNext : ∀ f ∈ [fp32, bf16, fp16, e4m3, e5m2, e2m1], f.InfIsNext := by
  unfold FloatFmt.InfIsNext; decide

/-- Above the finite codes the code with no fraction is the one after the greatest of them. -/
theorem FloatFmt.eq_inf_code {f : FloatFmt} (hf : f.InfIsNext) (hi : f.hasInf = true) {mag : Nat} (hlt : mag < f.signBit)
    (hmax : f.maxCode < mag) (h0 : mag % 2 ^ f.mbits = 0) : mag = f.maxCode + 1 := by
  have hnext := hf hi
  have hbit : f.signBit = 2 ^ f.ebits * 2 ^ f.mbits := by rw [FloatFmt.signBit, Nat.add_comm, Nat.pow_add]
  obtain ⟨E, rfl⟩ := Nat.dvd_of_mod_eq_zero h0
  have hE : E < 2 ^ f.ebits := by
    rw [hbit, Nat.mul_comm] at hlt; exact Nat.lt_of_mul_lt_mul_right hlt
  have hle : (E + 1) * 2 ^ f.mbits ≤ f.signBit := by rw [hbit]; exact Nat.mul_le_mul_right _ hE
  rw [Nat.add_mul, Nat.one_mul, Nat.mul_comm] at hle
  omega

/-- A code is its sign and its magnitude. -/
theorem FloatFmt.signed_split (f : FloatFmt) {c : Nat} (h : c < 2 * f.signBit) :
    f.signed (c / f.signBit % 2 = 1) (c % f.signBit) = c := by
  have hpos : 0 < f.signBit := Nat.two_pow_pos _
  have hq : c / f.signBit < 2 := Nat.div_lt_of_lt_mul (by omega)
  have hsplit := Nat.div_add_mod' c f.signBit
  rcases Nat.lt_or_ge (c / f.signBit) 1 with h1 | h1
  · have h0 : c / f.signBit = 0 := Nat.lt_one_iff.1 h1
    rw [h0, Nat.zero_mul, Nat.zero_add] at hsplit
    simp [FloatFmt.signed, h0, hsplit]
  · have h0 : c / f.signBit = 1 := Nat.le_antisymm (Nat.le_of_lt_succ hq) h1
    rw [h0, Nat.one_mul] at hsplit
    simp [FloatFmt.signed, h0, hsplit]

/-- A value above or below zero whose magnitude rounds exactly to a finite code is that code with its sign, and raises nothing. -/
theorem FloatFmt.enc_of_exact {f : FloatFmt} {mode : RM} {p : Prop} [Decidable p] {m code : Nat} {e : Int} {tiny : Bool} (hm : 0 < m)
    (hr : f.roundMag mode (decide p) m e = (code, false, tiny)) (hc : code ≤ f.maxCode) :
    f.enc .ieee mode (.fin (if p then -(m : Int) else m) e) = (f.signed (decide p) code, 0) := by
  have hneg : ((if p then -(m : Int) else m) < 0) = p := by split <;> simp [*]
  have habs : (if p then -(m : Int) else m).natAbs = m := by split <;> simp
  simp [FloatFmt.enc, hneg, habs, hr, Nat.not_lt.2 hc]

/-- Encoding the value of a code that is no NaN gives the code back, in every direction, and raises nothing. -/
theorem FloatFmt.InfIsNext.enc_dec {f : FloatFmt} (hf : f.InfIsNext) (mode : RM) {c : Nat} (hc : c < 2 * f.signBit)
    (hnan : (f.dec c).isNan = false) : f.enc .ieee mode (f.dec c) = (c, 0) := by
  have hlt : c % f.signBit < f.signBit := Nat.mod_lt _ (Nat.two_pow_pos _)
  have hsigned := f.signed_split hc
  simp only [FloatFmt.dec] at hnan ⊢
  generalize c % f.signBit = mag at *
  split
  next hmax =>
    split
    next hi =>
      simp only [Bool.and_eq_true, decide_eq_true_eq] at hi
      have := f.eq_inf_code hf hi.1 hlt hmax hi.2
      simp only [FloatFmt.enc, ← this, hsigned]
    next hi => simp [hmax, hi, FVal.isNan] at hnan
  next hmax =>
    split
    next h0 => simp only [FloatFmt.enc, ← h0, hsigned]
    next h0 =>
      obtain ⟨tiny, hround⟩ := f.roundMag_decoded mode (c / f.signBit % 2 = 1) h0
      rw [FloatFmt.enc_of_exact (f.significand_pos h0) hround (Nat.le_of_not_lt hmax), hsigned]

/-- Settles O8: a code's significand and exponent are already at the format's quantum, so that nothing is rounded; and a rounding leaves the rest out or
steps away from zero, as its mode says. -/
theorem numberFormats : Obligations.NumberFormats := by
  unfold Obligations.NumberFormats
  refine ⟨fun f hf m c hc hnan => (FloatFmt.infIsNext f hf).enc_dec m hc hnan, fun mode neg m k => ?_⟩
  obtain ⟨h1, h2, h3, h4⟩ := roundShift_moves mode neg m k
  exact ⟨h1, h2, h3, h4, roundShift_direction mode neg m k⟩

end Sys2Proof
end

section
/-! SUPPORT. Scalar floating point: the values of the words, as the model computes them and as the tables give them, and what
the end of such a word does (R44, R158–R161). -/

namespace Sys2Proof

/-! ### Integers and sign bits as numbers -/

/-- Turning the top bit of a number of `k + 1` bits adds its weight, the carry left out. -/
theorem xor_top_bit {x k : Nat} (h : x < 2 ^ (k + 1)) : x ^^^ 2 ^ k = (x + 2 ^ k) % 2 ^ (k + 1) := by
  apply Nat.eq_of_testBit_eq
  intro i
  rw [Nat.testBit_xor, Nat.testBit_mod_two_pow, Nat.testBit_two_pow, Nat.add_comm x]
  rcases Nat.lt_trichotomy i k with hi | rfl | hi
  · simp [Nat.testBit_two_pow_add_gt hi, Nat.ne_of_gt hi, Nat.lt_succ_of_lt hi]
  · simp [Nat.testBit_two_pow_add_eq]
  · have hx : x.testBit i = false := Nat.testBit_lt_two_pow (Nat.lt_of_lt_of_le h (Nat.pow_le_pow_right (by decide) hi))
    simp [hx, Nat.ne_of_lt hi, Nat.not_lt.2 hi]
theorem decInt_eq_bmod {w : Nat} (hw : 0 < w) (c : Nat) : decInt w c = (c : Int).bmod (2 ^ w) := by
  have hhalf : (2 ^ w + 1) / 2 = 2 ^ (w - 1) := by
    rw [← Nat.sub_add_cancel hw, Nat.pow_succ', Nat.add_sub_cancel]; omega
  have hmod : (c : Int) % ((2 ^ w : Nat) : Int) = ((c % 2 ^ w : Nat) : Int) := rfl
  rw [decInt, Int.bmod_def, hmod]
  have hhalf' : (((2 ^ w : Nat) : Int) + 1) / 2 = ((2 ^ (w - 1) : Nat) : Int) := by rw [← hhalf]; rfl
  simp only [hhalf', Int.ofNat_lt]
theorem Fmt.bits_pos (f : Fmt) : 0 < f.bits := by cases f <;> decide
theorem Fmt.bits_le (f : Fmt) : f.bits ≤ 64 := by cases f <;> decide

theorem FTy.signBit_eq (t : FTy) : t.fmt.signBit = 2 ^ (t.width - 1) := by cases t <;> rfl
theorem FTy.width_pos (t : FTy) : 0 < t.width := by cases t <;> decide
theorem FTy.bitsOf_lt (t : FTy) (x : W64) : t.bitsOf x < 2 ^ t.width := Nat.mod_lt _ (Nat.two_pow_pos _)
/-- The exponent field is zero where the magnitude lies below the least normal one. -/
theorem FTy.subnormal_iff (t : FTy) (x : W64) :
    t.bitsOf x % t.fmt.signBit < 2 ^ t.fmt.mbits ↔ t.bitsOf x / 2 ^ t.fmt.mbits % 2 ^ t.fmt.ebits = 0 := by
  rw [← Nat.div_eq_zero_iff_lt (Nat.two_pow_pos _), FloatFmt.signBit, Nat.pow_add, Nat.mod_mul_right_div_self]

end Sys2Proof

namespace Sys2Proof.Machine

/-! ### Results as the tables give them (R159–R161) -/

theorem w64_natCast (n : Nat) : w64 (n : Int) = BitVec.ofNat 64 n := BitVec.ofInt_natCast 64 n
theorem sext_w64 {w : Nat} (hw : 0 < w) (hle : w ≤ 64) (c : Nat) : sext w (w64 c) = w64 ((c : Int).bmod (2 ^ w)) := by
  have hd : decInt w (w64 c).toNat = decInt w c := by
    simp only [decInt, w64_natCast, BitVec.toNat_ofNat, Nat.mod_mod_of_dvd c (Nat.pow_dvd_pow 2 hle)]
  rw [sext, hd, decInt_eq_bmod hw]; rfl
theorem signOf_xor (t : FTy) (x : W64) :
    BitVec.ofNat 64 (t.bitsOf x) ^^^ signOf t = w64 ((t.bitsOf x + 2 ^ (t.width - 1)) % 2 ^ t.width : Nat) := by
  have hw : t.width - 1 + 1 = t.width := Nat.sub_add_cancel t.width_pos
  have hxor := xor_top_bit (k := t.width - 1) (hw ▸ t.bitsOf_lt x)
  rw [hw] at hxor
  rw [w64_natCast, signOf, t.signBit_eq, ← hxor, BitVec.ofNat_xor]
theorem signOf_clear (t : FTy) (x : W64) : BitVec.ofNat 64 (t.bitsOf x) &&& ~~~signOf t = w64 (t.bitsOf x % 2 ^ (t.width - 1) : Nat) := by
  rw [w64_natCast, signOf, t.signBit_eq]
  apply BitVec.eq_of_getLsbD_eq
  intro i hi
  simp only [BitVec.getLsbD_and, BitVec.getLsbD_not, BitVec.getLsbD_ofNat, Nat.testBit_mod_two_pow, Nat.testBit_two_pow, hi]
  rcases Nat.lt_trichotomy i (t.width - 1) with h | h | h
  · simp [h, Nat.ne_of_gt h]
  · simp [h]
  · have hx : (t.bitsOf x).testBit i = false :=
      Nat.testBit_lt_two_pow (Nat.lt_of_lt_of_le (t.bitsOf_lt x) (Nat.pow_le_pow_right (by decide) (by omega)))
    simp [hx]
theorem picked_eq (t : FTy) (a b : W64) (p : Option Bool) : picked t a b p =
    match p with | none => w64 t.fmt.nanCode | some true => w64 (t.bitsOf a) | some false => w64 (t.bitsOf b) := by
  rcases p with _ | _ | _ <;> exact (w64_natCast _).symm
theorem fclassBit_eq (t : FTy) (x : W64) : BitVec.ofNat 64 (2 ^ fclassBit t x) =
    match t.val x with
    | .inf true => 0x001 | .zero true => 0x008 | .zero false => 0x010 | .inf false => 0x080
    | .nan true => 0x100 | .nan false => 0x200
    | .fin m _ =>
      if t.bitsOf x / 2 ^ t.fmt.mbits % 2 ^ t.fmt.ebits = 0 then (if m < 0 then 0x004 else 0x020)
      else if m < 0 then 0x002 else 0x040 := by
  simp only [fclassBit, t.subnormal_iff]
  rcases t.val x with s | n | n | ⟨m, e⟩
  · cases s <;> rfl
  · cases n <;> rfl
  · cases n <;> rfl
  · by_cases hm : m < 0 <;> by_cases he : t.bitsOf x / 2 ^ t.fmt.mbits % 2 ^ t.fmt.ebits = 0 <;> simp [hm, he]

/-- A word of the table: the model's own function of the state at its issue gives the table's result. -/
theorem FloatRule.exec_fpOp {i : Instr} {st : Stall} {l : Nat} {d : Reg} {f : State → W64 × FFlags} (h : FloatRule i st l d f) (s : State) :
    1 ≤ l ∧ ∃ f', exec i s = s.fpOp i st l d f' ∧ f' s.begin = f s := by
  cases h with
  | fadd st t r d a b => exact ⟨by decide, _, rfl, by simp⟩
  | fsub st t r d a b => exact ⟨by decide, _, rfl, by simp⟩
  | fmul st t r d a b => exact ⟨by decide, _, rfl, by simp⟩
  | fdiv st t r d a b => exact ⟨by decide, _, rfl, by simp⟩
  | fsqrt st t r d a => exact ⟨by decide, _, rfl, by simp⟩
  | fma st t r d a b => exact ⟨by decide, _, rfl, by simp⟩
  | fmin st t d a b => exact ⟨by decide, _, rfl, by simp only [State.begin_g]; exact congrArg (·, _) (picked_eq ..)⟩
  | fmax st t d a b => exact ⟨by decide, _, rfl, by simp only [State.begin_g]; exact congrArg (·, _) (picked_eq ..)⟩
  | feq st t d a b => exact ⟨by decide, _, rfl, by simp [cmpOut, fEq]⟩
  | flt st t d a b => exact ⟨by decide, _, rfl, by simp [cmpOut, fLt]⟩
  | fle st t d a b => exact ⟨by decide, _, rfl, by simp [cmpOut, fLe]⟩
  | fclass st t d a => exact ⟨by decide, _, rfl, by simp only [State.begin_g]; exact congrArg (·, _) (fclassBit_eq ..)⟩
  | fexp2 st t d a => exact ⟨by decide, _, rfl, by simp⟩
  | fneg st t d a => exact ⟨by decide, _, rfl, by simp only [State.begin_g, signOf_xor]⟩
  | fabs st t d a => exact ⟨by decide, _, rfl, by simp only [State.begin_g, signOf_clear]⟩
  | fcvt st tgt src r nsat d a =>
    refine ⟨by decide, _, rfl, ?_⟩
    simp only [State.begin_g, State.begin_mode, ← w64_natCast, sext_w64 tgt.bits_pos tgt.bits_le]
    cases src <;> rfl

/-! ### The end of a word (R44) -/

/-- None of the flags traps: the result is written, the flags become sticky, and the word is done. -/
theorem State.fpDone_quiet (s : State) (st : Stall) (l : Nat) (d : Reg) {r : W64 × FFlags} (h : Trapped s.me r.2 = 0) :
    s.fpDone st l d r = ((s.gput l d r.1).onMe fun c => c.raise r.2).done st := if_pos h
/-- An enabled flag: the result is there at once, and the word traps. -/
theorem State.fpDone_traps (s : State) (st : Stall) (l : Nat) (d : Reg) {r : W64 × FFlags} (h : Trapped s.me r.2 ≠ 0) :
    s.fpDone st l d r = ((s.gput 1 d r.1).onMe fun c => c.raise r.2).trap ⟨0x18, 0, (Trapped s.me r.2).setWidth 64⟩ := if_neg h

theorem State.computesFloat_of {i : Instr} {s : State} {st : Stall} {l : Nat} {d : Reg} {r : W64 × FFlags} (hl : 1 ≤ l)
    (h : exec i s = .next (((s.begin.gput l d r.1).onMe fun c => c.raise r.2).done st)) : ComputesFloat i s st l d r := by
  have hme : (((s.begin.gput l d r.1).onMe fun c => c.raise r.2).done st).me =
      (((s.me.anchored s.now).gput s.now l d r.1).raise r.2).advance s.now st := by simp [State.done, State.gput]
  obtain ⟨hgets, hg, hvp⟩ := gets_of (s := s) (t := ((s.begin.gput l d r.1).onMe fun c => c.raise r.2).done st) (x := r.1) hl
    (by rw [hme]; exact ⟨rfl, rfl, rfl, rfl, rfl⟩) (by rw [hme, Ctx.gput_frame]; rfl)
  refine ⟨_, h, hgets, hg, hvp, ?_, ?_, ?_, ((s.begin_onlyMe.onMe rfl _).onMe rfl _).onMe rfl _⟩
  · rw [hme, Ctx.gput_frame]; exact ⟨rfl, rfl, rfl, rfl, rfl, rfl, rfl, rfl, rfl, rfl, rfl⟩
  · rw [hme, Ctx.gput_frame]; rfl
  · rw [GoesOn, hme, Ctx.gput_frame]; exact ⟨rfl, rfl, rfl⟩

/-- Settles O7: a word of the table ends as every scalar floating-point word does, with the table's result. -/
theorem floatResults : Obligations.FloatResults := by
  unfold Obligations.FloatResults
  intro i s st l d f hrule hready
  obtain ⟨hl, f', hexec, hval⟩ := hrule.exec_fpOp s
  rw [State.fpOp, State.issue_ready hready, hval] at hexec
  have htrapped : Trapped s.begin.me (f s).2 = Trapped s.me (f s).2 := by rw [State.begin_me]; rfl
  refine ⟨fun hquiet => ?_, fun htrap => ?_⟩
  · rw [State.fpDone_quiet _ _ _ _ (htrapped.trans hquiet)] at hexec
    exact State.computesFloat_of hl hexec
  · rw [State.fpDone_traps _ _ _ _ (htrapped ▸ htrap), htrapped] at hexec
    exact hexec

end Sys2Proof.Machine
end

section
/-! SUPPORT. The end of a vector word: what a masked result does to the registers at every cycle, its flags, and its ring
entry (R132, R133, R164–R168, R315). -/

namespace Sys2Proof.Machine

/-! ### Results under way, lane by lane (R133) -/

/-- What one landing does to the value of one lane. -/
def Pend.onLane (q : VReg) (j : Fin 16) (y : W32) : Pend → W32
  | .g _ _ _ _ => y
  | .v _ r m x => if r = q ∧ m.getLsbD j.val = true then x.get j else y
  | .p _ _ _ => y
  | .report _ _ => y
/-- A result under way of which a write at once, to the lanes `m` of `r`, leaves what it does not replace. -/
def Pend.under (r : VReg) (m : BitVec 16) (t : Nat) : Pend → Pend
  | .g u h q x => .g u h q x
  | .v u q n x => if q = r && decide (u ≤ t) then .v u q (n &&& ~~~m) x else .v u q n x
  | .p u q x => .p u q x
  | .report u f => .report u f

theorem lanes_get_ofFn (f : Fin 16 → W32) (j : Fin 16) : (Vector.ofFn f).get j = f j := by
  show (Vector.ofFn f)[j.val] = f j
  rw [Vector.getElem_ofFn]
theorem lanes_ext {x y : Lanes} (h : ∀ j, x.get j = y.get j) : x = y :=
  Vector.ext fun i hi => h ⟨i, hi⟩
theorem Ctx.vget_vsetLanes (c : Ctx) (r q : VReg) (m : BitVec 16) (x : Lanes) (j : Fin 16) :
    ((c.vsetLanes r m x).vget q).get j = if r = q ∧ m.getLsbD j.val = true then x.get j else (c.vget q).get j := by
  have hset : (c.vsetLanes r m x).vget q = if r = q then Vector.ofFn fun i => if m.getLsbD i.val then x.get i else (c.vget r).get i else c.vget q := by
    show (c.v.set (regIdx r).val _ (regIdx r).isLt)[(regIdx q).val] = _
    rw [Vector.getElem_set]; simp only [← Fin.ext_iff, regIdx_inj]; rfl
  rw [hset]
  by_cases h : r = q
  · subst h; simp only [if_true, true_and, lanes_get_ofFn]
  · simp only [h, false_and, if_false]

theorem Pend.land_lane (c : Ctx) (p : Pend) (q : VReg) (j : Fin 16) : ((p.land c).vget q).get j = p.onLane q j ((c.vget q).get j) := by
  cases p with
  | g t h r x => simp only [Pend.land, Ctx.vget, Ctx.gsetIn_v, Pend.onLane]
  | v t r m x => exact c.vget_vsetLanes r q m x j
  | p t r x => simp only [Pend.land, Ctx.pset]; split <;> rfl
  | report t f => simp only [Pend.land]; rw [Ctx.reported_frame]; rfl
theorem Ctx.vAt_lane (c : Ctx) (t : Nat) (q : VReg) (j : Fin 16) :
    (c.vAt t q).get j = (inTime (c.pend.filter fun p => decide (p.time ≤ t))).foldl (Pend.onLane q j) ((c.vget q).get j) := by
  have hfold : ∀ (l : List Pend) (c : Ctx), ((l.foldl Pend.land c).vget q).get j = l.foldl (Pend.onLane q j) ((c.vget q).get j) := by
    intro l; induction l with
    | nil => exact fun _ => rfl
    | cons p l ih => intro c; rw [List.foldl_cons, List.foldl_cons, ih, Pend.land_lane]
  exact hfold _ _

/-! ### One more result, and results partly replaced -/

/-- A result that a fold passes over does not change it. -/
theorem foldl_pend_append {β : Type} (f : β → Pend → β) {p : Pend} (h : ∀ b, f b p = b) (l : List Pend) (t : Nat) (b : β) :
    (inTime ((l ++ [p]).filter fun q => decide (q.time ≤ t))).foldl f b = (inTime (l.filter fun q => decide (q.time ≤ t))).foldl f b := by
  by_cases e : p.time ≤ t <;> simp [List.filter_append, e, inTime_append, foldl_insert_id f h]
theorem foldl_eq_self {α β : Type} {f : β → α → β} {l : List α} (h : ∀ a ∈ l, ∀ b, f b a = b) (b : β) : l.foldl f b = b := by
  induction l with
  | nil => rfl
  | cons a l ih => rw [List.foldl_cons, h a List.mem_cons_self, ih fun x hx => h x (List.mem_cons_of_mem _ hx)]
/-- A result that lands last of those due has the last word. -/
theorem foldl_pend_last {β : Type} (f : β → Pend → β) (p : Pend) (l : List Pend) (b : β) :
    (inTime ((l ++ [p]).filter fun q => decide (q.time ≤ p.time))).foldl f b =
      f ((inTime (l.filter fun q => decide (q.time ≤ p.time))).foldl f b) p := by
  have hlast : ∀ q ∈ inTime (l.filter fun q => decide (q.time ≤ p.time)), q.time ≤ p.time := fun q hq =>
    of_decide_eq_true (List.mem_filter.1 (mem_inTime.1 hq)).2
  rw [List.filter_append, List.filter_cons_of_pos (by simp), List.filter_nil, inTime_append, Pend.insert_after hlast, List.foldl_append]; rfl

section
variable (r : VReg) (m : BitVec 16) (t : Nat) (p : Pend)

/-- Only a vector result is partly replaced, and it keeps its cycle and its register. -/
theorem Pend.under_cases : p.under r m t = p ∨ ∃ u n x, p = .v u r n x ∧ u ≤ t ∧ p.under r m t = .v u r (n &&& ~~~m) x := by
  cases p with
  | v u q n x =>
    by_cases h : q = r ∧ u ≤ t
    · exact .inr ⟨u, n, x, by rw [h.1], h.2, by simp [Pend.under, h.1, h.2]⟩
    · exact .inl (by simp only [Pend.under, Bool.and_eq_true, decide_eq_true_eq, if_neg h])
  | g => exact .inl rfl
  | p => exact .inl rfl
  | report => exact .inl rfl
@[simp] theorem Pend.under_time : (p.under r m t).time = p.time := by
  rcases p.under_cases r m t with h | ⟨u, n, x, rfl, -, h⟩ <;> rw [h]; rfl
theorem Pend.onG_under (h : Bool) (q : Reg) (y : W64) : (p.under r m t).onG h q y = p.onG h q y := by
  rcases p.under_cases r m t with h | ⟨u, n, x, rfl, -, h⟩ <;> rw [h]; rfl
theorem Pend.onP_under (y : Vector W64 8) : (p.under r m t).onP y = p.onP y := by
  rcases p.under_cases r m t with h | ⟨u, n, x, rfl, -, h⟩ <;> rw [h]; rfl
theorem Pend.onLane_under_other {q : VReg} {j : Fin 16} (hn : ¬ (r = q ∧ m.getLsbD j.val = true)) (y : W32) :
    (p.under r m t).onLane q j y = p.onLane q j y := by
  rcases p.under_cases r m t with h | ⟨u, n, x, rfl, -, h⟩ <;> rw [h]
  by_cases hq : r = q
  · have hj : m.getLsbD j.val = false := Bool.eq_false_iff.2 fun e => hn ⟨hq, e⟩
    simp only [Pend.onLane, BitVec.getLsbD_and, BitVec.getLsbD_not, hj, j.isLt, decide_true, Bool.not_false, Bool.and_true]
  · simp only [Pend.onLane, hq, false_and, if_false]
theorem Pend.onLane_under_same {j : Fin 16} (hj : m.getLsbD j.val = true) (ht : p.time ≤ t) (y : W32) :
    (p.under r m t).onLane r j y = y := by
  cases p with
  | v u q n x =>
    by_cases hq : q = r
    · have hdue : decide (u ≤ t) = true := decide_eq_true ht
      simp only [Pend.under, hq, hdue, decide_true, Bool.and_true, if_true, Pend.onLane, BitVec.getLsbD_and, BitVec.getLsbD_not, hj,
        j.isLt, Bool.not_true, Bool.and_false, Bool.false_eq_true, and_false, if_false]
    · simp only [Pend.under, hq, decide_false, Bool.false_and, Bool.false_eq_true, if_false, Pend.onLane, false_and]
  | g => rfl
  | p => rfl
  | report => rfl
end

theorem Pend.insert_map (g : Pend → Pend) (hg : ∀ p, (g p).time = p.time) (p : Pend) (l : List Pend) :
    (g p).insert (l.map g) = (p.insert l).map g := by
  induction l with
  | nil => rfl
  | cons q t ih => simp only [List.map_cons, Pend.insert, hg]; split <;> simp [ih]
/-- A change of results that keeps their cycles keeps their order. -/
theorem inTime_map (g : Pend → Pend) (hg : ∀ p, (g p).time = p.time) (l : List Pend) : inTime (l.map g) = (inTime l).map g := by
  have hfold : ∀ l a : List Pend, (l.map g).foldl (fun a p => p.insert a) (a.map g) = (l.foldl (fun a p => p.insert a) a).map g := by
    intro l; induction l with
    | nil => exact fun _ => rfl
    | cons p l ih => intro a; rw [List.map_cons, List.foldl_cons, List.foldl_cons, Pend.insert_map g hg, ih]
  exact hfold l []
theorem foldl_pend_under {β : Type} (f : β → Pend → β) (r : VReg) (m : BitVec 16) (t₀ : Nat) (l : List Pend) (t : Nat) (b : β) :
    (inTime ((l.map (Pend.under r m t₀)).filter fun q => decide (q.time ≤ t))).foldl f b =
      (inTime (l.filter fun q => decide (q.time ≤ t))).foldl (fun b p => f b (p.under r m t₀)) b := by
  rw [List.filter_map, inTime_map _ (Pend.under_time r m t₀), List.foldl_map]
  simp only [Function.comp_def, Pend.under_time]

/-! ### A masked result (R132, R164) -/

section
variable (c : Ctx) (now l : Nat) (r : VReg) (m : BitVec 16) (x : Lanes)

theorem Ctx.vput_fast (h : l ≤ 1) : c.vput now l r m x = { c.vsetLanes r m x with pend := c.pend.map (Pend.under r m (now + 1)) } := by
  rw [Ctx.vput, if_pos h]
  refine congrArg (fun ps => { c.vsetLanes r m x with pend := ps }) (List.map_congr_left fun p _ => ?_)
  cases p <;> rfl
theorem Ctx.vput_slow (h : 1 < l) : c.vput now l r m x = { c with pend := c.pend ++ [.v (now + l) r m x] } := if_neg (by omega)
/-- The fields that a vector result leaves alone: all but the vector registers and the results under way. -/
theorem Ctx.vput_frame : c.vput now l r m x = { c with v := (c.vput now l r m x).v, pend := (c.vput now l r m x).pend } := by
  rcases Nat.lt_or_ge 1 l with h | h
  · rw [c.vput_slow now l r m x h]
  · rw [c.vput_fast now l r m x h]; rfl
@[simp] theorem Ctx.vput_hm : (c.vput now l r m x).hm = c.hm := by rw [Ctx.vput_frame]; rfl
@[simp] theorem Ctx.vput_trapped (f : FFlags) : Trapped (c.vput now l r m x) f = Trapped c f := by rw [Ctx.vput_frame]; rfl
/-- What passes over a vector result's lanes reads the results under way as before. -/
theorem Ctx.foldl_vput {β : Type} (f : β → Pend → β) (hnew : ∀ b, f b (.v (now + l) r m x) = b)
    (hold : ∀ b p, f b (p.under r m (now + 1)) = f b p) (t : Nat) (b : β) :
    (inTime ((c.vput now l r m x).pend.filter fun p => decide (p.time ≤ t))).foldl f b =
      (inTime (c.pend.filter fun p => decide (p.time ≤ t))).foldl f b := by
  rcases Nat.lt_or_ge 1 l with h | h
  · rw [c.vput_slow now l r m x h]; exact foldl_pend_append f hnew _ _ _
  · rw [c.vput_fast now l r m x h]
    simp only [foldl_pend_under, hold]
theorem Ctx.vput_gIn (t : Nat) (h : Bool) (q : Reg) : ((c.vput now l r m x).landAll t).gIn h q = (c.landAll t).gIn h q := by
  rw [Ctx.landAll_gIn, Ctx.landAll_gIn, c.foldl_vput now l r m x (Pend.onG h q) (fun _ => rfl), Ctx.vput_frame]
  · rfl
  · exact fun b p => p.onG_under r m _ h q b
theorem Ctx.vput_pAt (t : Nat) (q : PReg) : (c.vput now l r m x).pAt t q = c.pAt t q := by
  simp only [Ctx.pAt, Ctx.pget, Ctx.landAll_p]
  rw [c.foldl_vput now l r m x Pend.onP (fun _ => rfl), Ctx.vput_frame]
  exact fun b p => p.onP_under r m _ b
/-- A lane that the result does not write holds at every cycle what it would have held. -/
theorem Ctx.vput_lane_other {q : VReg} {j : Fin 16} (h : ¬ (r = q ∧ m.getLsbD j.val = true)) (t : Nat) :
    ((c.vput now l r m x).vAt t q).get j = (c.vAt t q).get j := by
  have hbase : ((c.vput now l r m x).vget q).get j = (c.vget q).get j := by
    rcases Nat.lt_or_ge 1 l with hl | hl
    · rw [c.vput_slow now l r m x hl]; rfl
    · rw [c.vput_fast now l r m x hl]; exact (c.vget_vsetLanes r q m x j).trans (if_neg h)
  rw [Ctx.vAt_lane, Ctx.vAt_lane, hbase]
  exact c.foldl_vput now l r m x (Pend.onLane q j) (fun _ => if_neg h) (fun y p => p.onLane_under_other r m _ h y) t _
/-- A lane that the result writes holds it from its cycle on. -/
theorem Ctx.vput_lane_same {j : Fin 16} (h : m.getLsbD j.val = true) : ((c.vput now l r m x).vAt (now + l) r).get j = x.get j := by
  rw [Ctx.vAt_lane]
  rcases Nat.lt_or_ge 1 l with hl | hl
  · rw [c.vput_slow now l r m x hl]
    exact (foldl_pend_last (Pend.onLane r j) (.v (now + l) r m x) c.pend _).trans (if_pos ⟨rfl, h⟩)
  · rw [c.vput_fast now l r m x hl]
    have hbase : ((c.vsetLanes r m x).vget r).get j = x.get j := (c.vget_vsetLanes r r m x j).trans (if_pos ⟨rfl, h⟩)
    show List.foldl _ (((c.vsetLanes r m x).vget r).get j) _ = _
    rw [hbase, foldl_pend_under]
    refine foldl_eq_self (fun p hp y => Pend.onLane_under_same r m _ p h ?_ y) _
    have hdue : p.time ≤ now + l := of_decide_eq_true (List.mem_filter.1 (mem_inTime.1 hp)).2
    omega
end

/-- A vector result is no report. -/
theorem Ctx.vput_reports (c : Ctx) (now l : Nat) (r : VReg) (m : BitVec 16) (x : Lanes) : (c.vput now l r m x).reports = c.reports := by
  rcases Nat.lt_or_ge 1 l with h | h
  · rw [c.vput_slow now l r m x h, Ctx.reports, List.filterMap_append]; exact List.append_nil _
  · rw [c.vput_fast now l r m x h, Ctx.reports, List.filterMap_map]
    refine congrArg (fun g => List.filterMap g c.pend) (funext fun p => ?_)
    rcases p.under_cases r m (now + 1) with h | ⟨u, n, y, rfl, -, h⟩ <;> rw [Function.comp, h]

/-! ### Flags that are reported late (R44, R168) -/

/-- The report of an enabled flag, to come once the result is written. -/
def Ctx.lateReport (c : Ctx) (now l : Nat) (seq : BitVec 6) (w : W32) (f : FFlags) : List Pend :=
  if Trapped c f = 0 then []
  else [.report (now + l) ⟨⟨0x18, 0, BitVec.ofNat 64 ((Trapped c f).toNat * 2 ^ 32 + w.toNat), seq⟩, now, c.hm⟩]
/-- The flags of a vector result raised, with that report. -/
def Ctx.flagged (c : Ctx) (now l : Nat) (seq : BitVec 6) (w : W32) (f : FFlags) : Ctx :=
  { c.raise f with pend := c.pend ++ c.lateReport now l seq w f }

theorem State.onMyCore_me {s : State} {f : Core → Core} (h : (f s.myCore).ctxs = s.myCore.ctxs) : (s.onMyCore f).me = s.me := by
  have hact : (s.onMyCore f).me = (s.onMyCore f).myCore.ctx s.act.2 := rfl
  rw [hact, State.onMyCore_myCore, Core.ctx, h]; rfl
theorem State.vpFlags_me (s : State) (l : Nat) (seq : BitVec 6) (w : W32) (f : FFlags) :
    (s.vpFlags l seq w f).me = s.me.flagged s.now l seq w f := by
  have hen : s.me.enabledFlags f = Trapped s.me f := rfl
  simp only [State.vpFlags, Ctx.flagged, Ctx.lateReport, hen]
  split
  · rw [State.onMe_me, List.append_nil]; rfl
  · rw [State.onMe_me, State.onMyCore_me (by rfl), State.onMe_me]; rfl
@[simp] theorem State.vpFlags_now (s : State) (l : Nat) (seq : BitVec 6) (w : W32) (f : FFlags) : (s.vpFlags l seq w f).now = s.now := by
  simp only [State.vpFlags]; split <;> rfl

section
variable (c : Ctx) (now l : Nat) (seq : BitVec 6) (w : W32) (f : FFlags)

theorem Ctx.lateReport_cases : c.lateReport now l seq w f = [] ∨ ∃ t g, c.lateReport now l seq w f = [.report t g] := by
  rw [Ctx.lateReport]; split
  · exact .inl rfl
  · exact .inr ⟨_, _, rfl⟩
/-- A report passes over every register. -/
theorem Ctx.foldl_flagged {β : Type} (k : β → Pend → β) (hk : ∀ b t g, k b (.report t g) = b) (t : Nat) (b : β) :
    (inTime ((c.flagged now l seq w f).pend.filter fun p => decide (p.time ≤ t))).foldl k b =
      (inTime (c.pend.filter fun p => decide (p.time ≤ t))).foldl k b := by
  show (inTime ((c.pend ++ c.lateReport now l seq w f).filter _)).foldl k b = _
  rcases c.lateReport_cases now l seq w f with h | ⟨u, g, h⟩ <;> rw [h]
  · rw [List.append_nil]
  · exact foldl_pend_append k (fun b => hk b u g) _ _ _
theorem Ctx.flagged_gIn (t : Nat) (h : Bool) (q : Reg) : ((c.flagged now l seq w f).landAll t).gIn h q = (c.landAll t).gIn h q := by
  rw [Ctx.landAll_gIn, Ctx.landAll_gIn]; exact c.foldl_flagged now l seq w f _ (fun _ _ _ => rfl) t _
theorem Ctx.flagged_pAt (t : Nat) (q : PReg) : (c.flagged now l seq w f).pAt t q = c.pAt t q := by
  simp only [Ctx.pAt, Ctx.pget, Ctx.landAll_p, c.foldl_flagged now l seq w f Pend.onP (fun _ _ _ => rfl)]; rfl
theorem Ctx.flagged_vAt (t : Nat) (q : VReg) : (c.flagged now l seq w f).vAt t q = c.vAt t q := by
  simp only [Ctx.vAt, Ctx.vget, Ctx.landAll_v, c.foldl_flagged now l seq w f Pend.onV (fun _ _ _ => rfl)]; rfl
theorem Ctx.flagged_reports : (c.flagged now l seq w f).reports = c.reports ++
    if Trapped c f = 0 then [] else
      [(now + l, ⟨⟨0x18, 0, BitVec.ofNat 64 ((Trapped c f).toNat * 2 ^ 32 + w.toNat), seq⟩, now, c.hm⟩)] := by
  show List.filterMap _ (c.pend ++ c.lateReport now l seq w f) = _
  rw [List.filterMap_append, Ctx.lateReport]; split <;> rfl
end

/-! ### The ring entry of a vector word (R166, R315) -/

theorem TakesRing.onMe {i : Instr} {s t : State} {b : Bool} (h : TakesRing i s t b) (f : Ctx → Ctx) : TakesRing i s (t.onMe f) b := by
  obtain ⟨heq, hcores, hctxs, hcore, fl, hring⟩ := h
  have ha : t.act = s.act := by rw [heq]
  have hc : (t.onMe f).myCore = { t.myCore with ctxs := (t.onMe f).myCore.ctxs } := by
    simp [State.onMe, State.onCtx, State.myCore, State.setCtx, State.setCore, State.core, Core.setCtx]
  refine ⟨by rw [heq]; rfl, fun n hn => ?_, fun k hk => ?_, by rw [hc, hcore], fl, by rw [hc]; exact hring⟩
  · rw [← hcores n hn]; simp [State.onMe, State.onCtx, State.setCtx, ha, hn]
  · rw [← hctxs k hk]
    simp [State.onMe, State.onCtx, State.setCtx, State.ctx, ha, State.setCore, State.core, Core.ctx, Core.setCtx, hk]
theorem TakesRing.ringFaulted {i : Instr} {s t : State} {b : Bool} (h : TakesRing i s t b) (seq : BitVec 6) :
    TakesRing i s (t.onMyCore fun c => c.ringFaulted seq) b := by
  obtain ⟨heq, hcores, hctxs, hcore, fl, hring⟩ := h
  have ha : t.act = s.act := by rw [heq]
  refine ⟨by rw [heq]; rfl, fun n hn => ?_, fun k hk => ?_, ?_, ?_⟩
  · rw [← hcores n hn]; simp [State.onMyCore, ha, hn]
  · rw [← hctxs k hk, ← ha]; simp [State.onMyCore, State.ctx, Core.ctx, Core.ringFaulted]
  · rw [State.onMyCore_myCore, hcore]; rfl
  · rw [State.onMyCore_myCore]
    by_cases hs : s.myCore.ringCtr = seq
    · exact ⟨true, by simp [Core.ringFaulted, hring, hs]⟩
    · exact ⟨fl, by simp [Core.ringFaulted, hring, hs]⟩
theorem State.takeRing_takesRing (i : Instr) (s : State) (b : Bool) : TakesRing i s (s.begin.takeRing (wordOf i) true b).2 b := by
  obtain ⟨heq, hcores, hcore, hctxs⟩ := s.begin_onlyMe
  have hmy : (s.begin.takeRing (wordOf i) true b).2.myCore = _ := State.onMyCore_myCore ..
  refine ⟨by rw [heq]; rfl, fun n hn => ?_, fun k hk => ?_, ?_, false, ?_⟩
  · rw [← hcores n hn]; simp [State.takeRing, State.onMyCore, hn]
  · rw [← hctxs k hk]; simp [State.takeRing, State.onMyCore, State.ctx, Core.ctx]
  · rw [hmy, hcore]
  · rw [hmy, hcore]; simp
theorem TakesRing.vpFlags {i : Instr} {s t : State} {b : Bool} (h : TakesRing i s t b) (l : Nat) (seq : BitVec 6) (w : W32) (f : FFlags) :
    TakesRing i s (t.vpFlags l seq w f) b := by
  simp only [State.vpFlags]; split
  · exact h.onMe _
  · exact ((h.onMe _).ringFaulted _).onMe _

/-! ### The end of a vector word -/

theorem State.ringBusy_of_free {s : State} (h : RingFree s) : s.begin.ringBusy s.act.1 s.begin.myCore.ringCtr = false := by
  obtain ⟨hcmds, hflights⟩ := h
  have hctr : s.begin.myCore.ringCtr = s.myCore.ringCtr := by rw [s.begin_myCore]
  rw [hctr, State.ringBusy, Bool.or_eq_false_iff]
  refine ⟨List.any_eq_false.2 fun c hc => ?_, List.any_eq_false.2 fun f hf => ?_⟩
  · simpa using hcmds c hc
  · by_cases hown : f.core = s.act.1 ∧ f.seq = s.myCore.ringCtr
    · have hkind := hflights f hf hown.1 hown.2
      cases hk : f.kind <;> rw [hk] at hkind <;> simp [FlightKind.vector] at hkind ⊢
    · simpa [Bool.and_assoc] using fun hcore hseq => absurd ⟨hcore, hseq⟩ hown
/-- A vector word whose common checks pass, and whose ring entry is free, carries out its body. -/
theorem State.issueV_ready {i : Instr} {s : State} (h : Ready i s) (hr : RingFree s) (body : State → State) : s.issueV i body = body s.begin := by
  rw [State.issueV, State.issue_ready h, State.begin_act, State.ringBusy_of_free hr]; rfl

theorem State.vpDone_eq (i : Instr) (s : State) (st : Stall) (l : Nat) (d : VReg) (m : BitVec 16) (r : Lanes × FFlags) :
    s.vpDone i st l d m r =
      (((s.takeRing (wordOf i) true true).2.vput l d m r.1).vpFlags l s.myCore.ringCtr (wordOf i) r.2).done st := rfl
/-- The acting context after a masked result. -/
theorem State.vpDone_me (i : Instr) (s : State) (st : Stall) (l : Nat) (d : VReg) (m : BitVec 16) (r : Lanes × FFlags) :
    (s.begin.vpDone i st l d m r).me =
      (((s.me.anchored s.now).vput s.now l d m r.1).flagged s.now l s.myCore.ringCtr (wordOf i) r.2).advance s.now st := by
  have hctr : s.begin.myCore.ringCtr = s.myCore.ringCtr := by rw [s.begin_myCore]
  have hring : (s.begin.takeRing (wordOf i) true true).2.me = s.me.anchored s.now := (State.onMyCore_me rfl).trans s.begin_me
  rw [State.vpDone_eq, hctr, State.done, State.onMe_me, State.vpFlags_me, State.vpFlags_now, State.vput, State.onMe_me, hring]; rfl

theorem State.vpDone_takesRing (i : Instr) (s : State) (st : Stall) (l : Nat) (d : VReg) (m : BitVec 16) (r : Lanes × FFlags) :
    TakesRing i s (s.begin.vpDone i st l d m r) true := by
  rw [State.vpDone_eq, State.done, State.vput]
  refine TakesRing.onMe (TakesRing.vpFlags ?_ ..) _
  exact (State.takeRing_takesRing i s true).onMe _
theorem lateFault_eq (i : Instr) (s : State) (f : FFlags) :
    (⟨⟨0x18, 0, BitVec.ofNat 64 ((Trapped s.me f).toNat * 2 ^ 32 + (wordOf i).toNat), s.myCore.ringCtr⟩, s.now, s.me.hm⟩ : ImpFault) = flagFault i s f := by
  rw [flagFault, ← w64_natCast, Int.natCast_add, Int.natCast_mul]; rfl

/-- A masked result writes its lanes and nothing else. -/
theorem State.computesLanes_of {i : Instr} {s : State} {st : Stall} {l : Nat} {d : VReg} {m : BitVec 16} {x : Fin 16 → W32} {f : FFlags}
    (h : exec i s = .next (s.begin.vpDone i st l d m (Vector.ofFn x, f))) : ComputesLanes i s st l d m x f := by
  have hme := State.vpDone_me i s st l d m (Vector.ofFn x, f)
  have hring := State.vpDone_takesRing i s st l d m (Vector.ofFn x, f)
  have hanch := Ctx.SameRegs.anchored s.me s.now
  have hadv (c : Ctx) := Ctx.SameRegs.advance c s.now st
  generalize s.begin.vpDone i st l d m (Vector.ofFn x, f) = t at h hme hring
  have hv (u q) : t.me.vAt u q = ((s.me.anchored s.now).vput s.now l d m (Vector.ofFn x)).vAt u q := by
    rw [hme, (hadv _).keepsVP.1, Ctx.flagged_vAt]
  have hother (u) {q j} (hn : ¬ (d = q ∧ m.getLsbD j.val = true)) : (t.me.vAt u q).get j = (s.me.vAt u q).get j := by
    rw [hv, Ctx.vput_lane_other _ _ _ _ _ _ hn, hanch.keepsVP.1]
  refine ⟨t, h, fun j => ?_, fun u q hq => lanes_ext fun j => hother u fun e => hq e.1.symm, fun u q => ?_, fun u b q _ => ?_, ?_, ?_, ?_, hring⟩
  · split
    next hj => rw [hv, Ctx.vput_lane_same _ _ _ _ _ _ hj, lanes_get_ofFn]
    next hj => exact hother _ fun e => hj e.2
  · rw [hme, (hadv _).keepsVP.2, Ctx.flagged_pAt, Ctx.vput_pAt, hanch.keepsVP.2]
  · rw [hme, (hadv _).gIn, Ctx.flagged_gIn, Ctx.vput_gIn, hanch.gIn]
  · rw [hme, Ctx.vput_frame]
    simp only [KeepsRest, Ctx.advance, Ctx.flagged, Ctx.raise, Ctx.anchored, and_self]
  · refine ⟨?_, ?_, ?_⟩
    · rw [hme, Ctx.vput_frame]; rfl
    · rw [hme, Ctx.vput_frame]; rfl
    · rw [hme]
      refine (Ctx.flagged_reports ..).trans ?_
      rw [Ctx.vput_reports, Ctx.vput_trapped, Ctx.vput_hm, Ctx.anchored_hm]
      show s.me.reports ++ (if Trapped s.me f = 0 then [] else _) = _
      rw [← lateFault_eq]; rfl
  · rw [GoesOn, hme, Ctx.vput_frame]; exact ⟨rfl, rfl, rfl⟩

end Sys2Proof.Machine
end

section
/-! SUPPORT. Reductions: the tree of R47 over sixteen lanes, and the integer operations as the table gives them (R173). -/

namespace Sys2Proof.Machine

/-! ### The tree (R47) -/

theorem finRange_sixteen_map {α : Type} (x : Nat → α) : ((List.finRange 16).map fun j => x j.val) =
    [x 0, x 1, x 2, x 3, x 4, x 5, x 6, x 7, x 8, x 9, x 10, x 11, x 12, x 13, x 14, x 15] := rfl
/-- Four levels of neighbours over sixteen lanes are the tree of depth four: the same nodes, whose flags are ORed. -/
theorem laneTree_eq_treeOf (op : W32 → W32 → W32 × FFlags) (x : Nat → W32) :
    laneTree op ((List.finRange 16).map fun j => x j.val) = treeOf op 4 x := by
  rw [finRange_sixteen_map]
  refine Prod.ext rfl ?_
  simp only [laneTree, pairUp, treeOf, Nat.reduceAdd, Nat.reducePow]
  ac_rfl

/-! ### Integer operations (R173) -/

theorem w32_toInt (x : W32) : w32 x.toInt = x := BitVec.ofInt_toInt
theorem w32_toNat (x : W32) : w32 (x.toNat : Int) = x := by rw [w32, BitVec.ofInt_natCast, BitVec.ofNat_toNat, BitVec.setWidth_eq]
theorem add_eq_w32 (x y : W32) : x + y = w32 (x.toNat + y.toNat) := by
  rw [w32, BitVec.ofInt_add]; exact (congr (congrArg (· + ·) (w32_toNat x)) (w32_toNat y)).symm
theorem max32s_eq (x y : W32) : max32s x y = w32 (max x.toInt y.toInt) := by
  simp only [max32s, BitVec.slt, decide_eq_true_eq]
  split
  next h => rw [Int.max_eq_right (Int.le_of_lt h), w32_toInt]
  next h => rw [Int.max_eq_left (Int.not_lt.1 h), w32_toInt]
theorem min32s_eq (x y : W32) : min32s x y = w32 (min x.toInt y.toInt) := by
  simp only [min32s, BitVec.slt, decide_eq_true_eq]
  split
  next h => rw [Int.min_eq_right (Int.le_of_lt h), w32_toInt]
  next h => rw [Int.min_eq_left (Int.not_lt.1 h), w32_toInt]
theorem max32z_eq (x y : W32) : max32z x y = w32 (max (x.toNat : Int) y.toNat) := by
  simp only [max32z, BitVec.ult, decide_eq_true_eq]
  split
  next h => rw [Int.max_eq_right (Int.ofNat_le.2 (Nat.le_of_lt h)), w32_toNat]
  next h => rw [Int.max_eq_left (Int.ofNat_le.2 (Nat.le_of_not_lt h)), w32_toNat]
theorem min32z_eq (x y : W32) : min32z x y = w32 (min (x.toNat : Int) y.toNat) := by
  simp only [min32z, BitVec.ult, decide_eq_true_eq]
  split
  next h => rw [Int.min_eq_right (Int.ofNat_le.2 (Nat.le_of_lt h)), w32_toNat]
  next h => rw [Int.min_eq_left (Int.ofNat_le.2 (Nat.le_of_not_lt h)), w32_toNat]

/-- A word of the table: the model folds with an operation that, at the word's issue, is the table's. -/
theorem TreeRule.exec_vReduce {i : Instr} {st : Stall} {l : Nat} {d a : VReg} {p : PReg} {ident : W32}
    {op : State → W32 → W32 → W32 × FFlags} (h : TreeRule i st l d a p ident op) (s : State) :
    ∃ op', exec i s = s.vReduce i st l d a p ident op' ∧ op' s.begin = op s := by
  cases h with
  | vradd st d a p => exact ⟨fun s => f32Add s.mode, rfl, by simp only [State.begin_mode]⟩
  | vrmax st d a p => exact ⟨fun _ => f32Max, rfl, rfl⟩
  | vrmin st d a p => exact ⟨fun _ => f32Min, rfl, rfl⟩
  | vriadd st d a p => exact ⟨fun _ => plain (· + ·), rfl, by funext x y; simp only [plain, add_eq_w32]⟩
  | vrimaxS32 st d a p => exact ⟨fun _ => plain max32s, rfl, by funext x y; simp only [plain, max32s_eq]⟩
  | vrimaxZ32 st d a p => exact ⟨fun _ => plain max32z, rfl, by funext x y; simp only [plain, max32z_eq]⟩
  | vriminS32 st d a p => exact ⟨fun _ => plain min32s, rfl, by funext x y; simp only [plain, min32s_eq]⟩
  | vriminZ32 st d a p => exact ⟨fun _ => plain min32z, rfl, by funext x y; simp only [plain, min32z_eq]⟩

/-! ### A reduction -/

/-- The values that a reduction folds: the active lanes, and the identity elsewhere. -/
def State.treeLanes (s : State) (a : VReg) (p : PReg) (ident : W32) (j : Nat) : W32 :=
  if h : j < 16 then (if (maskOf s p).getLsbD j then (s.v a).get ⟨j, h⟩ else ident) else 0
theorem State.begin_mask (s : State) (p : PReg) : s.begin.mask p = maskOf s p := by
  rw [State.mask, State.begin_p, maskOf]
  exact BitVec.eq_of_toNat_eq (by rw [extract_low_toNat, BitVec.toNat_setWidth])
theorem State.treeLanes_eq (s : State) (a : VReg) (p : PReg) (ident : W32) :
    ((List.finRange 16).map fun j => if (s.begin.mask p).getLsbD j.val then s.begin.lane a j else ident) =
      (List.finRange 16).map fun j => s.treeLanes a p ident j.val := by
  refine List.map_congr_left fun j _ => ?_
  rw [State.treeLanes, dif_pos j.isLt, State.begin_mask, State.lane, State.begin_v]
theorem State.vReduce_ready {i : Instr} {s : State} (h : Ready i s) (hr : RingFree s) (st : Stall) (l : Nat) (d a : VReg) (p : PReg)
    (ident : W32) (op : State → W32 → W32 → W32 × FFlags) : s.vReduce i st l d a p ident op =
      .next (s.begin.vpDone i st l d 0xFFFF (Vector.ofFn fun _ => (treeOf (op s.begin) 4 (s.treeLanes a p ident)).1,
        (treeOf (op s.begin) 4 (s.treeLanes a p ident)).2)) := by
  rw [State.vReduce, State.issueV_ready h hr]
  simp only [State.treeLanes_eq, laneTree_eq_treeOf]

/-- Settles O17: a reduction ends as every vector word does, with the tree's value in all its lanes. -/
theorem reductions : Obligations.Reductions := by
  unfold Obligations.Reductions
  intro i s st l d a p ident op hrule hready hring
  obtain ⟨op', hexec, hop⟩ := hrule.exec_vReduce s
  rw [State.vReduce_ready hready hring, hop] at hexec
  exact State.computesLanes_of hexec

end Sys2Proof.Machine
end

section
/-! SUPPORT. The state after package reset (R98, R103, R136, R339): its tables are empty, so that everything they hold is as it starts. -/

namespace Sys2Proof.Machine

@[simp] theorem State.reset_rope (r : Nat) : State.reset.rope r = Rope.init := rfl
@[simp] theorem State.reset_core (n : Nat) : State.reset.core n = Core.init := rfl
@[simp] theorem State.reset_queueOf (q : Nat) : State.reset.queueOf q = QBlock.init := rfl
@[simp] theorem State.reset_byte (a : Nat) : State.reset.byte a = 0 := rfl

/-- Settles O56: every rope, core, queue and byte is the one that a table lists for no key. -/
theorem resetState : Obligations.ResetState := by
  unfold Obligations.ResetState
  refine ⟨rfl, rfl, rfl, rfl, fun r => ?rope, fun n => ?core, fun q => ?queue, State.reset_byte, Memory.reset_wf⟩
  case rope => rw [State.reset_rope]; exact ⟨rfl, rfl, rfl⟩
  case core => rw [State.reset_core]; exact ⟨rfl, rfl, rfl, rfl⟩
  case queue => rw [State.reset_queueOf]; exact ⟨rfl, rfl⟩

end Sys2Proof.Machine
end

section
/-! SUPPORT. Where a read or a write of a context goes (R95, R96, R100, R214, R216, R232, R233, R238, R326): the two apertures, and
a page with the checks of its entry in their order. -/

namespace Sys2Proof.Machine

/-! ### The apertures (R95, R238) -/

theorem inLocal_iff (va : VA) : inLocal va = true ↔ 0xFFFFFFFFF00000 ≤ va.toNat := decide_eq_true_iff
theorem inRope_iff (va : VA) : inRope va = true ↔ 0xFFFFFFFF800000 ≤ va.toNat ∧ va.toNat < 0xFFFFFFFFC00000 := by
  simp [inRope]
theorem inLocal_of_inRope {va : VA} (h : inRope va = true) : inLocal va = false := by
  rw [inRope_iff] at h; rw [← Bool.not_eq_true, inLocal_iff]; omega
/-- The addresses that are translated. -/
theorem outside_apertures {va : VA} (h : va.toNat < 0xFFFFFFFF800000 ∨ 0xFFFFFFFFC00000 ≤ va.toNat ∧ va.toNat < 0xFFFFFFFFF00000) :
    inLocal va = false ∧ inRope va = false := by
  rw [← Bool.not_eq_true, ← Bool.not_eq_true, inLocal_iff, inRope_iff]; omega

/-- What a plain access is: a write or a read. -/
def plainKind (w : Bool) : Kind := if w then .write else .read

@[simp] theorem plainKind_writes (w : Bool) : (plainKind w).writes = w := by cases w <;> rfl
theorem plainKind_permitted (w : Bool) (e : Pte) : (plainKind w).permitted e = if w then e.wr else e.rd := by cases w <;> rfl

section
variable {s : State} {n : Nat} {w : Bool} {va : VA} {size : Nat}

theorem State.place_local (h : inLocal va = true) : s.place n (plainKind w) va size = s.placeLocal n va size (!w) := by
  cases w <;> simp [State.place, plainKind, h]
theorem State.place_rope_read (h : inRope va = true) : s.place n .read va size = .trap ⟨0x06, ofVA va, 0⟩ := by
  simp [State.place, h, inLocal_of_inRope h]

/-! ### The core-local aperture (R95, R96, R100, R326) -/

/-- Within the scratch: poison before staleness for a read, and the byte's offset. -/
theorem State.placeLocal_inside (h0 : scrBase ≤ va.toNat) (h1 : va.toNat + size ≤ scrBase + (s.core n).banks.slen) (read : Bool) :
    s.placeLocal n va size read =
      if read && ((s.core n).banks.granAt ((va.toNat - scrBase) / 512)).poison then .trap ⟨0x13, ofVA va, 0⟩
      else if read && ((s.core n).banks.granAt ((va.toNat - scrBase) / 512)).stale s.tick then .trap ⟨0x08, ofVA va, 0⟩
      else .scratch (va.toNat - scrBase) := by
  have ho : ((va.toNat : Int) - scrBase).toNat = va.toNat - scrBase := by omega
  have hin : 0 ≤ (va.toNat : Int) - scrBase ∧ (va.toNat : Int) - scrBase + size ≤ (s.core n).banks.slen := by omega
  simp only [State.placeLocal, hin, decide_true, Bool.and_self, if_true, ho]
/-- Outside it: the 64 bytes on either side are guards, and nothing else is there. -/
theorem State.placeLocal_outside (h : va.toNat < scrBase ∨ scrBase + (s.core n).banks.slen < va.toNat + size) (read : Bool) :
    s.placeLocal n va size read =
      if scrBase ≤ va.toNat + 64 ∧ va.toNat < scrBase ∨
          scrBase + (s.core n).banks.slen ≤ va.toNat ∧ va.toNat < scrBase + (s.core n).banks.slen + 64
      then .guard ((va.toNat : Int) - scrBase) else .trap ⟨0x06, ofVA va, 0⟩ := by
  have hout : ¬ (0 ≤ (va.toNat : Int) - scrBase ∧ (va.toNat : Int) - scrBase + size ≤ (s.core n).banks.slen) := by omega
  simp only [State.placeLocal, Bool.and_eq_true, Bool.or_eq_true, decide_eq_true_eq, if_neg hout]
  congr 1
  exact propext (by omega)

/-! ### Pages (R214, R216, R232, R233) -/

theorem State.place_paged (hl : inLocal va = false) (hr : inRope va = false) {k : Kind} {e : Pte} {pa : Nat}
    (h : s.check k (s.core n).asid va size = .ok e pa) : s.place n k va size = .memory e pa := by
  simp [State.place, hl, hr, h]
theorem State.place_faulting (hl : inLocal va = false) (hr : inRope va = false) {k : Kind} {v : VA} {x : Bool}
    (h : s.check k (s.core n).asid va size = .page v x) : s.place n k va size = .page v x := by
  simp [State.place, hl, hr, h]
/-- The trap of the checks is the trap of the place, but for a replica that a recalled page still has (R224, R226). -/
theorem State.place_trapping (hl : inLocal va = false) (hr : inRope va = false) {k : Kind} {c : Nat} {a : W64}
    (h : s.check k (s.core n).asid va size = .trap ⟨c, a, 0⟩) (hn : c ≠ 0x11 ∨ s.replicaHit n (s.core n).asid va size = false) :
    s.place n k va size = .trap ⟨c, a, 0⟩ := by
  have hno : (c = 0x11 && s.replicaHit n (s.core n).asid va size) = false := by
    rcases hn with hc | hc <;> simp [hc]
  simp only [State.place, hl, hr, h, Bool.and_assoc, hno, Bool.and_false, Bool.false_eq_true, if_false]
  cases s.xlate (s.core n).asid va <;> rfl
end

section
variable {s : State} {asid : Asid} {va : VA} {size : Nat} {k : Kind} {e : Pte}

theorem State.check_unmapped (h : s.xlate asid va = none) : s.check k asid va size = .page va k.writes := by
  simp [State.check, h]
theorem State.check_refused (h : s.xlate asid va = some e)
    (hn : e.malformed = true ∨ s.physOk (e.pa va) = false ∨ k.permitted e = false) :
    s.check k asid va size = .trap ⟨0x06, ofVA va, 0⟩ := by
  have hx : (e.malformed || !s.physOk (e.pa va) || !k.permitted e) = true := by
    rcases hn with hc | hc | hc <;> simp [hc]
  simp [State.check, h, hx]

section
variable (h : s.xlate asid va = some e) (hm : e.malformed = false) (hp : s.physOk (e.pa va) = true) (hk : k.permitted e = true)
include h hm hp hk

theorem State.check_misclassed {c : Nat} (hc : s.classCheck k asid va size e = some c) :
    s.check k asid va size = .trap ⟨c, ofVA (s.refusedAt k asid va e), 0⟩ := by
  simp [State.check, h, hm, hp, hk, hc]
theorem State.check_classed (hc : s.classCheck k asid va size e = none) : s.check k asid va size =
    if s.poisoned (e.pa va) && !(s.noRoute (e.pa va) && (k = .write || k = .atomic || k = .futWrite)) then .trap ⟨0x13, ofVA va, 0⟩
    else .ok e (e.pa va) := by
  simp [State.check, h, hm, hp, hk, hc]
end

theorem State.refusedAt_of_class (hc : e.cls ≠ .vitrine) : s.refusedAt k asid va e = va := by
  unfold State.refusedAt; split
  · contradiction
  · rfl
theorem State.refusedAt_of_write : s.refusedAt .write asid va e = va := rfl
/-- The first byte past the tail of a page that is not being recalled (R216). -/
theorem State.refusedAt_tail {x : VRec} (hc : e.cls = .vitrine) (hv : s.vrec asid va = some x) (hx : x.state ≠ .recalling) :
    s.refusedAt .read asid va e = va + BitVec.ofNat 56 (x.ptail - va.toNat % 65536) := by
  simp only [State.refusedAt, hc, hv]
  split
  · next h =>
    have : x.ptail - va.toNat % 65536 = 0 := by simp [hx] at h; omega
    simp [this]
  · rfl
theorem State.classCheck_read_vitrine {x : VRec} (hc : e.cls = .vitrine) (hv : s.vrec asid va = some x) (hx : x.state ≠ .recalling) :
    s.classCheck .read asid va size e = if va.toNat % 65536 + size ≤ x.ptail then none else some 0x11 := by
  simp [State.classCheck, hc, hv, hx]
theorem State.replicaHit_of_not_recalled {n : Nat} {x : VRec} (hv : s.vrec asid va = some x) (hx : x.state ≠ .recalling) :
    s.replicaHit n asid va size = false := by
  simp [State.replicaHit, hv, hx]
end

/-! ### The places (O9) -/

section
variable {s : State} {n : Nat} {va : VA} {size : Nat} {e : Pte} (hl : inLocal va = false) (hr : inRope va = false)
  (h : s.xlate (s.core n).asid va = some e)
include hl hr h

theorem State.place_refused {w : Bool} (hn : e.malformed = true ∨ s.physOk (e.pa va) = false ∨ (if w then e.wr else e.rd) = false) :
    s.place n (plainKind w) va size = .trap ⟨0x06, ofVA va, 0⟩ :=
  State.place_trapping hl hr (State.check_refused h (by rwa [plainKind_permitted])) (.inl (by decide))

section
variable (hm : e.malformed = false) (hp : s.physOk (e.pa va) = true)
include hm hp

theorem State.place_normal {w : Bool} (hk : (if w then e.wr else e.rd) = true) (hc : e.cls = .normal) :
    s.place n (plainKind w) va size =
      if s.poisoned (e.pa va) = true ∧ (w = false ∨ s.noRoute (e.pa va) = false) then .trap ⟨0x13, ofVA va, 0⟩
      else .memory e (e.pa va) := by
  have hcls : s.classCheck (plainKind w) (s.core n).asid va size e = none := by cases w <;> simp [plainKind, State.classCheck, hc]
  have hcheck := State.check_classed h hm hp (by rwa [plainKind_permitted]) hcls
  have hroute : (s.poisoned (e.pa va) &&
        !(s.noRoute (e.pa va) && (plainKind w = .write || plainKind w = .atomic || plainKind w = .futWrite))) = true ↔
      s.poisoned (e.pa va) = true ∧ (w = false ∨ s.noRoute (e.pa va) = false) := by
    cases w <;> simp [plainKind]
  simp only [hroute] at hcheck
  split at hcheck
  · next hb => rw [if_pos hb]; exact State.place_trapping hl hr hcheck (.inl (by decide))
  · next hb => rw [if_neg hb]; exact State.place_paged hl hr hcheck
/-- A class that refuses a plain access, at its first byte, with a cause that no replica lifts. -/
theorem State.place_misclassed {w : Bool} (hk : (if w then e.wr else e.rd) = true) {c : Nat}
    (hc : s.classCheck (plainKind w) (s.core n).asid va size e = some c) (hc11 : c ≠ 0x11)
    (hat : s.refusedAt (plainKind w) (s.core n).asid va e = va) : s.place n (plainKind w) va size = .trap ⟨c, ofVA va, 0⟩ := by
  have hcheck := State.check_misclassed h hm hp (by rwa [plainKind_permitted]) hc
  rw [hat] at hcheck
  exact State.place_trapping hl hr hcheck (.inl hc11)
theorem State.place_vitrine_published {x : VRec} (hk : e.rd = true) (hc : e.cls = .vitrine) (hv : s.vrec (s.core n).asid va = some x)
    (hx : x.state ≠ .recalling) (ht : va.toNat % 65536 + size ≤ x.ptail) :
    s.place n .read va size = if s.poisoned (e.pa va) then .trap ⟨0x13, ofVA va, 0⟩ else .memory e (e.pa va) := by
  have hcls : s.classCheck .read (s.core n).asid va size e = none := by rw [State.classCheck_read_vitrine hc hv hx, if_pos ht]
  have hcheck := State.check_classed (k := .read) h hm hp hk hcls
  cases hb : s.poisoned (e.pa va) with
  | true => exact State.place_trapping hl hr (by simpa [hb] using hcheck) (.inl (by decide))
  | false => exact State.place_paged hl hr (by simpa [hb] using hcheck)
theorem State.place_vitrine_past_tail {x : VRec} (hk : e.rd = true) (hc : e.cls = .vitrine) (hv : s.vrec (s.core n).asid va = some x)
    (hx : x.state ≠ .recalling) (ht : x.ptail < va.toNat % 65536 + size) :
    s.place n .read va size = .trap ⟨0x11, ofVA (va + BitVec.ofNat 56 (x.ptail - va.toNat % 65536)), 0⟩ := by
  have hcls : s.classCheck .read (s.core n).asid va size e = some 0x11 := by
    rw [State.classCheck_read_vitrine hc hv hx, if_neg (by omega)]
  have hcheck := State.check_misclassed (k := .read) h hm hp hk hcls
  rw [State.refusedAt_tail hc hv hx] at hcheck
  exact State.place_trapping hl hr hcheck (.inr (State.replicaHit_of_not_recalled hv hx))
end
end

/-- Settles O9: the aperture clauses are the two halves of `State.placeLocal`; the page clauses are the checks of an entry in their order. -/
theorem placesOfAccesses : Obligations.PlacesOfAccesses := by
  unfold Obligations.PlacesOfAccesses
  intro s n w va size
  have hlocal (h : 0xFFFFFFFFF00000 ≤ va.toNat) : s.place n (plainKind w) va size = s.placeLocal n va size (!w) :=
    State.place_local ((inLocal_iff va).2 h)
  have hscr : scrBase = 0xFFFFFFFFF01000 := rfl
  refine ⟨fun h0 h1 => ?inside, fun h0 h1 => ?below, fun h0 h1 hz => ?above, fun h0 h1 hz => ?beyond, fun h0 h1 hw => ?rope, fun h => ?paged⟩
  case inside =>
    refine (hlocal (by omega)).trans ((State.placeLocal_inside h0 h1 _).trans ?_)
    cases w
    · simp [Gran.stale, Gran.age, hscr, ofVA]
    · simp [hscr]
  case below =>
    exact (hlocal (by omega)).trans ((State.placeLocal_outside (.inl h1) _).trans (if_pos (.inl (by omega))))
  case above =>
    exact (hlocal (by omega)).trans ((State.placeLocal_outside (.inr (by omega)) _).trans (if_pos (.inr (by omega))))
  case beyond =>
    exact (hlocal (by omega)).trans ((State.placeLocal_outside (by omega) _).trans (if_neg (by omega)))
  case rope =>
    subst hw
    exact State.place_rope_read ((inRope_iff va).2 ⟨h0, h1⟩)
  case paged =>
    obtain ⟨hl, hr⟩ := outside_apertures h
    refine ⟨fun hx => ?_, fun e hx => ⟨fun hn => ?refused, fun hm hp hk hc => ?normal, fun hm hp hc hk => ?future, fun hm hp hc hw hk => ?vitrine,
      fun hm hp hc hw hk => ?device, fun x hm hp hc hw hk hv hs => ⟨fun ht => ?published, fun ht => ?pastTail⟩⟩⟩
    · exact (State.place_faulting hl hr (State.check_unmapped hx)).trans (congrArg _ (plainKind_writes w))
    case refused => exact State.place_refused hl hr hx hn
    case normal => exact State.place_normal hl hr hx hm hp hk hc
    case future =>
      exact State.place_misclassed hl hr hx hm hp hk (by cases w <;> simp [plainKind, State.classCheck, hc]) (by decide)
        (State.refusedAt_of_class (by simp [hc]))
    case vitrine | device =>
      subst hw
      exact State.place_misclassed (w := true) hl hr hx hm hp hk (by simp [plainKind, State.classCheck, hc]) (by decide) State.refusedAt_of_write
    case published => subst hw; exact State.place_vitrine_published hl hr hx hm hp hk hc hv hs ht
    case pastTail => subst hw; exact State.place_vitrine_past_tail hl hr hx hm hp hk hc hv hs ht

end Sys2Proof.Machine
end

section
/-! SUPPORT. Commands that fault at their start (R103, R139–R141, R181, R183): which fault a start takes, what becomes of the command,
its report, the retry at the cairn, and the resume (R139, R140, R190). -/

namespace Sys2Proof.Machine

/-! ### One context, one rope -/

theorem State.onCtx_core (s : State) (n k : Nat) (f : Ctx → Ctx) (m : Nat) :
    (s.onCtx n k f).core m = { s.core m with ctxs := ((s.onCtx n k f).core m).ctxs } := by
  by_cases h : m = n
  · subst h; simp [State.onCtx, State.setCtx, Core.setCtx]
  · simp [State.onCtx, State.setCtx, h]
theorem State.onCtx_ctx_other (s : State) {n k m j : Nat} (h : (m, j) ≠ (n, k)) (f : Ctx → Ctx) : (s.onCtx n k f).ctx m j = s.ctx m j := by
  by_cases hm : m = n
  · subst hm
    have hj : j ≠ k := fun hj => h (by rw [hj])
    simp [State.onCtx, State.setCtx, State.ctx, hj]
  · simp [State.onCtx, State.setCtx, State.ctx, hm]
theorem State.onCtx_onCtx (s : State) (n k : Nat) (f g : Ctx → Ctx) : (s.onCtx n k f).onCtx n k g = s.onCtx n k fun c => g (f c) := by
  simp [State.onCtx, State.setCtx, State.ctx, State.setCore, State.core, Core.ctx, Core.setCtx]
theorem Ctx.SameRegs.refl (c : Ctx) : c.SameRegs c := ⟨rfl, rfl, rfl, rfl, rfl⟩
theorem State.onCtx_sameRegs (s : State) (n k : Nat) {f : Ctx → Ctx} (h : (s.ctx n k).SameRegs (f (s.ctx n k))) (m j : Nat) :
    (s.ctx m j).SameRegs ((s.onCtx n k f).ctx m j) := by
  by_cases e : (m, j) = (n, k)
  · obtain ⟨rfl, rfl⟩ := Prod.mk.inj e; rwa [State.onCtx_ctx]
  · rw [State.onCtx_ctx_other s e]; exact .refl _
theorem State.rope_onRope (s : State) (r : Nat) (f : Rope → Rope) : (s.onRope r f).rope r = f (s.rope r) := by
  simp [State.rope, State.onRope]

@[simp] theorem State.after_rope (s : State) (d : Nat) (e : Ev) (r : Nat) : (s.after d e).rope r = s.rope r := rfl
@[simp] theorem State.after_ctx (s : State) (d : Nat) (e : Ev) (n k : Nat) : (s.after d e).ctx n k = s.ctx n k := rfl

/-! ### Which fault a start takes (R103, R181, R185) -/

theorem State.late_iff (s : State) (c : Cmd) : s.late c = true ↔ TooEarly s c := by
  simp [State.late, TooEarly, and_assoc]
theorem State.leased_without {s : State} {c : Cmd} (h : s.holdsLease c.core = false) (busy unsettled : Bool) (go : Start) :
    s.leased c busy unsettled go = .trap ⟨0x19, 0, 0⟩ := by
  simp [State.leased, h]
theorem State.leased_late {s : State} {c : Cmd} (h : s.holdsLease c.core = true) (hl : s.late c = true) (busy unsettled : Bool) (go : Start) :
    s.leased c busy unsettled go = .trap ⟨0x0B, 0, 0⟩ := by
  simp [State.leased, h, hl]
/-- A command of the array or the ladder starts with the lease and timing checks, orders 1 and 2 of R185. -/
theorem State.startOf_leased {i : Instr} (h : Leased i) (s : State) {c : Cmd} (hi : c.instr = i) :
    ∃ busy unsettled go, s.startOf c = (c, s.leased c busy unsettled go) := by
  obtain ⟨st, u, a, b, off, hw, hu⟩ := h
  cases hw with
  | lstep st src => cases src <;> (simp only [State.startOf, hi]; exact ⟨_, _, _, rfl⟩)
  | copy | copyApnd | copyl | copyz | cbump => exact absurd rfl hu
  | _ => simp only [State.startOf, hi]; exact ⟨_, _, _, rfl⟩
theorem State.startOf_without_lease {s : State} {c : Cmd} (h : Leased c.instr) (hl : s.holdsLease c.core = false) :
    s.startOf c = (c, .trap ⟨0x19, 0, 0⟩) := by
  obtain ⟨busy, unsettled, go, hs⟩ := s.startOf_leased h rfl
  rw [hs, State.leased_without hl]
theorem State.startOf_copy_late {s : State} {c : Cmd} {i : Instr} {st : Stall} {a b off : State → W64} (h : EngineWords i st .copy a b off)
    (hi : c.instr = i) (hl : s.late c = true) : s.startOf c = (c, .trap ⟨0x0B, 0, 0⟩) := by
  cases h <;> simp [State.startOf, hi, hl]
theorem State.startOf_tooEarly {s : State} {c : Cmd} (h : ∃ st u a b off, EngineWords c.instr st u a b off)
    (hl : Leased c.instr → s.holdsLease c.core = true) (ht : TooEarly s c) : s.startOf c = (c, .trap ⟨0x0B, 0, 0⟩) := by
  have hlate := (s.late_iff c).2 ht
  obtain ⟨st, u, a, b, off, hw⟩ := h
  by_cases hu : u = .copy
  · subst hu; exact State.startOf_copy_late hw rfl hlate
  · have hc : Leased c.instr := ⟨st, u, a, b, off, hw, hu⟩
    obtain ⟨busy, unsettled, go, hs⟩ := s.startOf_leased hc rfl
    rw [hs, State.leased_late (hl hc) hlate]

/-! ### A command that faults (R183, R315) -/

theorem CmdLive.failing_none {s : State} {c : Cmd} (h : CmdLive s c) : (s.core c.core).failing = none := by
  obtain ⟨-, -, h, -, -, -⟩ := h; exact h
theorem CmdLive.fault_none {s : State} {c : Cmd} (h : CmdLive s c) : (s.ctx c.core c.ctx).fault = none := by
  obtain ⟨-, -, -, -, h, -⟩ := h; exact h

/-- The command is gone, and its ring entry has faulted and is complete. -/
def State.struck (s : State) (c : Cmd) : State :=
  ((s.ringMark c.core c.seq fun e => { e with fl := true }).ringMark c.core c.seq fun e => { e with cp := true }).dropCmd c.id

theorem State.ringMark_core (s : State) (n : Nat) (seq : BitVec 6) (f : RingEnt → RingEnt) (m : Nat) :
    (s.ringMark n seq f).core m = { s.core m with ring := ((s.ringMark n seq f).core m).ring } := by
  by_cases h : m = n
  · subst h; rw [State.ringMark, State.onCore_core]
  · rw [State.ringMark, State.onCore_core_other s h]
/-- A ring whose entries keep their sequence numbers under `f` answers with the entry that `f` makes of its own. -/
theorem find_ring_map {f : RingEnt → RingEnt} (hf : ∀ e, (f e).seq = e.seq) (l : List RingEnt) (q : BitVec 6) :
    (l.map f).find? (fun e => e.seq == q) = (l.find? fun e => e.seq == q).map f := by
  rw [List.find?_map]
  have : ((fun e => e.seq == q) ∘ f) = fun (e : RingEnt) => e.seq == q := funext fun e => by simp [hf]
  rw [this]
/-- What a report says of a command is the same after its ring entry is marked. -/
theorem State.ringMark_impFault (s : State) (n : Nat) (seq : BitVec 6) {f : RingEnt → RingEnt}
    (hf : ∀ e, (f e).seq = e.seq ∧ (f e).at' = e.at' ∧ (f e).hm = e.hm) (k : Nat) (m : Met) :
    ((s.ringMark n seq f).core k).impFault m = (s.core k).impFault m := by
  by_cases h : k = n
  · subst h
    have hmark (e : RingEnt) : (if e.seq = seq then f e else e).seq = e.seq ∧ (if e.seq = seq then f e else e).at' = e.at' ∧
        (if e.seq = seq then f e else e).hm = e.hm := by
      split
      · exact hf e
      · exact ⟨rfl, rfl, rfl⟩
    rw [State.ringMark, State.onCore_core]
    simp only [Core.impFault, Core.ringAt, find_ring_map fun e => (hmark e).1]
    cases (s.core k).ring.find? fun e => e.seq == m.seq with
    | none => rfl
    | some e =>
      obtain ⟨-, hat, hhm⟩ := hmark e
      simp only [Option.map_some, hat, hhm]
  · rw [State.ringMark, State.onCore_core_other s h]

section
variable (s : State) (c : Cmd)

theorem State.struck_core (n : Nat) : (s.struck c).core n = { s.core n with ring := ((s.struck c).core n).ring } := by
  show ((s.ringMark ..).ringMark ..).core n = _
  rw [State.ringMark_core, State.ringMark_core s]; rfl
@[simp] theorem State.struck_ctx (n k : Nat) : (s.struck c).ctx n k = s.ctx n k := by
  rw [State.ctx, State.struck_core]; rfl
theorem State.struck_impFault (n : Nat) (m : Met) : ((s.struck c).core n).impFault m = (s.core n).impFault m :=
  ((s.ringMark ..).ringMark_impFault (f := fun e => { e with cp := true }) c.core c.seq (fun _ => ⟨rfl, rfl, rfl⟩) n m).trans
    (s.ringMark_impFault (f := fun e => { e with fl := true }) c.core c.seq (fun _ => ⟨rfl, rfl, rfl⟩) n m)
@[simp] theorem State.struck_cmds : (s.struck c).cmds = s.cmds.filter fun d => d.id != c.id := rfl
@[simp] theorem State.struck_mem : (s.struck c).mem = s.mem := rfl
@[simp] theorem State.struck_now : (s.struck c).now = s.now := rfl
end

theorem State.retrySoon_of_not_retry {s : State} {n k : Nat} (h : ∀ t l, (s.ctx n k).park ≠ .retry t l) : s.retrySoon n k = s := by
  unfold State.retrySoon
  split
  · next hp => exact absurd hp (h _ _)
  · rfl

section
variable {s : State} {c : Cmd} (hl : CmdLive s c)
include hl

/-- A fault of a live command strikes it, and is a timing fault or is reported (R139, R183). -/
theorem State.cmdFault_live (t : Trap) : s.cmdFault c t =
    if t.cause = 0x0B ∨ t.cause = 0x0C then (s.struck c).timingFault c.core c.ctx t.cause
    else (s.struck c).reportImprecise c.core c.ctx ⟨t.cause, t.faddr, c.word.zeroExtend 64, c.seq⟩ := by
  obtain ⟨hon, hbind, -, hstop, -, hpark⟩ := hl
  have hfin : (s.ringMark c.core c.seq fun e => { e with fl := true }).finished c = s.struck c :=
    State.retrySoon_of_not_retry (by rw [← State.struck, State.struck_ctx]; exact hpark)
  have hruns : (s.core c.core).runs c.bind = true := by
    simp [Core.runs, hbind, Option.isSome_iff_ne_none.2 hon]
  simp [State.cmdFault, hfin, hruns, hstop]
theorem exec_engineCommandStart_faults (hw : Waiting s c) {t : Trap} (h : s.startOf c = (c, .trap t)) :
    exec (.engineCommandStart c.core c.id) s = .next (s.cmdFault c t) := by
  rw [exec_engineCommandStart]
  simp only [execEngineCommandStart, hl.failing_none, Option.isSome_none, Bool.false_eq_true, if_false]
  rw [hw]
  simp [h, State.startWith]
end

/-! ### The report (R167) -/

@[simp] theorem State.unaskGone_core (s : State) (n : Nat) : s.unaskGone.core n = s.core n := rfl
@[simp] theorem State.unaskGone_ctx (s : State) (n k : Nat) : s.unaskGone.ctx n k = s.ctx n k := rfl

section
variable (s : State) (n k : Nat) (m : Met)

theorem State.reportImprecise_core (j : Nat) : ((s.reportImprecise n k m).core j).banks = (s.core j).banks ∧
    ((s.reportImprecise n k m).core j).active = (s.core j).active := by
  rw [State.reportImprecise, State.unaskGone_core, State.onCtx_core]
  by_cases h : j = n
  · subst h; rw [State.onCore_core]; exact ⟨rfl, rfl⟩
  · rw [State.onCore_core_other s h]; exact ⟨rfl, rfl⟩
theorem State.ringFaulted_ctx (seq : BitVec 6) (i j : Nat) : (s.onCore n fun c => c.ringFaulted seq).ctx i j = s.ctx i j := by
  by_cases h : i = n
  · subst h; rw [State.ctx, State.onCore_core]; rfl
  · rw [State.ctx, State.onCore_core_other s h]; rfl
theorem State.reportImprecise_ctx : (s.reportImprecise n k m).ctx n k = (s.ctx n k).reported s.now ((s.core n).impFault m) := by
  rw [State.reportImprecise, State.unaskGone_ctx, State.onCtx_ctx, State.ringFaulted_ctx]
theorem State.reportImprecise_sameRegs (i j : Nat) : (s.ctx i j).SameRegs ((s.reportImprecise n k m).ctx i j) := by
  have h := State.onCtx_sameRegs (s.onCore n fun c => c.ringFaulted m.seq) n k
    (f := fun c => c.reported s.now ((s.core n).impFault m)) ⟨rfl, rfl, rfl, rfl, rfl⟩ i j
  rwa [State.ringFaulted_ctx] at h
end
theorem Ctx.reported_fault {x : Ctx} (h : x.fault = none) (now : Nat) (f : ImpFault) : (x.reported now f).fault = some f := by
  simp [Ctx.reported, h]

/-! ### The retry at the cairn (R139) -/

section
variable (v l : Bool) (nfx : Nat) (pc : VA) (rcnt : Nat)

/-- Bits that hold neither V, L nor the address come from NFX and RCNT alone. -/
theorem cairnWord_extract {lo w : Nat} (hv : (0x8000000000000000 : W64).extractLsb' lo w = 0)
    (hl : (0x4000000000000000 : W64).extractLsb' lo w = 0) (hp : (0x00FFFFFFFFFFFFFC : W64).extractLsb' lo w = 0) :
    (cairnWord v l nfx pc rcnt).extractLsb' lo w =
      (BitVec.ofNat 64 (nfx % 64 * 2 ^ 56)).extractLsb' lo w ||| (BitVec.ofNat 64 (rcnt % 4)).extractLsb' lo w := by
  have hif (b : Bool) {x : W64} (hx : x.extractLsb' lo w = 0) : (if b then x else 0).extractLsb' lo w = 0 := by
    cases b
    · exact BitVec.extractLsb'_zero
    · exact hx
  have hpc : (ofVA pc &&& 0x00FFFFFFFFFFFFFC).extractLsb' lo w = 0 := by rw [BitVec.extractLsb'_and, hp]; exact BitVec.and_zero
  simp only [cairnWord, BitVec.extractLsb'_or, hif v hv, hif l hl, hpc]
  simp only [BitVec.ofNat_eq_ofNat, BitVec.zero_or, BitVec.or_zero]
theorem cairnWord_rcnt : ((cairnWord v l nfx pc rcnt).extractLsb' 0 2).toNat = rcnt % 4 := by
  have hn : (BitVec.ofNat 64 (nfx % 64 * 2 ^ 56)).extractLsb' 0 2 = 0 := by rw [extract_eq_zero, BitVec.toNat_ofNat]; omega
  rw [cairnWord_extract v l nfx pc rcnt rfl rfl rfl, hn, BitVec.ofNat_eq_ofNat, BitVec.zero_or, extract_low_toNat, BitVec.toNat_ofNat]
  omega
theorem cairnWord_nfx : ((cairnWord v l nfx pc rcnt).extractLsb' 56 6).toNat = nfx % 64 := by
  have hr : (BitVec.ofNat 64 (rcnt % 4)).extractLsb' 56 6 = 0 := by rw [extract_eq_zero, BitVec.toNat_ofNat]; omega
  rw [cairnWord_extract v l nfx pc rcnt rfl rfl rfl, hr, BitVec.ofNat_eq_ofNat, BitVec.or_zero, extract_toNat, BitVec.toNat_ofNat]
  omega
end

/-- Commands that go leave none under way where none was. -/
theorem running_filter_nil {s : State} {n k : Nat} (h : s.running n k = []) (p : Cmd → Bool) :
    (s.cmds.filter p).filter (fun c => c.core == n && c.ctx == k && c.phase != .waiting) = [] := by
  rw [State.running] at h
  exact List.filter_eq_nil_iff.2 fun d hd => List.filter_eq_nil_iff.1 h d (List.mem_filter.1 hd).1
theorem State.struck_idle {s : State} {n k : Nat} (c : Cmd) (h : s.running n k = []) : (s.struck c).running n k = [] := running_filter_nil h _

/-- A context's waiting commands, its loads in flight and its request for the lease are withdrawn. -/
def State.withdrawn (s : State) (n k : Nat) : State :=
  State.unaskLease { s with
    cmds := s.cmds.filter fun c => !(c.core == n && c.ctx == k && c.phase == .waiting)
    flights := dropLoads n k s.flights } n k
/-- A context at its cairn, one retry more counted, until the retry's resume. -/
def Ctx.retried (c : Ctx) (until' : Nat) : Ctx :=
  { c.atCairn (c.rcnt + 1) with park := .retry until' false, xstat := c.xstat &&& 0x7FFFFFFFFFFFFFFF }

@[simp] theorem State.withdrawn_ctx (s : State) (n k i j : Nat) : (s.withdrawn n k).ctx i j = s.ctx i j := rfl
theorem State.retrySoon_of_idle {s : State} {n k : Nat} {l : Bool} (hp : (s.ctx n k).park = .retry 0 l) (hr : s.running n k = []) :
    s.retrySoon n k = (s.onCtx n k fun c => { c with park := .retry (s.now + 16) false }).after 16 (.retryResume n k) := by
  simp [State.retrySoon, hp, hr]
/-- No started command of the context is left to wait for: the resume comes 16 cycles later. -/
theorem State.retry_of_idle {s : State} {n k : Nat} (hr : s.running n k = []) :
    s.retry n k = ((s.withdrawn n k).onCtx n k fun c => c.retried (s.now + 16)).after 16 (.retryResume n k) := by
  show ((s.withdrawn n k).onCtx n k fun c =>
    { c.atCairn (c.rcnt + 1) with park := .retry 0 false, xstat := c.xstat &&& 0x7FFFFFFFFFFFFFFF }).retrySoon n k = _
  rw [State.retrySoon_of_idle (l := false) (by rw [State.onCtx_ctx]), State.onCtx_onCtx]
  · rfl
  · exact running_filter_nil hr _

section
variable {s : State} {n k : Nat} (hr : s.running n k = [])
include hr

theorem State.retry_ctx : (s.retry n k).ctx n k = (s.ctx n k).retried (s.now + 16) := by
  rw [State.retry_of_idle hr, State.after_ctx, State.onCtx_ctx, State.withdrawn_ctx]
theorem State.retry_mem : (s.retry n k).mem = s.mem := by rw [State.retry_of_idle hr]; rfl
theorem State.mem_retry_queue : (s.now + 16, Ev.retryResume n k) ∈ (s.retry n k).queue := by
  rw [State.retry_of_idle hr]; exact State.mem_after _ 16 _
theorem State.not_waiting_of_retry {d : Cmd} (h : d ∈ (s.retry n k).cmds) (hn : d.core = n) (hk : d.ctx = k) : d.phase ≠ .waiting := by
  rw [State.retry_of_idle hr] at h
  obtain ⟨-, hd⟩ := List.mem_filter.1 h
  simpa [hn, hk] using hd
end

/-- The registers are those of the image. -/
theorem Ctx.retried_registers {x : Ctx} {img : CairnImage} (h : x.image = some img) (t : Nat) :
    (x.retried t).g = img.g ∧ (x.retried t).v = img.v ∧ (x.retried t).p = img.p ∧ (x.retried t).mshape = img.mshape ∧
      (x.retried t).pend = [] ∧ (x.retried t).hg = x.hg ∧ (x.retried t).rmode = x.rmode := by
  simp [Ctx.retried, Ctx.atCairn, h, Ctx.fromImage]
/-- One retry more is counted, and NFX stays (R139). -/
theorem Ctx.retried_counts {x : Ctx} (h : x.rcnt < 3) (t : Nat) : (x.retried t).rcnt = x.rcnt + 1 ∧ (x.retried t).nfx = x.nfx := by
  refine ⟨(cairnWord_rcnt ..).trans (by omega), (cairnWord_nfx ..).trans (Nat.mod_eq_of_lt ?_)⟩
  have : x.nfx < 2 ^ 6 := BitVec.isLt _
  omega

/-! ### A timing fault (R139, R141) -/

section
variable {s : State} {n k : Nat} (hf : (s.core n).failing = none)
include hf

theorem State.timingFault_retries (hv : (s.ctx n k).cairnV = true) (hr : (s.ctx n k).rcnt < (s.core n).check.toNat / 2 ^ 4 % 4) (cause : Nat) :
    s.timingFault n k cause = s.retry n k := by
  have hr' : (s.ctx n k).rcnt < ((s.core n).check.extractLsb' 4 2).toNat := by rwa [extract_toNat]
  simp only [State.timingFault, hf, hv, hr', Option.isSome_none, Bool.false_eq_true, if_false, decide_true, Bool.and_self, if_true]
theorem State.timingFault_traps (hv : (s.ctx n k).cairnV = false) (hh : (s.ctx n k).hm = false) (cause : Nat) :
    s.timingFault n k cause = s.takeTrap n k ⟨cause, 0, 0⟩ (s.ctx n k).pc false false true := by
  simp [State.timingFault, hf, hv, hh]
end

/-! ### The resume (R139, R140, R190) -/

section
variable (s : State) (n k : Nat)

/-- A request stands with the arbiter, whether it stood there before or not. -/
theorem State.askLease_asks : ∃ w ∈ ((s.askLease n k).rope (n / 8)).waiting, w.1 = 16 * n + k := by
  simp only [State.askLease]
  split
  · next h =>
    obtain ⟨w, hw, he⟩ := List.any_eq_true.1 h
    exact ⟨w, hw, by simpa using he⟩
  · rw [State.after_rope, ← ropeOf, State.rope_onRope]
    exact ⟨_, List.mem_append_right _ (List.mem_singleton_self _), rfl⟩
theorem State.askLease_frame : s.askLease n k = { s with ropes := (s.askLease n k).ropes, queue := (s.askLease n k).queue } := by
  simp only [State.askLease]
  split <;> rfl
@[simp] theorem State.askLease_ctx (i j : Nat) : (s.askLease n k).ctx i j = s.ctx i j := by rw [State.askLease_frame]; rfl
end

section
variable {s : State} {n k c : Nat} (hp : (s.ctx n k).park = .retry c false) (h0 : c ≠ 0) (hc : c ≤ s.now)
include hp h0 hc

theorem exec_retryResume_goes (h : (s.ctx n k).cairnpc.getLsbD 62 = false ∨ s.holdsLease n = true) :
    exec (.retryResume n k) s = .next (s.retryGo n k) := by
  have hgo : ((s.ctx n k).cairnpc.getLsbD 62 && !s.holdsLease n) = false := by
    rcases h with h | h <;> simp only [h, Bool.false_and, Bool.not_true, Bool.and_false]
  rw [exec_retryResume]
  simp only [execRetryResume, hp, h0, Nat.not_lt.2 hc, hgo, decide_false, Bool.or_self, Bool.false_eq_true, if_false]
theorem exec_retryResume_asks (h : (s.ctx n k).cairnpc.getLsbD 62 = true) (hl : s.holdsLease n = false) :
    exec (.retryResume n k) s = .next ((s.askLease n k).onCtx n k fun x => { x with park := .retry c true }) := by
  rw [exec_retryResume]
  simp [execRetryResume, hp, h0, Nat.not_lt.2 hc, h, hl]
end

/-- Settles O31: a start meets the lease first and its time next; the fault strikes the command, and is reported, retried at the cairn, or trapped. -/
theorem timingFaultsAndRetries : Obligations.TimingFaultsAndRetries := by
  unfold Obligations.TimingFaultsAndRetries
  refine ⟨fun s c hw hl => ⟨fun hi hno => ?unleased, fun hi hle he => ?early⟩, fun s n k c hp h0 hc => ⟨fun h => ?goes, fun h hno => ?asks⟩⟩
  case unleased =>
    rw [exec_engineCommandStart_faults hl hw (State.startOf_without_lease hi hno), State.cmdFault_live hl, if_neg (by decide)]
    refine ⟨_, rfl, rfl, ?_, rfl, fun n k => ?_, fun n => ?_⟩
    · rw [State.reportImprecise_ctx, State.struck_ctx, State.struck_impFault, Ctx.reported_fault hl.fault_none]
    · rw [← s.struck_ctx c n k]; exact State.reportImprecise_sameRegs ..
    · exact (State.reportImprecise_core ..).imp (·.trans (by rw [State.struck_core])) (·.trans (by rw [State.struck_core]))
  case early =>
    have hfail : ((s.struck c).core c.core).failing = none := by rw [State.struck_core]; exact hl.failing_none
    have hcheck : ((s.struck c).core c.core).check = (s.core c.core).check := by rw [State.struck_core]
    rw [exec_engineCommandStart_faults hl hw (State.startOf_tooEarly hi hle he), State.cmdFault_live hl, if_pos (.inl rfl)]
    refine ⟨fun img hv himg hr hidle => ?_, fun hv hh => ?_⟩
    · have hidle' := State.struck_idle c hidle
      have hctx := State.retry_ctx hidle'
      rw [State.struck_ctx, State.struck_now] at hctx
      rw [State.timingFault_retries hfail (by rwa [State.struck_ctx]) (by rwa [State.struck_ctx, hcheck])]
      refine ⟨_, rfl, fun d hd hn hk => State.not_waiting_of_retry hidle' hd hn hk, State.retry_mem hidle', State.mem_retry_queue hidle', ?_⟩
      obtain ⟨hg, hv, hpr, hms, hpend, hhg, hrm⟩ := Ctx.retried_registers himg (s.now + 16)
      obtain ⟨hrc, hnfx⟩ := Ctx.retried_counts (x := s.ctx c.core c.ctx) (by omega) (s.now + 16)
      simp only [hctx]
      exact ⟨hg, hv, hpr, hms, hpend, rfl, hrc, hnfx, rfl, rfl, rfl, hhg, hrm⟩
    · refine ⟨s.struck c, ?_, s.struck_cmds c, s.struck_mem c, fun n k => by rw [State.struck_ctx]; exact .refl _⟩
      rw [State.timingFault_traps hfail (by rwa [State.struck_ctx]) (by rwa [State.struck_ctx]), State.struck_ctx]
  case goes =>
    rw [exec_retryResume_goes hp h0 hc h]
    exact ⟨_, rfl, rfl, fun m j hne => State.onCtx_ctx_other s hne _, State.onCtx_ctx ..⟩
  case asks =>
    rw [exec_retryResume_asks hp h0 hc h hno]
    refine ⟨_, rfl, s.askLease_asks n k, ?_, ?_, fun m j => ?_⟩
    · rw [State.onCtx_ctx]
    · rw [State.onCtx_mem, State.askLease_frame]
    · have hs := State.onCtx_sameRegs (s.askLease n k) n k (f := fun x => { x with park := .retry c true }) ⟨rfl, rfl, rfl, rfl, rfl⟩ m j
      rwa [State.askLease_ctx] at hs

end Sys2Proof.Machine
end
